-- ==== Sys2Proof/Word.lean ====
section
/-! DEFINITION. The machine's words (R7, R13, R25) and the type of sparse data: a list of key and value pairs in one canonical form. -/

namespace Sys2Proof

abbrev Byte := BitVec 8
abbrev W16 := BitVec 16
abbrev W32 := BitVec 32
abbrev W64 := BitVec 64
abbrev W128 := BitVec 128
/-- A vector register (R25). -/
abbrev W512 := BitVec 512

/-- Data by key. Canonical form: keys strictly rising, no entry equal to the default that an unlisted key reads as
(Sys2Proof/Machine/Sparse.lean). -/
abbrev Sparse (α : Type) := List (Nat × α)

end Sys2Proof
end

