-- ==== Sys2Proof/Message.lean ====
section
/-! DEFINITION. The values that travel between the machine's agents and from outside it: tagged values, guards, protocol
images, task descriptors, channel messages, host requests. The operands of the event rows of Sys2Proof/Syntax.lean use them. -/

namespace Sys2Proof

/-- The tag of a g register or a memory granule (R14). -/
inductive Tag
  | data | mem | endp | entry
  deriving DecidableEq, Repr

/-- 128 bits with their tag (R13). -/
structure GVal where
  bits : W128
  tag : Tag
  deriving DecidableEq, Repr

/-- Plain zero (R13). -/
def GVal.zero : GVal := ⟨0, .data⟩

/-- The guard of an instruction word, bits [31:28] (R87): the negate bit and the predicate's number. -/
structure Guard where
  neg : Bool
  p : BitVec 3
  deriving DecidableEq, Repr

/-- The two shared engines an instruction reaches (R278) as units of the package: the routing engine of package cluster
k = die * 80 + cluster, and the exchange engine of a die. -/
inductive EngId
  | route (cluster : Nat)
  | exch (die : Nat)
  deriving DecidableEq, Repr

/-- A core of the pod: the chip number (R39) and the package core index die * 320 + cluster * 4 + slot (R3). -/
structure Place where
  chip : Byte
  core : Nat
  deriving DecidableEq, Repr

/-- The location of an endpoint slot, with the generation under which it is named (R21). -/
structure EpLoc where
  at_ : Place
  ep : Nat
  gen : W32
  deriving DecidableEq, Repr

/-- One state of a protocol image (R223): its transition words and its name. -/
structure PState where
  trans : List W32
  name : List Byte
  deriving DecidableEq, Repr

/-- A protocol image as an endpoint slot keeps it (R223, R237). -/
structure Image where
  la : Nat
  states : List PState
  deriving DecidableEq, Repr

/-- What a task-creating message carries (R257, R258, R295): the sealed entry, the arguments, the job and its address
space, the core it was sent from. -/
structure TaskDesc where
  entry : GVal
  args : List GVal
  job : W32
  asid : W16
  src : Place
  /-- the GTID of the sending task, for an error reply (R257) -/
  by_ : BitVec 48
  /-- an AM holds an entry of the sender's reply sink (R390) -/
  am : Bool
  /-- created by a launch, with the count of tasks of its core group on the core (R169), and its pinned flag (R295) -/
  launched : Bool
  onCore : Nat
  pinned : Bool
  /-- created by the binding of this core: endpoint slots are numbered 0 to 63, counter slots 64 to 79 (R260) -/
  binder : Option Nat
  deriving DecidableEq, Repr

/-- A delegation record (R246). -/
structure DelegRec where
  image : Image
  state : Nat
  loop0 : BitVec 17
  loop1 : BitVec 17
  sent : W32
  returned : W32
  consumed : W32
  peer : EpLoc
  peerL : Nat
  old : EpLoc
  deriving DecidableEq, Repr

/-- A message of a channel that its receiver buffers (R225, R246, R255). -/
inductive ChBody
  | data (type : BitVec 6) (shape : BitVec 4) (word : W64) (count : BitVec 17) (payload : List Byte)
  | label (type : BitVec 6) (count : BitVec 17)
  | deleg (type : BitVec 6) (r : DelegRec)
  | close (word : W64) (gtid : BitVec 48)
  deriving DecidableEq, Repr

/-- The answer to a connect message (R238). -/
inductive ConnAns
  | ok (l : Nat)
  | mismatch (reason : BitVec 3) (state : BitVec 5)
  | closed
  deriving DecidableEq, Repr

/-- What a message of the mesh, the lattice or a circuit carries (R389). -/
inductive Body
  | task (d : TaskDesc) (addr : W64)
  | chan (dst src : EpLoc) (via : Option EpLoc) (b : ChBody)
  | connect (dst src : EpLoc) (img : Image)
  | connAns (dst : EpLoc) (r : ConnAns)
  | slotReturn (dst : EpLoc) (word : W64)
  | resync (dst : EpLoc) (word : W128)
  | closeAck (dst : EpLoc)
  | failure (dst : EpLoc) (word : W64) (gtid : BitVec 48)
  | moved (dst : EpLoc) (new : EpLoc)
  | mark (dst new : EpLoc)
  /-- the model's own notice to a delegated slot, which lets it send on a MOVED or a failure before its mark (log entry 21) -/
  | successor (dst new : EpLoc)
  | sinkRelease
  | podError (d : TaskDesc) (addr : W64)
  deriving DecidableEq, Repr

/-- A message in flight: its source and destination, its virtual network (true: reply), its header word as carried on a
pod fibre (R420). -/
structure Msg where
  src : Place
  dst : Place
  reply : Bool
  header : W64
  body : Body
  deriving DecidableEq, Repr

/-- What an off-chip rank brings to an exchange (R412): its rank, the byte count it receives from the rank named by the
event, and the bytes it sends to it. -/
structure ExPeer where
  rank : Nat
  want : Nat
  data : List Byte
  deriving DecidableEq, Repr

/-- What a record of the arrival log stands for (R412, R419): a message, or what a rank of another chip brought to an exchange of a
die. -/
inductive Logged
  | msg (m : Msg)
  | exchange (die : Nat) (p : ExPeer)
  deriving DecidableEq, Repr

/-- A RoCEv2 request as a host port meets it (R413, R414, R417). -/
structure RdmaReq where
  port : Nat
  qpn : BitVec 24
  psn : BitVec 24
  rkey : W32
  va : W64
  len : Nat
  data : List Byte
  /-- ECN mark CE (R416) -/
  ce : Bool
  /-- header or checksum malformed (R416, HP_DROP) -/
  bad : Bool
  deriving DecidableEq, Repr

end Sys2Proof
end

