-- ==== Sys2Proof/Config.lean ====
section
/-! DEFINITION. What one implementation fixes and the free values the manual leaves open. A free value is opaque: nothing
can be proved of it. Each is named in notes/assumptions. -/

namespace Sys2Proof.Config

/-- Free: core cycles that pass in the step with this tick, beyond one (log entry 4). -/
opaque elapsed : Nat → Nat

/-- Free: which entry of a full translation structure a fill replaces (R343; log entry 10). -/
opaque victim : Nat → Nat

/-- Free: which of a cluster's two walkers serves the walk of the step with this tick (R344; log entry 19). -/
opaque walker : Nat → Bool

/-- Free: how many of a task's stores through a loop-back path (true: the global address), oldest first, are performed for the other
path before the instruction of the step with this tick (R367; log entry 30). -/
opaque loopBack : Nat → Bool → Nat

/-- Free: cycles that the instruction of the step with this tick waited for the vector queue under R178 (R180; log entry 9). -/
opaque decoupled : Nat → Nat

/-- Free: tower events counted at a commit (R327; log entry 18): 0 squashed, 1 fetch waits, 2 operand hops. -/
opaque towerCount : Nat → Nat → Nat

/-- Free: whether the core held an operand-reuse copy of a g register that is rewritten in the step with this tick (R440; log
entry 29). -/
opaque reuseCopy : Nat → Nat → Bool

/-- Fuses (R1, R302, R462; log entry 3): enabled dies. -/
opaque enabledDies : BitVec 8
/-- Fuses: harvested cores of a die, word w of HMAP (R302). -/
opaque hmap : Nat → Nat → W64
/-- Fuses: cores with a plane-array quarter off (R462). -/
opaque qmap : Nat → Nat → W64
/-- Training: pseudo-channels mapped out (R462). -/
opaque pcmap : Nat → Nat → W64
/-- Fuses: wavelengths out of service (R462). -/
opaque wlmap : Nat → Nat → W64
/-- Fuses: lattice lanes out (R462). -/
opaque latmap : Nat → BitVec 8
/-- Pod configuration: this chip's number (R39). -/
opaque chip : Byte
/-- Fuses: the lowest firmware version at manufacture (R457, R458). -/
opaque rollback : W16
/-- The part's serial number (R461). -/
opaque serial : W128
/-- The part's identity public key, 68 bytes, and the vendor's certificate, 2,500 bytes (R461). -/
opaque identityKey : BitVec 544
opaque certificate : BitVec 20000

/-- The XMSS signature of a firmware image verifies against the fused vendor key (R458). -/
opaque imageVerifies : List Byte → Bool
/-- The image the flash holds when the part is made, if any (R458; log entry 27). -/
opaque flash : Option (List Byte)
/-- Free: word 2 of the error log record of a thermal event and of a mapped-out unit (R457; log entry 27). -/
opaque eventInfo : Nat → W64
/-- The version a firmware image carries (R458). -/
opaque imageVersion : List Byte → W16
/-- XMSS-SHAKE256_20_256 signature under an index, 2,820 bytes (R460, R461). -/
opaque sign : W32 → List Byte → BitVec 22560
/-- A task that boot firmware starts: its core within the die, its entry, its arguments, its job and address space (R31). -/
structure FirstTask where
  core : Nat
  entry : W128
  args : List W128
  job : W32
  asid : W16
  deriving DecidableEq, Repr, Inhabited
/-- Free: the supervisor tasks that boot firmware starts on a die (R31; log entry 27). -/
opaque firstTasks : Nat → List FirstTask
/-- Free: the header word that exchange data carries on a pod fibre (R420; log entry 23). -/
opaque podHeader : Nat → W64
/-- Free: what a record stands for that this part's log did not write, as its header word and payload say (R420, R421; log entry
25). -/
opaque podLogged : List Byte → Option Logged

/-- Free: which free slot of a receive buffer an arriving message takes (R231; log entry 21). -/
opaque frameSlot : Nat → Nat
/-- Free: pause quanta that a host port asks for (R416; log entry 26). -/
opaque pauseQuanta : Nat → W16
/-- Free: flow-controlled messages to another chip that the link layer has not confirmed (R400; log entry 21). -/
opaque podUnplaced : Nat → BitVec 4

end Sys2Proof.Config
end

