-- ==== Sys2Proof/Machine/Bits.lean ====
section
/-! DEFINITION. Bytes and words: little-endian layout (R7), sign extension (R10), bit fields, CRCs (R399, R400). -/

namespace Sys2Proof.Machine

/-- The low n bytes of v, little-endian (R7). -/
def leBytes : Nat → Nat → List Byte
  | 0, _ => []
  | n + 1, v => BitVec.ofNat 8 v :: leBytes n (v / 256)

/-- The number that little-endian bytes hold (R7). -/
def leNat : List Byte → Nat
  | [] => 0
  | b :: bs => b.toNat + 256 * leNat bs

/-- The 8-byte words that bytes hold, little-endian. -/
def leWords : List Byte → List W64
  | b0 :: b1 :: b2 :: b3 :: b4 :: b5 :: b6 :: b7 :: bs =>
    BitVec.ofNat 64 (leNat [b0, b1, b2, b3, b4, b5, b6, b7]) :: leWords bs
  | _ => []

/-- Bits [hi:lo] of a number. -/
def bits (v hi lo : Nat) : Nat := (v / 2 ^ lo) % 2 ^ (hi + 1 - lo)

/-- A number read as n bits of two's complement: sx(x, n) (R10). -/
def sxInt (v n : Nat) : Int :=
  let x := v % 2 ^ n
  if 2 * x < 2 ^ n then (x : Int) else (x : Int) - (2 ^ n : Nat)

/-- An integer modulo 2^n. -/
def wrapInt (i : Int) (n : Nat) : Nat := (i % ((2 ^ n : Nat) : Int)).toNat

/-- a := zx(v, 64) as the address of an access, moved by a signed amount modulo 2^64 (R148). -/
def addrAdd (a : W64) (d : Int) : W64 := a + BitVec.ofInt 64 d

/-- Every element of a list satisfies a test. -/
def allOk {α : Type} (f : α → Bool) : List α → Bool
  | [] => true
  | x :: xs => f x && allOk f xs

/-- Rounding up to a multiple. -/
def ceilDiv (a b : Nat) : Nat := (a + b - 1) / b

/-- One bit of CRC-16 with polynomial 0x1021, most significant bit first (R399). -/
def crc16Bit (crc : W16) (b : Bool) : W16 :=
  if crc.getLsbD 15 != b then (crc <<< 1) ^^^ 0x1021 else crc <<< 1

/-- CRC-16 over bytes, initial value 0xFFFF, no reflection, no final XOR (R399). -/
def crc16 (bs : List Byte) : W16 :=
  bs.foldl (fun c b => [7, 6, 5, 4, 3, 2, 1, 0].foldl (fun c i => crc16Bit c (b.getLsbD i)) c) 0xFFFF

/-- One bit of CRC-32C in its reflected form (R400). -/
def crc32cBit (crc : W32) : W32 :=
  if crc.getLsbD 0 then (crc >>> 1) ^^^ 0x82F63B78 else crc >>> 1

/-- CRC-32C (Castagnoli) over bytes (R400). -/
def crc32c (bs : List Byte) : W32 :=
  ~~~(bs.foldl (fun c b => [0, 1, 2, 3, 4, 5, 6, 7].foldl (fun c _ => crc32cBit c) (c ^^^ b.setWidth 32)) 0xFFFFFFFF)

end Sys2Proof.Machine
end

