-- ==== Sys2Proof/Machine/Caps.lean ====
section
/-! DEFINITION. Capabilities (R16 to R23) and the causes of traps (R269). -/

namespace Sys2Proof.Machine

/-- The trap causes (R269). -/
inductive Cause
  | illegalInstr | illegalReg | priv | capTag | capBounds | capPerm | align | page | rangeLocked | proto | protoMismatch
  | chClosed | delegBusy | sendqFull | engineFault | barrierId | window | compose | rampViolation | handlerBudget | memUe
  | brk | syscall | busError
  deriving DecidableEq, Repr

/-- The code of a cause (R269). -/
def causeCode : Cause → Byte
  | .illegalInstr => 0x01 | .illegalReg => 0x02 | .priv => 0x03 | .capTag => 0x04 | .capBounds => 0x05
  | .capPerm => 0x06 | .align => 0x07 | .page => 0x08 | .rangeLocked => 0x09 | .proto => 0x0A | .protoMismatch => 0x0B
  | .chClosed => 0x0C | .delegBusy => 0x0D | .sendqFull => 0x0E | .engineFault => 0x0F | .barrierId => 0x10
  | .window => 0x11 | .compose => 0x12 | .rampViolation => 0x13 | .handlerBudget => 0x14 | .memUe => 0x15 | .brk => 0x16
  | .syscall => 0x17 | .busError => 0x18

/-- Where a cause is routed (R269): to the task or to the supervisor. BREAK goes to the debugger. -/
def routedToTask : Byte → Bool
  | 0x04 | 0x05 | 0x06 | 0x07 | 0x09 | 0x0A | 0x0B | 0x0C | 0x0D | 0x0E | 0x0F | 0x11 | 0x12 | 0x15 => true
  | _ => false

def permLd : Byte := 0x01
def permSt : Byte := 0x02
def permEx : Byte := 0x04
def permLdcap : Byte := 0x08
def permStcap : Byte := 0x10
def permAtom : Byte := 0x20
def permGlobal : Byte := 0x40

def capPerm (c : W128) : Byte := c.extractLsb' 120 8
def capExp (c : W128) : Nat := (c.extractLsb' 114 6).toNat
def capBaseM (c : W128) : Nat := (c.extractLsb' 88 26).toNat
def capLen (c : W128) : Nat := (c.extractLsb' 64 24).toNat
def cursor (c : W128) : W64 := c.extractLsb' 0 64

/-- The capability's bits with another cursor. -/
def withCursor (c : W128) (a : W64) : W128 := c.extractLsb' 64 64 ++ a

/-- The bits of a MEM capability (R16). -/
def capBits (perm : Byte) (exp : Nat) (baseM len : Nat) (cur : W64) : W128 :=
  perm ++ BitVec.ofNat 6 exp ++ BitVec.ofNat 26 baseM ++ BitVec.ofNat 24 len ++ cur

/-- base and top of a capability (R18). -/
def memBounds (c : W128) : Nat × Nat :=
  let e := capExp c
  if 38 < e then (0, 0)
  else
    let hi := if e = 38 then 0 else (cursor c).toNat / 2 ^ (e + 26) * 2 ^ (e + 26)
    let base := hi + capBaseM c * 2 ^ e
    (base, base + capLen c * 2 ^ e)

/-- Window folding (R18, R20): an address of the private alias under a capability whose top is at most 512 KiB. -/
def foldAddr (top : Nat) (a : Nat) : Nat := if a < 0x1000000 && top ≤ 0x80000 then a % 0x100000 else a

/-- cap_check (R18): tag, bounds, permission in that order; the cause of the first that fails. -/
def capCheck (c : GVal) (perm : Byte) (addr : W64) (size : Nat) : Option Cause :=
  if c.tag ≠ .mem then some .capTag
  else
    let (base, top) := memBounds c.bits
    let a := foldAddr top addr.toNat
    if a < base || top < a + size then some .capBounds
    else if capPerm c.bits &&& perm ≠ perm then some .capPerm
    else none

/-- Whether a change of cursor keeps the tag (R19). -/
def keepsTag (c : W128) (a : W64) : Bool :=
  let e := capExp c
  if 38 < e then false
  else if e = 38 then true
  else (cursor c).toNat / 2 ^ (e + 26) = a.toNat / 2 ^ (e + 26)

/-- A MEM capability moved to another cursor, under the tag rule of R19. -/
def moveCursor (c : GVal) (a : W64) : GVal :=
  ⟨withCursor c.bits a, if c.tag = .mem && keepsTag c.bits a then .mem else .data⟩

/-- The bounds of CSETB for exponent e: base, top, length in units, and whether they fit (R128). -/
def setbTry (q n e : Nat) : Nat × Nat × Nat × Bool :=
  let b2 := q / 2 ^ e * 2 ^ e
  let t2 := ceilDiv (q + n) (2 ^ e) * 2 ^ e
  let l := (t2 - b2) / 2 ^ e
  (b2, t2, l, l < 2 ^ 24 && (n = 0 || e = 38 || b2 / 2 ^ (e + 26) = (t2 - 1) / 2 ^ (e + 26)))

/-- The smallest exponent that fits (R128), from e up, within `fuel` tries. -/
def setbFind (q n : Nat) : Nat → Nat → Option Nat
  | 0, _ => none
  | fuel + 1, e => if (setbTry q n e).2.2.2 then some e else setbFind q n fuel (e + 1)

/-- CSETB: the capability for n bytes from the cursor of c, within c's bounds; none traps CAP_BOUNDS (R128). -/
def capSetb (c : W128) (n : Nat) : Option W128 :=
  let (sb, st) := memBounds c
  let q := foldAddr st (cursor c).toNat
  match setbFind q n 39 0 with
  | none => none
  | some e =>
    let (b2, t2, l, _) := setbTry q n e
    if b2 < sb || st < t2 then none else some (capBits (capPerm c) e (b2 / 2 ^ e) l (cursor c))

/-- A MEM capability with E = 0 over exactly [base, base + len), the cursor at base (R50, R241). -/
def exactCap (perm : Byte) (base len : Nat) (cur : W64) : GVal := ⟨capBits perm 0 (base % 2 ^ 26) len cur, .mem⟩

/-- The supervisor code capability at an address (R271). -/
def supervisorPcc (a : W64) : GVal := ⟨capBits permEx 38 0 0x40000 a, .mem⟩

/-- GLOBAL of a capability, by its tag (R17, R21, R156); a DATA value counts as global. -/
def isGlobal (v : GVal) : Bool :=
  match v.tag with
  | .data => true
  | .mem | .entry => v.bits.getLsbD 126
  | .endp => v.bits.getLsbD 123

def entryHl (c : W128) : Bool := c.getLsbD 120
def entrySv (c : W128) : Bool := c.getLsbD 121

/-- An ENDP capability (R21). -/
def endpCap (glob deleg recv send : Bool) (l : EpLoc) : GVal :=
  let core := l.at_.core
  ⟨0#4 ++ BitVec.ofBool glob ++ BitVec.ofBool deleg ++ BitVec.ofBool recv ++ BitVec.ofBool send ++ 0#24 ++ l.gen
    ++ l.at_.chip ++ BitVec.ofNat 3 (core / 320) ++ BitVec.ofNat 7 (core % 320 / 4) ++ BitVec.ofNat 2 (core % 4)
    ++ BitVec.ofNat 6 l.ep ++ 0#38, .endp⟩

/-- The slot that an ENDP capability names (R21). -/
def endpLoc (c : W128) : EpLoc :=
  { at_ := ⟨c.extractLsb' 56 8, (c.extractLsb' 53 3).toNat * 320 + (c.extractLsb' 46 7).toNat * 4 + (c.extractLsb' 44 2).toNat⟩,
    ep := (c.extractLsb' 38 6).toNat, gen := c.extractLsb' 64 32 }

/-- Reserved bits and cluster field of an ENDP at use (R22). -/
def endpValid (c : W128) : Bool :=
  c.extractLsb' 124 4 = 0 && c.extractLsb' 96 24 = 0 && c.extractLsb' 0 38 = 0 && (c.extractLsb' 46 7).toNat ≤ 79

/-- A GTID from its fields (R35). -/
def mkGtid (chip : Byte) (core : Nat) (serial : BitVec 28) : BitVec 48 :=
  chip ++ BitVec.ofNat 3 (core / 320) ++ BitVec.ofNat 7 (core % 320 / 4) ++ BitVec.ofNat 2 (core % 4) ++ serial

/-- The place a value in the GTID layout names, and whether its cluster field is in range (R257). -/
def placeOf (v : W64) : Place × Bool :=
  (⟨v.extractLsb' 40 8, (v.extractLsb' 37 3).toNat * 320 + (v.extractLsb' 30 7).toNat * 4 + (v.extractLsb' 28 2).toNat⟩,
    (v.extractLsb' 30 7).toNat ≤ 79)

end Sys2Proof.Machine
end

