-- ==== Sys2Proof/Machine/Numbers.lean ====
section
/-! DEFINITION. Number formats and arithmetic (spec/02_number_formats.md): exact values, rounding (R61, R62), flags (R63),
conversions (R64 to R66), and the functions of R186. All arithmetic is exact on integers and rounded once. -/

namespace Sys2Proof.Machine

/-- A decoded value (R53): a NaN (signalling or not), an infinity, or (-1)^neg * m * 2^e exactly. -/
inductive FVal
  | nan (sig : Bool)
  | inf (neg : Bool)
  | fin (neg : Bool) (m : Nat) (e : Int)
  deriving DecidableEq, Repr

/-- A floating-point format (R51, R52): widths, bias, and what its all-ones exponent means. -/
structure Fmt where
  ebits : Nat
  fbits : Nat
  bias : Nat
  hasInf : Bool
  /-- the code of the canonical NaN (R54) -/
  nan : Nat
  deriving DecidableEq, Repr

def fp64 : Fmt := ⟨11, 52, 1023, true, 0x7FF8000000000000⟩
def fp32 : Fmt := ⟨8, 23, 127, true, 0x7FC00000⟩
def bf16 : Fmt := ⟨8, 7, 127, true, 0x7FC0⟩
def fp16 : Fmt := ⟨5, 10, 15, true, 0x7E00⟩
def e5m2 : Fmt := ⟨5, 2, 15, true, 0x7E⟩
def e4m3 : Fmt := ⟨4, 3, 7, false, 0x7F⟩
def e2m1 : Fmt := ⟨2, 1, 1, false, 0⟩

def Fmt.width (f : Fmt) : Nat := 1 + f.ebits + f.fbits
def Fmt.emax (f : Fmt) : Nat := 2 ^ f.ebits - 1

/-- The flags of FFLAGS (R40). -/
abbrev Flags := BitVec 5
def flInvalid : Flags := 1
def flDivzero : Flags := 2
def flOverflow : Flags := 4
def flUnderflow : Flags := 8
def flInexact : Flags := 16

/-- The value of a code (R53). -/
def fdecode (f : Fmt) (code : Nat) : FVal :=
  let s := code.testBit (f.ebits + f.fbits)
  let e := code / 2 ^ f.fbits % 2 ^ f.ebits
  let fr := code % 2 ^ f.fbits
  if e = f.emax && f.hasInf then
    if fr = 0 then .inf s else .nan (!fr.testBit (f.fbits - 1))
  else if f.fbits = 3 && f.ebits = 4 && e = 15 && fr = 7 then .nan false
  else if e = 0 then .fin s fr (1 - (f.bias : Int) - f.fbits)
  else .fin s (2 ^ f.fbits + fr) ((e : Int) - f.bias - f.fbits)

/-- How to round (R61, R62): to nearest even, or stochastically with the 16-bit draw r of sr(). -/
inductive Rounding
  | rne
  | sr (r : Nat)
  deriving DecidableEq, Repr

/-- The draw of sr() for a seed and an element index (R62). -/
def srDraw (seed : W16) (i : Nat) : Nat :=
  let hi := Nat.xor seed.toNat (bits i 31 16)
  let t := (hi * 65536 + i % 65536) % 2 ^ 32
  (t * 0x9E3779B9) % 2 ^ 32 / 65536

/-- floor(log2 (n / d)) for positive n and d. -/
def log2Frac (n d : Nat) : Int :=
  let a : Int := (Nat.log2 n : Int) - Nat.log2 d
  let ge := if 0 ≤ a then d * 2 ^ a.toNat ≤ n else d ≤ n * 2 ^ (-a).toNat
  if ge then a else a - 1

/-- n / d * 2^e divided by 2^q: the integer part, and the rest as a fraction (rest, divisor). -/
def scaleDiv (n d : Nat) (e q : Int) : Nat × Nat × Nat :=
  let s := e - q
  let n' := if 0 ≤ s then n * 2 ^ s.toNat else n
  let d' := if 0 ≤ s then d else d * 2 ^ (-s).toNat
  (n' / d', n' % d', d')

/-- The integer next to k + r / d (0 ≤ r < d) under a rounding (R61, R62). -/
def roundInt (md : Rounding) (k r d : Nat) : Nat :=
  if r = 0 then k
  else match md with
    | .rne => if d < 2 * r || (2 * r = d && k % 2 = 1) then k + 1 else k
    | .sr x => if 65536 ≤ r * 65536 / d + x then k + 1 else k

/-- The largest finite code of a format without its sign (R52, R65). -/
def maxCode (f : Fmt) : Nat :=
  if f.hasInf then f.emax * 2 ^ f.fbits - 1
  else if f.fbits = 3 then 0x7E else 2 ^ (f.ebits + f.fbits) - 1

def signBit (f : Fmt) (neg : Bool) : Nat := if neg then 2 ^ (f.ebits + f.fbits) else 0

/-- Overflow of a finite value (R65). -/
def overflowCode (f : Fmt) (sat neg : Bool) : Nat :=
  if sat || f.fbits = 1 then signBit f neg + maxCode f
  else if f.hasInf then signBit f neg + f.emax * 2 ^ f.fbits
  else f.nan

/-- A finite positive or negative value n / d * 2^e rounded once to a format, with its flags (R61 to R65). -/
def roundFin (f : Fmt) (sat : Bool) (md : Rounding) (neg : Bool) (n d : Nat) (e : Int) : Nat × Flags :=
  if n = 0 then (signBit f neg, 0)
  else
    let l := log2Frac n d + e
    let qmin : Int := 1 - (f.bias : Int) - f.fbits
    let q := if l - f.fbits < qmin then qmin else l - f.fbits
    let (k, r, dd) := scaleDiv n d e q
    let k' := roundInt md k r dd
    let (k2, q2) := if k' = 2 ^ (f.fbits + 1) then (2 ^ f.fbits, q + 1) else (k', q)
    let code : Int := if k2 < 2 ^ f.fbits then (k2 : Int)
      else (q2 + f.fbits + f.bias) * (2 ^ f.fbits : Nat) + (k2 - 2 ^ f.fbits : Nat)
    if (maxCode f : Int) < code then (overflowCode f sat neg, flOverflow ||| flInexact)
    else
      let small := l < 1 - (f.bias : Int)
      let fl := if r = 0 then 0 else if small then flUnderflow ||| flInexact else flInexact
      (signBit f neg + code.toNat, fl)

/-- A value converted to a format (R64, R65). -/
def fconv (f : Fmt) (sat : Bool) (md : Rounding) : FVal → Nat × Flags
  | .nan sig => (f.nan, if sig || f.fbits = 1 then flInvalid else 0)
  | .inf neg =>
    if f.fbits = 1 || sat then (signBit f neg + maxCode f, flInexact)
    else if f.hasInf then (signBit f neg + f.emax * 2 ^ f.fbits, 0)
    else (f.nan, flInvalid)
  | .fin neg m e => roundFin f sat md neg m 1 e

/-- A finite value n / d * 2^e rounded and saturated to n-bit two's complement (R66). -/
def roundIntFmt (w : Nat) (md : Rounding) (neg : Bool) (n d : Nat) (e : Int) : Nat × Flags :=
  let (k, r, dd) := scaleDiv n d e 0
  let k' := roundInt md k r dd
  let lim := if neg then 2 ^ (w - 1) else 2 ^ (w - 1) - 1
  if lim < k' then (if neg then 2 ^ (w - 1) else lim, flOverflow ||| flInexact)
  else (wrapInt (if neg then -(k' : Int) else k') w, if r = 0 then 0 else flInexact)

/-- A value converted to w-bit two's complement (R66). -/
def iconv (w : Nat) (md : Rounding) : FVal → Nat × Flags
  | .nan _ => (0, flInvalid)
  | .inf neg => (if neg then 2 ^ (w - 1) else 2 ^ (w - 1) - 1, flInvalid)
  | .fin neg m e => roundIntFmt w md neg m 1 e

/-- The value of an integer. -/
def ofInt (i : Int) : FVal := .fin (i < 0) i.natAbs 0

def sigFlag : FVal → Flags
  | .nan true => flInvalid
  | _ => 0

def FVal.isNan : FVal → Bool
  | .nan _ => true
  | _ => false

/-- Signed multiple of 2^q of a finite value, q at most its exponent. -/
def alignTo (q : Int) : FVal → Int
  | .fin neg m e => let v : Int := (m * 2 ^ (e - q).toNat : Nat); if neg then -v else v
  | _ => 0

/-- The exact sum of two finite values with the sign rule of zero (R76, R183). -/
def finAdd (a b : FVal) : FVal :=
  match a, b with
  | .fin na ma ea, .fin nb mb eb =>
    let q := if ea ≤ eb then ea else eb
    let s := alignTo q (.fin na ma ea) + alignTo q (.fin nb mb eb)
    if s = 0 then .fin (na && nb && ma = 0 && mb = 0) 0 q else .fin (s < 0) s.natAbs q
  | x, _ => x

/-- a + b exactly, with the invalid flag (R54, R63). -/
def fadd (a b : FVal) : FVal × Flags :=
  match a, b with
  | .nan s, y => (.nan false, (if s then flInvalid else 0) ||| sigFlag y)
  | x, .nan s => (.nan false, (if s then flInvalid else 0) ||| sigFlag x)
  | .inf x, .inf y => if x = y then (.inf x, 0) else (.nan false, flInvalid)
  | .inf x, _ => (.inf x, 0)
  | _, .inf y => (.inf y, 0)
  | x, y => (finAdd x y, 0)

def fneg : FVal → FVal
  | .nan s => .nan s
  | .inf n => .inf (!n)
  | .fin n m e => .fin (!n) m e

def fabs : FVal → FVal
  | .nan s => .nan s
  | .inf _ => .inf false
  | .fin _ m e => .fin false m e

/-- a * b exactly, with the invalid flag. -/
def fmul (a b : FVal) : FVal × Flags :=
  match a, b with
  | .nan s, y => (.nan false, (if s then flInvalid else 0) ||| sigFlag y)
  | x, .nan s => (.nan false, (if s then flInvalid else 0) ||| sigFlag x)
  | .inf x, .inf y => (.inf (x != y), 0)
  | .inf x, .fin n m _ => if m = 0 then (.nan false, flInvalid) else (.inf (x != n), 0)
  | .fin n m _, .inf y => if m = 0 then (.nan false, flInvalid) else (.inf (n != y), 0)
  | .fin n1 m1 e1, .fin n2 m2 e2 => (.fin (n1 != n2) (m1 * m2) (e1 + e2), 0)

/-- Ordering of two values that are no NaNs: a < b, with −0 below +0 when `zeros` (R185, R189). -/
def flt (zeros : Bool) (a b : FVal) : Bool :=
  match a, b with
  | .inf x, .inf y => x && !y
  | .inf x, .fin _ _ _ => x
  | .fin _ _ _, .inf y => !y
  | .fin na ma ea, .fin nb mb eb =>
    let q := if ea ≤ eb then ea else eb
    let x := alignTo q (.fin na ma ea)
    let y := alignTo q (.fin nb mb eb)
    if x = 0 && y = 0 then zeros && na && !nb else x < y
  | _, _ => false

def feq (a b : FVal) : Bool :=
  match a, b with
  | .nan _, _ => false
  | _, .nan _ => false
  | x, y => !flt false x y && !flt false y x

/-- The exact sum of values, and invalid, as a granule sum or a reduction takes it (R76, R78, R191). -/
def exactSum (xs : List FVal) : FVal × Flags :=
  if xs.any FVal.isNan || (xs.any (· = .inf true) && xs.any (· = .inf false)) then (.nan false, flInvalid)
  else if xs.any (· = .inf true) then (.inf true, 0)
  else if xs.any (· = .inf false) then (.inf false, 0)
  else
    match xs with
    | [] => (.fin false 0 0, 0)
    | x :: rest => (rest.foldl finAdd x, 0)

/-- floor of the square root of n below 2^(2 * b). -/
def isqrt (b n : Nat) : Nat :=
  (List.range b).reverse.foldl (fun r i => let t := r + 2 ^ i; if t * t ≤ n then t else r) 0

/-- 1 / a exactly rounded (R186). -/
def frcp (f : Fmt) : FVal → Nat × Flags
  | .nan s => (f.nan, if s then flInvalid else 0)
  | .inf n => (signBit f n, 0)
  | .fin n m e => if m = 0 then (signBit f n + f.emax * 2 ^ f.fbits, flDivzero) else roundFin f false .rne n 1 m (-e)

/-- 1 / sqrt a correctly rounded (R186): 2^K / sqrt m by an integer root, with a sticky bit. -/
def frsq (f : Fmt) : FVal → Nat × Flags
  | .nan s => (f.nan, if s then flInvalid else 0)
  | .inf n => if n then (f.nan, flInvalid) else (0, 0)
  | .fin n m e =>
    if m = 0 then (signBit f n + f.emax * 2 ^ f.fbits, flDivzero)
    else if n then (f.nan, flInvalid)
    else
      let odd := e % 2 ≠ 0
      let m' := if odd then 2 * m else m
      let e' := if odd then e - 1 else e
      let s := isqrt 101 (2 ^ 200 / m')
      let exact := s * s * m' = 2 ^ 200
      roundFin f false .rne false (2 * s + (if exact then 0 else 1)) 1 (-(e' / 2) - 101)

/-- 2^(k / 2^t) for 0 < k < 2^t, scaled by 2^p and rounded down at each product: the factors 2^(1/2^i) by repeated roots. -/
def exp2Frac (p : Nat) : Nat → Nat → Nat → Nat → Nat
  | 0, _, _, acc => acc
  | t + 1, k, c, acc =>
    let c' := isqrt (p + 1) (c * 2 ^ p)
    exp2Frac p t (k % 2 ^ t) c' (if k / 2 ^ t % 2 = 1 then acc * c' / 2 ^ p else acc)

/-- 2^a correctly rounded (R186; log entry 15): 384 fraction bits and a sticky bit. -/
def fexp2 (f : Fmt) : FVal → Nat × Flags
  | .nan s => (f.nan, if s then flInvalid else 0)
  | .inf n => if n then (0, 0) else (f.emax * 2 ^ f.fbits, 0)
  | .fin n m e =>
    if m = 0 then roundFin f false .rne false 1 1 0
    else if 20 ≤ (Nat.log2 m : Int) + e then roundFin f false .rne false 3 1 (if n then -5000 else 5000)
    else
      let t := (-e).toNat
      let v : Int := let a : Int := (m * 2 ^ e.toNat : Nat); if n then -a else a
      let i := v / (2 ^ t : Nat)
      let k := (v % (2 ^ t : Nat)).toNat
      if k = 0 then roundFin f false .rne false 1 1 i
      else roundFin f false .rne false (2 * exp2Frac 384 t k (2 * 2 ^ 384) (2 ^ 384) + 1) 1 (i - 385)

/-- The first b bits of log2 y for y in [1, 2) scaled by 2^p, by repeated squaring. -/
def log2Bits (p : Nat) : Nat → Nat → Nat → Nat
  | 0, _, acc => acc
  | b + 1, y, acc =>
    let y2 := y * y / 2 ^ p
    if 2 * 2 ^ p ≤ y2 then log2Bits p b (y2 / 2) (2 * acc + 1) else log2Bits p b y2 (2 * acc)

/-- log2 a correctly rounded (R186; log entry 15): 160 fraction bits and a sticky bit. -/
def flog2 (f : Fmt) : FVal → Nat × Flags
  | .nan s => (f.nan, if s then flInvalid else 0)
  | .inf n => if n then (f.nan, flInvalid) else (f.emax * 2 ^ f.fbits, 0)
  | .fin n m e =>
    if m = 0 then (signBit f true + f.emax * 2 ^ f.fbits, flDivzero)
    else if n then (f.nan, flInvalid)
    else
      let b := Nat.log2 m
      let l : Int := (b : Int) + e
      if m = 2 ^ b then roundFin f false .rne (l < 0) l.natAbs 1 0
      else
        let fr := log2Bits 480 160 (m * 2 ^ (480 - b)) 0
        let v : Int := l * (2 ^ 160 : Nat) + fr
        if 0 ≤ v then roundFin f false .rne false (2 * v.toNat + 1) 1 (-161)
        else roundFin f false .rne true (2 * (-v).toNat - 1) 1 (-161)

/-- The value of an E3M5 block scale (R55, R57): multiples of 2^-7. -/
def e3m5 (code : Nat) : FVal :=
  let c := if code = 0xFF then 0xFE else code
  let e := c / 32
  let fr := c % 32
  if e = 0 then .fin false fr (-7) else .fin false (32 + fr) ((e : Int) - 8)

/-- The value of an E8M0 scale (R55, R58). -/
def e8m0 (code : Nat) : FVal :=
  .fin false 1 (((if code = 0xFF then 0xFE else code) : Nat) - (127 : Int))

/-- The BF16 band scale of SXF4 with its substitution (R55). -/
def bandScale (code : Nat) : FVal :=
  if code / 128 % 256 = 255 then fdecode bf16 (code / 32768 * 32768 + 0x7F7F) else fdecode bf16 code

end Sys2Proof.Machine
end

