-- ==== Sys2Proof/Machine/Sparse.lean ====
section
/-! DEFINITION. Reading and writing sparse data (Sys2Proof/Word.lean). Writing the default removes the entry, so equal maps
are equal lists. -/

namespace Sys2Proof.Machine

/-- The value at key n: the first entry of that key, else the default. -/
def sget {α : Type} (d : α) : List (Nat × α) → Nat → α
  | [], _ => d
  | (k, v) :: m, n => if n = k then v else sget d m n

/-- Without key n. -/
def sdel {α : Type} : List (Nat × α) → Nat → List (Nat × α)
  | [], _ => []
  | (k, v) :: m, n => if n = k then sdel m n else (k, v) :: sdel m n

/-- With an entry for n, before the first greater key. -/
def sins {α : Type} : List (Nat × α) → Nat → α → List (Nat × α)
  | [], n, v => [(n, v)]
  | (k, w) :: m, n, v => if n < k then (n, v) :: (k, w) :: m else (k, w) :: sins m n v

/-- The map with value v at key n. -/
def sset {α : Type} [DecidableEq α] (d : α) (m : List (Nat × α)) (n : Nat) (v : α) : List (Nat × α) :=
  if v = d then sdel m n else sins (sdel m n) n v

/-- Canonical form above a bound: keys strictly rising and at least lo, no entry equal to the default. -/
def swfFrom {α : Type} [DecidableEq α] (d : α) : Nat → List (Nat × α) → Bool
  | _, [] => true
  | lo, (k, v) :: m => decide (lo ≤ k) && decide (v ≠ d) && swfFrom d (k + 1) m

/-- Canonical form. -/
def swf {α : Type} [DecidableEq α] (d : α) (m : List (Nat × α)) : Bool := swfFrom d 0 m

end Sys2Proof.Machine
end

