-- ==== Sys2Proof/Syntax.lean ====
section
/-! DEFINITION. The instruction set as data: one constructor per row of spec/opcode_table.json. A constructor of an
instruction word takes its guard (R87) and the fields of its word under the names of the table (R92, R96 to R102); a
constructor of an event row takes what the event acts on. -/

namespace Sys2Proof

/-- The rows of spec/opcode_table.json. -/
inductive Instr
  /-- ADD (R115) -/
  | add (g : Guard) (d a b : BitVec 5)
  /-- SUB (R115) -/
  | sub (g : Guard) (d a b : BitVec 5)
  /-- MUL (R115) -/
  | mul (g : Guard) (d a b : BitVec 5)
  /-- MULH (R115) -/
  | mulh (g : Guard) (d a b : BitVec 5)
  /-- MULHU (R115) -/
  | mulhu (g : Guard) (d a b : BitVec 5)
  /-- DIV (R116) -/
  | div (g : Guard) (d a b : BitVec 5)
  /-- DIVU (R116) -/
  | divu (g : Guard) (d a b : BitVec 5)
  /-- REM (R116) -/
  | rem (g : Guard) (d a b : BitVec 5)
  /-- REMU (R116) -/
  | remu (g : Guard) (d a b : BitVec 5)
  /-- AND (R117) -/
  | and (g : Guard) (d a b : BitVec 5)
  /-- OR (R117) -/
  | or (g : Guard) (d a b : BitVec 5)
  /-- XOR (R117) -/
  | xor (g : Guard) (d a b : BitVec 5)
  /-- ANDN (R117) -/
  | andn (g : Guard) (d a b : BitVec 5)
  /-- SHL (R118) -/
  | shl (g : Guard) (d a b : BitVec 5)
  /-- SHR (R118) -/
  | shr (g : Guard) (d a b : BitVec 5)
  /-- SAR (R118) -/
  | sar (g : Guard) (d a b : BitVec 5)
  /-- MIN (R115) -/
  | min (g : Guard) (d a b : BitVec 5)
  /-- MAX (R115) -/
  | max (g : Guard) (d a b : BitVec 5)
  /-- MINU (R115) -/
  | minu (g : Guard) (d a b : BitVec 5)
  /-- MAXU (R115) -/
  | maxu (g : Guard) (d a b : BitVec 5)
  /-- CLZ (R122) -/
  | clz (g : Guard) (d a : BitVec 5)
  /-- CTZ (R122) -/
  | ctz (g : Guard) (d a : BitVec 5)
  /-- POPC (R122) -/
  | popc (g : Guard) (d a : BitVec 5)
  /-- BREV (R122) -/
  | brev (g : Guard) (d a : BitVec 5)
  /-- SEXT (R123) -/
  | sext (g : Guard) (d a : BitVec 5) (w : BitVec 2)
  /-- ZEXT (R123) -/
  | zext (g : Guard) (d a : BitVec 5) (w : BitVec 2)
  /-- ADDI (R119) -/
  | addi (g : Guard) (d a : BitVec 5) (i : BitVec 11)
  /-- ANDI (R119) -/
  | andi (g : Guard) (d a : BitVec 5) (i : BitVec 11)
  /-- ORI (R119) -/
  | ori (g : Guard) (d a : BitVec 5) (i : BitVec 11)
  /-- XORI (R119) -/
  | xori (g : Guard) (d a : BitVec 5) (i : BitVec 11)
  /-- SHLI (R119) -/
  | shli (g : Guard) (d a : BitVec 5) (n : BitVec 7)
  /-- SHRI (R119) -/
  | shri (g : Guard) (d a : BitVec 5) (n : BitVec 7)
  /-- SARI (R119) -/
  | sari (g : Guard) (d a : BitVec 5) (n : BitVec 7)
  /-- LIT (R120) -/
  | lit (g : Guard) (d : BitVec 5) (lit : BitVec 32)
  /-- LITH (R121) -/
  | lith (g : Guard) (d : BitVec 5) (q : BitVec 2) (lit : BitVec 32)
  /-- CMP (R124) -/
  | cmp (g : Guard) (p : BitVec 3) (a b : BitVec 5) (c : BitVec 3)
  /-- CMPI_EQ (R124) -/
  | cmpiEq (g : Guard) (p : BitVec 3) (a : BitVec 5) (i : BitVec 11)
  /-- CMPI_NE (R124) -/
  | cmpiNe (g : Guard) (p : BitVec 3) (a : BitVec 5) (i : BitVec 11)
  /-- CMPI_LT (R124) -/
  | cmpiLt (g : Guard) (p : BitVec 3) (a : BitVec 5) (i : BitVec 11)
  /-- CMPI_LE (R124) -/
  | cmpiLe (g : Guard) (p : BitVec 3) (a : BitVec 5) (i : BitVec 11)
  /-- CMPI_LTU (R124) -/
  | cmpiLtu (g : Guard) (p : BitVec 3) (a : BitVec 5) (i : BitVec 11)
  /-- CMPI_LEU (R124) -/
  | cmpiLeu (g : Guard) (p : BitVec 3) (a : BitVec 5) (i : BitVec 11)
  /-- PAND (R125) -/
  | pand (g : Guard) (p q r : BitVec 3)
  /-- POR (R125) -/
  | por (g : Guard) (p q r : BitVec 3)
  /-- PXOR (R125) -/
  | pxor (g : Guard) (p q r : BitVec 3)
  /-- PNOT (R125) -/
  | pnot (g : Guard) (p q : BitVec 3)
  /-- PSET (R125) -/
  | pset (g : Guard) (p : BitVec 3) (b : BitVec 1)
  /-- MOV (R126) -/
  | mov (g : Guard) (d a : BitVec 5)
  /-- SEL (R126) -/
  | sel (g : Guard) (d a b : BitVec 5) (c : BitVec 3)
  /-- CSETB (R128) -/
  | csetb (g : Guard) (d a b : BitVec 5)
  /-- CRESTR (R129) -/
  | crestr (g : Guard) (d a b : BitVec 5)
  /-- CADD (R130) -/
  | cadd (g : Guard) (d a b : BitVec 5)
  /-- CGET (R131) -/
  | cget (g : Guard) (d a f : BitVec 5)
  /-- CCLR (R132) -/
  | cclr (g : Guard) (d a : BitVec 5)
  /-- CSEAL (R133) -/
  | cseal (g : Guard) (d a : BitVec 5) (k : BitVec 2)
  /-- CTEST (R134) -/
  | ctest (g : Guard) (p : BitVec 3) (a b : BitVec 5)
  /-- LD (R154) -/
  | ld (g : Guard) (d a : BitVec 5) (o : BitVec 8) (z : BitVec 3)
  /-- ST (R155) -/
  | st (g : Guard) (d a : BitVec 5) (o : BitVec 8) (z : BitVec 3)
  /-- LDC (R156) -/
  | ldc (g : Guard) (d a : BitVec 5) (i : BitVec 11)
  /-- STC (R156) -/
  | stc (g : Guard) (d a : BitVec 5) (i : BitVec 11)
  /-- LDA (R157) -/
  | lda (g : Guard) (d a : BitVec 5) (o : BitVec 8) (z : BitVec 3)
  /-- STL (R157) -/
  | stl (g : Guard) (d a : BitVec 5) (o : BitVec 8) (z : BitVec 3)
  /-- PF (R160) -/
  | pf (g : Guard) (h : BitVec 2) (a : BitVec 5) (i : BitVec 11)
  /-- FENCE (R158) -/
  | fence (g : Guard) (s : BitVec 5)
  /-- FENCE_LB (R159) -/
  | fenceLb (g : Guard)
  /-- AMO (R161) -/
  | amo (g : Guard) (d a b : BitVec 5) (w : BitVec 2) (o : BitVec 4)
  /-- CAS (R164) -/
  | cas (g : Guard) (d a b : BitVec 5) (w : BitVec 2)
  /-- STM (R165) -/
  | stm (g : Guard) (d a b : BitVec 5) (z : BitVec 3)
  /-- STRED (R165) -/
  | stred (g : Guard) (d a b : BitVec 5) (o z : BitVec 3)
  /-- BAR_ARR (R171) -/
  | barArr (g : Guard) (n : BitVec 4)
  /-- BAR_WAIT (R171) -/
  | barWait (g : Guard) (n : BitVec 4)
  /-- BAR_SYNC (R171) -/
  | barSync (g : Guard) (n : BitVec 4)
  /-- CNT_SET (R172) -/
  | cntSet (g : Guard) (a : BitVec 5) (n : BitVec 4)
  /-- CNT_ADD (R172) -/
  | cntAdd (g : Guard) (a : BitVec 5) (n : BitVec 4)
  /-- CNT_WAIT (R172) -/
  | cntWait (g : Guard) (a : BitVec 5) (n : BitVec 4)
  /-- BR (R135) -/
  | br (g : Guard) (x : BitVec 21)
  /-- CALL (R136) -/
  | call (g : Guard) (x : BitVec 21)
  /-- JR (R137) -/
  | jr (g : Guard) (d a : BitVec 5)
  /-- END (R143) -/
  | endTask (g : Guard)
  /-- YIELD (R144) -/
  | yield (g : Guard)
  /-- NOP (R142) -/
  | nop (g : Guard)
  /-- LOOP (R138) -/
  | loop (g : Guard) (a : BitVec 5) (n : BitVec 1) (dist : BitVec 20)
  /-- LOOPI (R138) -/
  | loopi (g : Guard) (d a : BitVec 5) (step : BitVec 11) (n : BitVec 1) (dist : BitVec 20)
  /-- SAFEPT (R145) -/
  | safept (g : Guard) (vmap : BitVec 16) (amap : BitVec 4) (gmap : BitVec 32)
  /-- VADD (R184) -/
  | vadd (g : Guard) (d a b : BitVec 4) (m : BitVec 2) (t : BitVec 3)
  /-- VSUB (R184) -/
  | vsub (g : Guard) (d a b : BitVec 4) (m : BitVec 2) (t : BitVec 3)
  /-- VMUL (R184) -/
  | vmul (g : Guard) (d a b : BitVec 4) (m : BitVec 2) (t : BitVec 3)
  /-- VFMA (R184) -/
  | vfma (g : Guard) (d a b : BitVec 4) (m : BitVec 2) (t : BitVec 3)
  /-- VMAX (R185) -/
  | vmax (g : Guard) (d a b : BitVec 4) (m : BitVec 2) (t : BitVec 3)
  /-- VMIN (R185) -/
  | vmin (g : Guard) (d a b : BitVec 4) (m : BitVec 2) (t : BitVec 3)
  /-- VABS (R184) -/
  | vabs (g : Guard) (d a : BitVec 4) (m : BitVec 2) (t : BitVec 3)
  /-- VNEG (R184) -/
  | vneg (g : Guard) (d a : BitVec 4) (m : BitVec 2) (t : BitVec 3)
  /-- VEXP2 (R186) -/
  | vexp2 (g : Guard) (d a : BitVec 4) (m : BitVec 2) (t : BitVec 3)
  /-- VLOG2 (R186) -/
  | vlog2 (g : Guard) (d a : BitVec 4) (m : BitVec 2) (t : BitVec 3)
  /-- VRCP (R186) -/
  | vrcp (g : Guard) (d a : BitVec 4) (m : BitVec 2) (t : BitVec 3)
  /-- VRSQ (R186) -/
  | vrsq (g : Guard) (d a : BitVec 4) (m : BitVec 2) (t : BitVec 3)
  /-- VCVT (R187) -/
  | vcvt (g : Guard) (d a : BitVec 4) (s : BitVec 3) (m : BitVec 2) (t : BitVec 3)
  /-- VSEL (R188) -/
  | vsel (g : Guard) (d a b : BitVec 4) (m : BitVec 2) (t : BitVec 3)
  /-- VSHF (R188) -/
  | vshf (g : Guard) (d a b : BitVec 4) (m : BitVec 2) (t : BitVec 3)
  /-- VIOTA (R188) -/
  | viota (g : Guard) (d : BitVec 4) (m : BitVec 2) (t : BitVec 3)
  /-- MAND (R188) -/
  | mand (g : Guard) (d a b : BitVec 2)
  /-- MOR (R188) -/
  | mor (g : Guard) (d a b : BitVec 2)
  /-- MNOT (R188) -/
  | mnot (g : Guard) (d a : BitVec 2)
  /-- VLD (R193) -/
  | vld (g : Guard) (d : BitVec 4) (a x : BitVec 5) (m : BitVec 2) (f : BitVec 4)
  /-- VST (R193) -/
  | vst (g : Guard) (d : BitVec 4) (a x : BitVec 5) (m : BitVec 2) (f : BitVec 4) (s : BitVec 1)
  /-- VST_SEED (R197) -/
  | vstSeed (g : Guard) (d : BitVec 4) (a x : BitVec 5) (m : BitVec 2) (f : BitVec 4) (s : BitVec 1) (seed : BitVec 16)
  /-- VLDS (R193) -/
  | vlds (g : Guard) (d : BitVec 4) (a x : BitVec 5) (m : BitVec 2) (f : BitVec 4)
  /-- VGATH (R193) -/
  | vgath (g : Guard) (d : BitVec 4) (a : BitVec 5) (v : BitVec 4) (m : BitVec 2) (f : BitVec 4)
  /-- VSCAT (R193) -/
  | vscat (g : Guard) (d : BitVec 4) (a : BitVec 5) (v : BitVec 4) (m : BitVec 2) (f : BitVec 4) (s : BitVec 1)
  /-- VSCAT_SEED (R197) -/
  | vscatSeed (g : Guard) (d : BitVec 4) (a : BitVec 5) (v : BitVec 4) (m : BitVec 2) (f : BitVec 4) (s : BitVec 1) (seed : BitVec 16)
  /-- VBCST (R190) -/
  | vbcst (g : Guard) (d a : BitVec 5) (m : BitVec 2) (t : BitVec 3)
  /-- VINS (R190) -/
  | vins (g : Guard) (d a b : BitVec 5) (t : BitVec 3)
  /-- VEXT (R190) -/
  | vext (g : Guard) (d a b : BitVec 5) (t : BitVec 3)
  /-- VREDS (R191) -/
  | vreds (g : Guard) (d a : BitVec 5) (m : BitVec 2) (t : BitVec 3)
  /-- VREDM (R191) -/
  | vredm (g : Guard) (d a : BitVec 5) (m : BitVec 2) (t : BitVec 3)
  /-- VCMP (R189) -/
  | vcmp (g : Guard) (d : BitVec 2) (a b : BitVec 4) (m : BitVec 2) (t : BitVec 3) (c : BitVec 4)
  /-- VECTOR_LOAD_UE (R177) -/
  | vectorLoadUe (core : Nat)
  /-- MX_ZERO (R212) -/
  | mxZero (g : Guard) (c : BitVec 2)
  /-- MX_MMA (R207) -/
  | mxMma (g : Guard) (c : BitVec 2) (q : BitVec 1) (a b d : BitVec 5)
  /-- MX_RAG (R209) -/
  | mxRag (g : Guard) (c : BitVec 2) (q : BitVec 1) (a b d : BitVec 5)
  /-- MX_LDA (R214) -/
  | mxLda (g : Guard) (c : BitVec 2) (a d : BitVec 5)
  /-- MX_STA (R215) -/
  | mxSta (g : Guard) (c : BitVec 2) (a d : BitVec 5)
  /-- MX_STA_SEED (R216) -/
  | mxStaSeed (g : Guard) (c : BitVec 2) (a d : BitVec 5) (seed : BitVec 16)
  /-- MX_WAIT (R218) -/
  | mxWait (g : Guard) (c : BitVec 2) (q : BitVec 1)
  /-- MX_STAT (R219) -/
  | mxStat (g : Guard) (q : BitVec 1) (a : BitVec 5)
  /-- MATRIX_OP_START (R199) -/
  | matrixOpStart (core : Nat)
  /-- MATRIX_TRIPLE_BOUNDARY (R200) -/
  | matrixTripleBoundary (core : Nat)
  /-- MATRIX_OP_RETIRE (R208) -/
  | matrixOpRetire (core : Nat)
  /-- MATRIX_OPERAND_UE (R202) -/
  | matrixOperandUe (core : Nat)
  /-- LA_CLR (R220) -/
  | laClr (g : Guard) (a : BitVec 5)
  /-- LA_ADD (R220) -/
  | laAdd (g : Guard) (f a b : BitVec 5)
  /-- LA_ADDV (R220) -/
  | laAddv (g : Guard) (f a : BitVec 5) (v : BitVec 4)
  /-- LA_MRG (R220) -/
  | laMrg (g : Guard) (a b : BitVec 5)
  /-- LA_RND (R220) -/
  | laRnd (g : Guard) (d a f : BitVec 5)
  /-- CH_NEW (R237) -/
  | chNew (g : Guard) (d a b : BitVec 5)
  /-- CH_CONN (R238) -/
  | chConn (g : Guard) (a b : BitVec 5)
  /-- CH_SEND (R240) -/
  | chSend (g : Guard) (a b : BitVec 5)
  /-- CH_RECV (R241) -/
  | chRecv (g : Guard) (d a : BitVec 5)
  /-- CH_OFFER (R242) -/
  | chOffer (g : Guard) (d a : BitVec 5)
  /-- CH_SELECT (R242) -/
  | chSelect (g : Guard) (a b : BitVec 5)
  /-- CH_DELEG (R246) -/
  | chDeleg (g : Guard) (a b : BitVec 5)
  /-- CH_ACCEPT (R247) -/
  | chAccept (g : Guard) (d a : BitVec 5)
  /-- CH_CLOSE (R255) -/
  | chClose (g : Guard) (a : BitVec 5)
  /-- CH_STAT (R252) -/
  | chStat (g : Guard) (d a : BitVec 5)
  /-- CH_SYNC (R253) -/
  | chSync (g : Guard) (a : BitVec 5)
  /-- CH_FREE (R256) -/
  | chFree (g : Guard) (a : BitVec 5)
  /-- SPAWN (R258) -/
  | spawn (g : Guard) (a b : BitVec 5)
  /-- BIND (R260) -/
  | bind (g : Guard) (d a b : BitVec 5)
  /-- UNBIND (R262) -/
  | unbind (g : Guard) (a : BitVec 5)
  /-- LAUNCH (R263) -/
  | launch (g : Guard) (d a : BitVec 5)
  /-- JOBQ (R264) -/
  | jobq (g : Guard) (d a : BitVec 5)
  /-- IP_GIVE (R265) -/
  | ipGive (g : Guard) (a b : BitVec 5)
  /-- IP_TAKE (R265) -/
  | ipTake (g : Guard) (d a : BitVec 5)
  /-- AM (R258) -/
  | am (g : Guard) (d a b : BitVec 5) (n : BitVec 3)
  /-- ENG_W (R279) -/
  | engW (g : Guard) (d e : BitVec 5) (i : BitVec 11)
  /-- ENG_R (R279) -/
  | engR (g : Guard) (d e : BitVec 5) (i : BitVec 11)
  /-- ENG_GO (R280) -/
  | engGo (g : Guard) (e : BitVec 5)
  /-- ENG_WAIT (R279) -/
  | engWait (g : Guard) (e : BitVec 5)
  /-- ENGINE_SWAP (R278) -/
  | engineSwap (e : EngId)
  /-- ENGINE_COMPLETION (R280) -/
  | engineCompletion (e : EngId)
  /-- ENGINE_FAULT (R282) -/
  | engineFault (e : EngId)
  /-- ENGINE_BUS_ERROR (R498) -/
  | engineBusError (e : EngId)
  /-- ENGINE_UE (R356) -/
  | engineUe (e : EngId)
  /-- EXCHANGE_JOIN (R412) -/
  | exchangeJoin (die : Nat) (arrived : List ExPeer)
  /-- EXCHANGE_NOTE (R284) -/
  | exchangeNote (die : Nat) (rank : Nat)
  /-- TRET (R274) -/
  | tret (g : Guard)
  /-- SRET (R274) -/
  | sret (g : Guard)
  /-- BRK (R274) -/
  | brk (g : Guard)
  /-- TLBI (R277) -/
  | tlbi (g : Guard) (a k : BitVec 5)
  /-- COMPOSE (R285) -/
  | compose (g : Guard) (p : BitVec 3) (a b : BitVec 5)
  /-- TOWER_FORM (R427) -/
  | towerForm (core : Nat)
  /-- COMPOSE_TIMEOUT (R285) -/
  | composeTimeout (core : Nat)
  /-- RELEASE (R286) -/
  | release (g : Guard)
  /-- GOV_PIN (R289) -/
  | govPin (g : Guard)
  /-- GOV_UNPIN (R289) -/
  | govUnpin (g : Guard)
  /-- TRAP (R274) -/
  | trap (g : Guard) (i : BitVec 11)
  /-- MFS (R275) -/
  | mfs (g : Guard) (d : BitVec 5) (s : BitVec 12)
  /-- MTS (R275) -/
  | mts (g : Guard) (a : BitVec 5) (s : BitVec 12)
  /-- TRC_MARK (R291) -/
  | trcMark (g : Guard) (a : BitVec 5) (i : BitVec 11)
  /-- ASYNC_TRAP_ENTRY (R270) -/
  | asyncTrapEntry (core : Nat)
  /-- HANDLER_BUDGET (R273) -/
  | handlerBudget (core : Nat)
  /-- POSTED_ATOMIC_UE (R153) -/
  | postedAtomicUe (core : Nat)
  /-- PAGE_FAULT_PARK (R346) -/
  | pageFaultPark (task : Nat)
  /-- FB_STAT_WRITE (R350) -/
  | fbStatWrite (cluster : Nat) (value : W64)
  /-- REPLAY_ALL (R352) -/
  | replayAll (cluster : Nat)
  /-- MIGRATION_SHIP (R319) -/
  | migrationShip (task : Nat)
  /-- MIGRATION_ARRIVAL (R319) -/
  | migrationArrival (k : Nat)
  /-- TASK_MESSAGE_ARRIVAL (R306) -/
  | taskMessageArrival (k : Nat)
  /-- TASK_ADMISSION (R306) -/
  | taskAdmission (core : Nat)
  /-- QUANTUM_EXPIRY (R309) -/
  | quantumExpiry (core : Nat)
  /-- GROUP_DELIVERY (R305) -/
  | groupDelivery (job : W32) (core : Nat)
  /-- LQ_TAIL_WRITE (R298) -/
  | lqTailWrite (value : W64)
  /-- JOB_CTL_NONE (R301) -/
  | jobCtlNone (job : W32)
  /-- JOB_PREEMPT (R313) -/
  | jobPreempt (job : W32)
  /-- JOB_RESUME (R317) -/
  | jobResume (job : W32)
  /-- JOB_KILL (R318) -/
  | jobKill (job : W32)
  /-- PREEMPT_ARRIVAL (R313) -/
  | preemptArrival (job : W32) (core : Nat)
  /-- PREEMPT_DEADLINE (R314) -/
  | preemptDeadline (task : Nat)
  /-- SEND_QUEUE_INJECT (R240) -/
  | sendQueueInject (core : Nat)
  /-- SLOT_RETURN_SEND (R244) -/
  | slotReturnSend (core : Nat) (ep : Nat)
  /-- CHANNEL_MESSAGE_ARRIVAL (R231) -/
  | channelMessageArrival (k : Nat)
  /-- CONNECT_ARRIVAL (R238) -/
  | connectArrival (k : Nat)
  /-- CONNECT_ANSWER (R238) -/
  | connectAnswer (k : Nat)
  /-- SLOT_RETURN (R399) -/
  | slotReturn (k : Nat)
  /-- RESYNC_WORD (R401) -/
  | resyncWord (k : Nat)
  /-- RESYNC_TIMEOUT (R401) -/
  | resyncTimeout (core : Nat) (ep : Nat)
  /-- CLOSE_MESSAGE_ARRIVAL (R255) -/
  | closeMessageArrival (k : Nat)
  /-- CLOSE_ACK_ARRIVAL (R222) -/
  | closeAckArrival (k : Nat)
  /-- FAILURE_NOTIFICATION (R235) -/
  | failureNotification (k : Nat)
  /-- MOVED_ARRIVAL (R251) -/
  | movedArrival (k : Nat)
  /-- MARK_ARRIVAL_OLD (R251) -/
  | markArrivalOld (k : Nat)
  /-- MARK_ARRIVAL_NEW (R251) -/
  | markArrivalNew (k : Nat)
  /-- REPLY_SINK_RELEASE (R390) -/
  | replySinkRelease (k : Nat)
  /-- POD_PORT_DISCARD (R418) -/
  | podPortDiscard (k : Nat)
  /-- POD_ERROR_REPLY (R257) -/
  | podErrorReply (k : Nat)
  /-- POD_ARRIVAL (R419) -/
  | podArrival (fibre : BitVec 4) (m : Msg)
  /-- LINK_REPLAY (R418) -/
  | linkReplay (fibre : BitVec 4)
  /-- LINK_DOWN (R418) -/
  | linkDown (fibre : BitVec 4)
  /-- ALOG_ENABLE (R450) -/
  | alogEnable (value : W64)
  /-- ALOG_REPLAY_START (R421) -/
  | alogReplayStart (value : W64)
  /-- CT_ENTRY_WRITE (R395) -/
  | ctEntryWrite (e : BitVec 9) (value : W64)
  /-- CIRCUIT_UP (R395) -/
  | circuitUp (e : BitVec 9)
  /-- TW_ADOPT (R402) -/
  | twAdopt (cluster : Nat) (value : W64)
  /-- TILE_PEER_REQUEST (R404) -/
  | tilePeerRequest (core : Nat) (ep : Nat)
  /-- TILE_PEER_SEND (R405) -/
  | tilePeerSend (core : Nat) (ep : Nat)
  /-- TILE_PEER_WRITE (R405) -/
  | tilePeerWrite (core : Nat) (ep : Nat)
  /-- RDMA_WRITE (R415) -/
  | rdmaWrite (r : RdmaReq)
  /-- RDMA_READ (R415) -/
  | rdmaRead (r : RdmaReq)
  /-- RDMA_UNSUPPORTED (R413) -/
  | rdmaUnsupported (r : RdmaReq)
  /-- PFC_PAUSE (R416) -/
  | pfcPause (port : Nat) (prio : BitVec 3) (quanta : W16)
  /-- QP_CONTEXT_WRITE (R417) -/
  | qpContextWrite (port : BitVec 2) (q : BitVec 9) (word : BitVec 3) (value : W64)
  /-- DBG_CMD_NONE (R443) -/
  | dbgCmdNone (gtid : BitVec 48)
  /-- DBG_STOP (R447) -/
  | dbgStop (gtid : BitVec 48)
  /-- DBG_RESUME (R447) -/
  | dbgResume (gtid : BitVec 48)
  /-- DBG_STEP (R447) -/
  | dbgStep (gtid : BitVec 48)
  /-- SLOG_ENABLE (R438) -/
  | slogEnable (core : Nat)
  /-- SLOG_DISABLE (R437) -/
  | slogDisable (core : Nat)
  /-- BOOT_PHASE_ADVANCE (R454) -/
  | bootPhaseAdvance (die : Nat)
  /-- RECOVERY_IMAGE (R459) -/
  | recoveryImage (image : List Byte)
  /-- ATTEST_IDENTITY_REQUEST (R461) -/
  | attestIdentityRequest (datagram : List Byte)
  /-- ATTEST_REPORT_REQUEST (R461) -/
  | attestReportRequest (datagrams : List (List Byte))
  /-- THERMAL_THROTTLE (R464) -/
  | thermalThrottle (die : Nat)
  /-- THERMAL_CLOCK_STOP (R464) -/
  | thermalClockStop (die : Nat)
  /-- CONTROL_REGISTER_WRITE (R8) -/
  | controlRegisterWrite (mgmt : Bool) (die : Nat) (off : Nat) (size : Nat) (value : W64)
  /-- ETHERNET_LINK_CHANGE (R416) -/
  | ethernetLinkChange (port : Nat) (up : Bool)
  /-- REPLAY_RERUN (R352) -/
  | replayRerun (cluster : Nat)
  /-- FREE_COUNT_REPORT (R305) -/
  | freeCountReport (die : Nat)
  /-- VECTOR_QUEUE_EXECUTE (R177) -/
  | vectorQueueExecute (core : Nat)
  /-- WRITE_ACKNOWLEDGEMENT (R163) -/
  | writeAcknowledgement (task : Nat)
  /-- PFC_PAUSE_EXPIRY (R416) -/
  | pfcPauseExpiry (port : Nat)
  /-- SPIRE_LAUNCH_REQUEST (R296) -/
  | spireLaunchRequest
  /-- JOB_DEAL_START (R301) -/
  | jobDealStart
  /-- HOST_LAUNCH_RECORD (R298) -/
  | hostLaunchRecord
  /-- REPLAY_REINJECT (R421) -/
  | replayReinject
  /-- RAMP_SLOT_BOUNDARY (R423) -/
  | rampSlotBoundary
  /-- POWER_ON_RESET (R454) -/
  | powerOnReset
  /-- HBM_TRAINING_DONE (R454) -/
  | hbmTrainingDone
  /-- FULL_SERVICE_START (R456) -/
  | fullServiceStart
  /-- THERMAL_RESTORE (R464) -/
  | thermalRestore
  /-- POWER_LOSS (R459) -/
  | powerLoss
  /-- PACKAGE_RESET (R454) -/
  | packageReset
  deriving DecidableEq, Repr

end Sys2Proof
end

