-- ==== Sys2Proof/Machine/State.lean ====
section
/-! DEFINITION. The whole state of the package as plain data, and its value right after reset. INVENTORY.md lists every
piece with the rule of spec/ that names it. Maps by number are sparse lists (Sys2Proof/Word.lean) whose unlisted keys read
as the default named beside them. -/

namespace Sys2Proof.Machine

/-- Scheduling state of a task (R308); `ended` is what an unlisted GTID reads as. QUEUED descriptors stand in the run
queues. -/
inductive TStatus
  | ended | ready | running | waitMsg | waitMem | suspended | stopped
  deriving DecidableEq, Repr

/-- What a WAIT_MSG task waits for. -/
inductive Wait
  | counter (slot : Nat)      -- BAR.WAIT, BAR.SYNC on a physical counter slot
  | count (slot : Nat) (v : W32)  -- CNT.WAIT for a count (R172)
  | arrival (slot : Nat)      -- BAR.WAIT, BAR.SYNC behind an arrival not yet performed (R171)
  | lock (mx : Bool)          -- a range lock (R174, R201); mx: of a matrix operation of the task itself (R180)
  | matrix (q tile : Nat)     -- MX.WAIT for a queue and a physical tile
  | mxq                       -- a full tile queue (R198)
  | vecq                      -- a full vector queue, or MFS of FFLAGS (R177, R178)
  | engine (e : Bool)         -- ENG.WAIT, an owned or ready shadow set (R278)
  | chan (ep : Nat)           -- a message, a permit, an answer or a status of an endpoint slot
  | sink                      -- a reply-sink entry (R390)
  | spire                     -- the answer to LAUNCH (R263)
  | pool                      -- a full iteration pool (R265)
  | compose                   -- draining tower members (R285)
  | acks                      -- a shipment that drains (R319)
  | saving                    -- its own full save, behind what must end first (R293, R314)
  deriving DecidableEq, Repr

/-- The trap registers of task level (R36, R38). -/
structure TrapRegs where
  inTrap : Bool
  tvec : W64
  tepc : W64
  tcause : W64
  tinfo : W64
  deriving DecidableEq, Repr

/-- The supervisor's trap registers (R37, R38, R276). -/
structure SupRegs where
  priv : Bool
  prevPriv : Bool
  inStrap : Bool
  sepc : W64
  spccm : W64
  scause : W64
  sinfo : W64
  deriving DecidableEq, Repr

/-- A hardware loop (R26, R139): its counter, its bounds, and a LOOPI's index register and step. -/
structure LoopRegs where
  lc : W32
  lb : W64
  le : W64
  isIdx : Bool
  idx : BitVec 5
  step : BitVec 11
  deriving DecidableEq, Repr

/-- The event counters that are task registers (R327, R359, R439). -/
structure TaskCounts where
  blocks : BitVec 48
  squash : BitVec 48
  fetchb : BitVec 48
  hops : BitVec 48
  dmiss : BitVec 48
  walks : BitVec 48
  parks : BitVec 48
  parkcc : BitVec 48
  lod : BitVec 48
  mxw : BitVec 48
  hint : BitVec 48
  deriving DecidableEq, Repr

/-- A trap held until it can be taken (R270, R272). -/
structure PendTrap where
  cause : Byte
  info : W64
  deriving DecidableEq, Repr

/-- A walk that ended in a fault (R342, R346): page, kind, level minus 1, the access kinds of FB_ENTRY.acc. -/
structure WalkFault where
  asid : W16
  vpn : BitVec 36
  kind : BitVec 2
  level : BitVec 2
  acc : BitVec 4
  deriving DecidableEq, Repr

/-- A write, atomic or send of a task that is not yet acknowledged (R157, R158): the core it was issued on and the width of
the scope its owner lies in (1 core to 4 package, 5 pod). -/
structure Pending where
  scope : Nat
  deriving DecidableEq, Repr

/-- A step that a task in a tower or under debug still owes: the dead registers of the last SAFEPT restore (R449, code 2). -/
structure DeadRegs where
  g : W32
  v : W16
  a : BitVec 4
  deriving DecidableEq, Repr

/-- A registered range (R174, R201): of an engine or matrix operation `op`; a read range lets loads proceed. -/
structure Lock where
  op : Nat
  task : BitVec 48
  read : Bool
  matrix : Bool
  spad : Bool
  asid : W16
  lo : Nat
  hi : Nat
  deriving DecidableEq, Repr

inductive MxKind
  | zero | mma | rag | lda | sta
  deriving DecidableEq, Repr

/-- A queued matrix operation with its copied operands and its progress (R198 to R217). -/
structure MxOp where
  id : Nat
  task : BitVec 48
  kind : MxKind
  tile : Nat
  /-- windows and scratchpad offsets of the operands -/
  winA : Nat
  offA : Nat
  winB : Nat
  offB : Nat
  desc : W128
  /-- physical counter slot of MX.RAG -/
  slot : Nat
  seed : Option W16
  started : Bool
  /-- granule triples, or granules, performed -/
  prog : Nat
  finished : Bool
  hw : Nat
  sealed_ : Bool
  gd : Nat
  /-- row extents of eligible row granules that are not full (R209) -/
  part : List (Nat × Nat)
  flags : BitVec 5
  /-- the output granule being formed, as it stood before (R202) -/
  before : Sparse W32
  deriving DecidableEq, Repr

/-- A shadow set (R278) with the status its core reads (R281). -/
structure Shadow where
  regs : Sparse GVal
  owner : Option (BitVec 48)
  ready : Bool
  /-- the range-lock number of the ready set, and the level its task had at ENG.GO (R354) -/
  op : Nat
  sup : Bool
  /-- by task: err of its last completed operation -/
  errs : Sparse (BitVec 4)
  done : W32
  faddr : W64
  dropped : W32
  deriving DecidableEq, Repr

def Shadow.zero : Shadow := ⟨[], .none, false, 0, false, [], 0, 0, 0⟩

/-- A task (R11, R50, R308). -/
structure Task where
  status : TStatus
  wait : Option Wait
  gtid : BitVec 48
  job : W32
  asid : W16
  khdr : W64
  /-- the package core index of the core it stands on -/
  core : Nat
  high : Bool
  pcc : GVal
  g : Sparse GVal
  p : Byte
  v : Sparse W512
  m : Sparse W64
  l0 : LoopRegs
  l1 : LoopRegs
  /-- physical tile of each declared accumulator (R27) -/
  tiles : List Nat
  tr : TrapRegs
  sup : SupRegs
  sat : Bool
  fflags : BitVec 5
  pinned : Bool
  launchPinned : Bool
  held : List PendTrap
  rvAck : Bool
  spadBase : Nat
  spadSize : Nat
  arrived : W16
  rec_ : W16
  /-- a BAR.WAIT or BAR.SYNC is in its wait; each BAR.SYNC whose arrival has counted (R173): its address and the trap level it
  stands at -/
  barWait : Bool
  /-- a completion released its BAR.WAIT or BAR.SYNC (R170) -/
  released : Bool
  barSync : List (W64 × Nat)
  counts : TaskCounts
  /-- timebase when it last received the issue slot, when its first instruction issued, when it parked -/
  since : W64
  firstIssue : Option W64
  budgetDone : Bool
  parkedAt : W64
  unacked : List Pending
  fault : Option WalkFault
  /-- the fault it is parked on (R346) -/
  parkedPage : Option WalkFault
  /-- a home-execute access chose this die and home cluster (R319) -/
  ship : Option (Nat × Nat)
  /-- deadline of a pending pre-emption (R313, R314) -/
  preempt : Option W64
  tower : List Nat
  /-- instructions of the current tower block, and its address (R322) -/
  blockLen : Nat
  blockAt : W64
  /-- a COMPOSE that waits: the end of its timeout, and its members (R285) -/
  composeTill : Option W64
  composeSet : List Nat
  /-- when its last member drained (R427) -/
  drainedAt : Option W64
  retired0 : W32
  retired1 : W32
  answer : Option W64
  stopRec : Option Nat
  /-- the matrix operations and shadow sets that the latest stop record holds, with the ranges they had registered (R447; log entry
  17) -/
  stopWork : List (Nat × MxOp)
  stopSets : List (Nat × Shadow)
  stopLocks : List Lock
  /-- stopped for the debugger (R443, R445) -/
  forDebug : Bool
  /-- stopped in place by a pre-emption (R313, R316) -/
  inPlace : Bool
  stepping : Bool
  /-- a stop command that waits for the end of a shipment (R447) -/
  stopDue : Bool
  dead : DeadRegs
  /-- 64-byte lines of its own scratchpad that it wrote, with the path, since its last FENCE.LB (R449, code 5) -/
  lbLines : List (Nat × Bool)
  /-- the binding that created it, the core and the reply that its creating AM reserved (R259, R260) -/
  binder : Option Nat
  replyTo : Option Place
  deriving DecidableEq, Repr

def LoopRegs.zero : LoopRegs := ⟨0, 0, 0, false, 0, 0⟩
def TaskCounts.zero : TaskCounts := ⟨0, 0, 0, 0, 0, 0, 0, 0, 0, 0, 0⟩

/-- The default of the task map: no task. Its registers are those of R50. -/
def Task.none : Task :=
  { status := .ended, wait := .none, gtid := 0, job := 0, asid := 0, khdr := 0, core := 0, high := false,
    pcc := .zero, g := [], p := 1, v := [], m := [(0, BitVec.allOnes 64)], l0 := .zero, l1 := .zero, tiles := [],
    tr := ⟨false, 0, 0, 0, 0⟩, sup := ⟨false, false, false, 0, 0, 0, 0⟩, sat := false, fflags := 0, pinned := false,
    launchPinned := false, held := [], rvAck := false, spadBase := 0, spadSize := 0, arrived := 0, rec_ := 0,
    barWait := false, released := false, barSync := [], counts := .zero, since := 0, firstIssue := .none, budgetDone := false,
    parkedAt := 0, unacked := [], fault := .none, parkedPage := .none, ship := .none, preempt := .none, tower := [], blockLen := 0,
    blockAt := 0, composeTill := .none, composeSet := [], drainedAt := .none, retired0 := 0, retired1 := 0, answer := .none, stopRec := .none, stopWork := [], stopSets := [], stopLocks := [], forDebug := false, inPlace := false, stepping := false, stopDue := false,
    dead := ⟨0, 0, 0⟩, lbLines := [], binder := .none, replyTo := .none }

/-- A trigger binding (R260). -/
structure Trigger where
  entry : GVal
  sel : GVal
  f : Nat
  armed : Bool
  job : W32
  asid : W16
  by_ : BitVec 48
  /-- tells a binding from one that replaces it -/
  id : Nat
  deriving DecidableEq, Repr

/-- A counter slot (R28) with its binding (R260). -/
structure Counter where
  count : W32
  target : W32
  phase : Bool
  fire : W16
  trig : Option Trigger
  deriving DecidableEq, Repr

def Counter.zero : Counter := ⟨0, 0, false, 0, .none⟩

/-- Status of an endpoint slot (R222). -/
inductive EpStatus
  | free | bound | connected | resync | closing | closed
  deriving DecidableEq, Repr

/-- A buffered message: its body, the buffer slot it occupies, and whether it waits behind the mark of a delegation (R251). -/
structure BufMsg where
  body : ChBody
  slot : Nat
  held : Bool
  deriving DecidableEq, Repr

/-- The peer's resync word as the balance reads it (R400, R401). -/
structure PeerWord where
  sent : W32
  consumed : W32
  expect : BitVec 4
  deriving DecidableEq, Repr

/-- An endpoint slot (R30, R222 to R256, R399 to R401). -/
structure Endp where
  status : EpStatus
  gen : W32
  imageAt : W64
  image : Image
  state : BitVec 5
  loop0 : BitVec 17
  loop1 : BitVec 17
  bufBase : BitVec 19
  bufSize : BitVec 20
  sent : W32
  returned : W32
  consumed : W32
  peer : Option EpLoc
  /-- generations of the slots that the peer moved away from, whose last returns may still come (R251) -/
  former : List W32
  peerL : Nat
  owner : Option (BitVec 48)
  buf : List BufMsg
  /-- the frame in hand: its buffer slot and byte range (R244) -/
  inHand : Option (Nat × Nat × Nat)
  /-- frames whose slot return waits to be sent -/
  retDue : List (Nat × Nat × Nat)
  /-- the task that delegated it, whose accesses may still read a returned frame (R244) -/
  reader : Option (BitVec 48)
  lastType : BitVec 6
  connRefused : Bool
  /-- the slot that its CH.CONN names, while it waits for the answer (R238) -/
  connTo : Option EpLoc
  /-- the task that waits for that answer -/
  connBy : Option (BitVec 48)
  answer : Option ConnAns
  closeWord : W64
  closeGtid : BitVec 48
  /-- it closed the channel itself, in order (R255) -/
  ownClose : Bool
  /-- CLOSING for forwarding (R251): the slot it forwards to once known, what waits for that, and what waits for an own mark -/
  forwarding : Bool
  fwdTo : Option EpLoc
  fwdQueue : List Body
  fwdHeld : List Body
  /-- the slot whose forwarded messages come first, until the mark (R251) -/
  oldSlot : Option EpLoc
  trig : Option Trigger
  link : Option Nat
  rsSeq : BitVec 2
  rsFails : Nat
  rsSince : W64
  rsPeer : Option PeerWord
  /-- a CH.SYNC has begun its exchange (R253) -/
  syncing : Bool
  deriving DecidableEq, Repr

/-- A FREE slot (R49). -/
def Endp.zero : Endp :=
  { status := .free, gen := 0, imageAt := 0, image := ⟨0, []⟩, state := 0, loop0 := 0, loop1 := 0, bufBase := 0,
    bufSize := 0, sent := 0, returned := 0, consumed := 0, peer := .none, former := [], peerL := 0, owner := .none, buf := [],
    inHand := .none, retDue := [], reader := .none, lastType := 0, connRefused := false, connTo := .none, connBy := .none, answer := .none,
    closeWord := 0, closeGtid := 0, ownClose := false, forwarding := false, fwdTo := .none, fwdQueue := [],
    fwdHeld := [], oldSlot := .none, trig := .none,
    link := .none, rsSeq := 0, rsFails := 0, rsSince := 0, rsPeer := .none, syncing := false }

/-- What later instructions may wait for in a queued vector instruction (R178): the g and v registers it writes, the 64-byte
lines of memory it touches. -/
structure VecDeps where
  g : W32
  v : W16
  lines : List Nat
  deriving DecidableEq, Repr

def VecDeps.none : VecDeps := ⟨0, 0, []⟩

/-- An instruction of the vector queue whose effect at dispatch is done (R178): the flags it sets when it executes, the
address of an uncorrectable error it met (R177), and what waits for it. -/
structure VecEntry where
  task : BitVec 48
  flags : BitVec 5
  ue : Option W64
  deps : VecDeps
  deriving DecidableEq, Repr

/-- An entry of the send queue (R236): the message and, for a payload read at injection, its source (R240). -/
structure SendEntry where
  msg : Msg
  task : BitVec 48
  op : Nat
  /-- physical addresses and lengths of its pieces -/
  src : List (Nat × Nat)
  /-- no message but an arrival of the task at a barrier behind its earlier sends (R171): slot number and physical slot -/
  arrive : Option (Nat × Nat)
  deriving DecidableEq, Repr

/-- A write that a routing operation has still to perform: its register, offset and bytes; `add` adds 32-bit words to those in
memory (R283, R410). -/
structure EngWrite where
  reg : Nat
  off : Nat
  bytes : List Byte
  add : Bool
  deriving DecidableEq, Repr

/-- The active operation of an engine (R280, R282). -/
structure EngOp where
  core : Nat
  task : BitVec 48
  asid : W16
  sup : Bool
  regs : Sparse GVal
  op : Nat
  faulted : Bool
  prog : W64
  /-- routing: the writes still to perform, once the entries are sorted (R282), and the entries dropped -/
  todo : Option (List EngWrite)
  drop : Nat
  /-- exchange: bytes already moved, by receiving rank (R282) -/
  moved : List (Nat × Nat)
  /-- the error it completes with (R281) -/
  err : BitVec 4
  /-- exchange: the tables as read and checked (R499): dies or chips by rank, counts and offsets; the bytes have moved (R412) -/
  checked : Bool
  peer : List Nat
  send : List (Nat × Nat)
  recv : List (Nat × Nat)
  joined : Bool
  /-- ranks whose bytes are performed and not yet noted, with the amounts to note (R284) -/
  notes : List (Nat × Nat)
  /-- the job was killed: the result is discarded (R318) -/
  dropped : Bool
  deriving DecidableEq, Repr

/-- A translation entry (R343): address space, virtual address, level of the leaf, leaf bits. -/
structure TlbEntry where
  asid : W16
  va : W64
  level : Nat
  leaf : W64
  deriving DecidableEq, Repr

/-- A task that is saved or in transit, with what a full save carries (R314): tiles, scratchpad, queued matrix work, shadow
sets, their locks. `rec_` is the offset of its context record in the context area. -/
structure Saved where
  task : Task
  kind : Nat
  rec_ : Option Nat
  tiles : List (Sparse W32)
  spad : List (Nat × Byte)
  spadTags : List (Nat × Tag)
  mx : List (Nat × MxOp)
  sets : List (Nat × Shadow)
  /-- by engine: err of the task's last completed operation (R281) -/
  errs : List (Nat × BitVec 4)
  locks : List Lock
  deriving DecidableEq, Repr

/-- What stands in a run queue: a descriptor, or a task that resumes or was shipped (R306, R317, R319). -/
inductive RunEntry
  | desc (d : TaskDesc)
  | saved (t : Saved)
  deriving DecidableEq, Repr

/-- The tasks of one job on a core, with the counter slots reserved for them (R28, R169). -/
structure CoreGroup where
  job : W32
  slots : List Nat
  deriving DecidableEq, Repr

/-- A ring in memory with its registers: the state log and the trace stream (R438, R442). -/
structure Ring where
  ctl : W64
  base : W64
  len : W64
  wr : W64
  t0 : W64
  lost : BitVec 48
  deriving DecidableEq, Repr

def Ring.zero : Ring := ⟨0, 0, 0, 0, 0, 0⟩

inductive GovKind
  | unheld | active | ballast
  deriving DecidableEq, Repr

/-- The governor's state of one core (R422 to R433); energy is counted in eighths of a picojoule: on the initiator's core of a tower
`energy` is the tower's, and `own` what the core had counted before it (R422). `start` is the slot of a ticket not yet used, `held`
the queued starts that wait for it, by job, with the cycle since each does (R426), `slotBallast` the ballast cycles of the current
slot. -/
structure CoreGov where
  kind : GovKind
  q : Nat
  energy : Nat
  own : Nat
  est : Nat
  start : Option Nat
  held : List (W32 × W64)
  ballastAt : W64
  slotBallast : Nat
  ballast : BitVec 48
  rampw : BitVec 48
  tickets : BitVec 48
  deriving DecidableEq, Repr

/-- A store of a task to its own core's scratchpad that its loads through the other loop-back path may still miss (R367): the
path (true: the global address), its bytes by scratchpad offset and its tags by granule, each as it was before and after. -/
structure LoopStore where
  task : BitVec 48
  glob : Bool
  bytes : List (Nat × Byte × Byte)
  tags : List (Nat × Tag × Tag)
  deriving DecidableEq, Repr

/-- A core (R12, R35, R49). -/
structure Core where
  serial : BitVec 28
  cycle0 : W64
  stvec : W64
  sscratch : W64
  debugEn : Bool
  lasid : W16
  runHigh : List RunEntry
  runBase : List RunEntry
  slotHigh : Option (BitVec 48)
  slotBase : Option (BitVec 48)
  /-- the high-level task that suspended the base-level holder (R310) -/
  suspBy : Option (BitVec 48)
  readyHigh : List (BitVec 48)
  readyBase : List (BitVec 48)
  groups : List CoreGroup
  counters : Sparse Counter
  eps : Sparse Endp
  locks : List Lock
  sendq : List SendEntry
  sink : List Place
  vecq : List VecEntry
  mx0 : List MxOp
  mx1 : List MxOp
  tiles : Sparse W32
  sh0 : Shadow
  sh1 : Shadow
  itlb : List TlbEntry
  dtlb : List TlbEntry
  slog : Ring
  logState : Nat
  logTask : BitVec 48
  logAt : W64
  trc : Ring
  gov : CoreGov
  /-- posted atomics that met an uncorrectable error (R153) -/
  postedUe : List (BitVec 48 × W64)
  /-- stores that a loop-back path may still miss, each behind those of the other path that it overtook (R367) -/
  loop : List LoopStore
  /-- admission is stopped by a forming tower, or the core is a member of the tower of this task (R285) -/
  towerOf : Option (BitVec 48)
  nextOp : Nat
  deriving DecidableEq, Repr

/-- A core after core reset (R49). -/
def Core.zero : Core :=
  { serial := 0, cycle0 := 0, stvec := 0, sscratch := 0, debugEn := false, lasid := 0, runHigh := [], runBase := [],
    slotHigh := .none, slotBase := .none, suspBy := .none, readyHigh := [], readyBase := [], groups := [], counters := [], eps := [],
    locks := [], sendq := [], sink := [], vecq := [], mx0 := [], mx1 := [], tiles := [], sh0 := .zero, sh1 := .zero,
    itlb := [], dtlb := [], slog := .zero, logState := 3, logTask := 0, logAt := 0, trc := .zero,
    gov := ⟨.unheld, 0, 0, 0, 0, .none, [], 0, 0, 0, 0, 0⟩, postedUe := [], loop := [], towerOf := .none, nextOp := 0 }

/-- A pending entry of a cluster's fault handling (R346 to R351). `posted` is its place in the fault buffer. -/
structure PendEntry where
  asid : W16
  vpn : BitVec 36
  kind : BitVec 2
  level : BitVec 2
  acc : BitVec 4
  gtid : BitVec 48
  waiters : Nat
  pf : Bool
  posted : Option Nat
  deriving DecidableEq, Repr

/-- A fault-buffer entry (R350, R351); its waiter count is that of its pending entry while that lives. -/
structure FbEntry where
  low : W64
  gtid : BitVec 48
  pf : Bool
  deriving DecidableEq, Repr

/-- A parked access: of a task, or of the tile-walk engine for the memory peer at a slot of a core (R346, R407). -/
inductive Parked
  | task (gtid : BitVec 48)
  | walker (core ep : Nat)
  deriving DecidableEq, Repr

/-- An iteration-pool range (R265). -/
structure IpRange where
  pool : Nat
  job : W32
  first : W32
  last : W32
  deriving DecidableEq, Repr

/-- A memory peer of a tile-walk engine (R402 to R407). -/
structure Peer where
  slot : Nat
  ep : Nat
  kind : Nat
  fmt : Nat
  asid : W16
  base : W64
  len : W64
  offset : W64
  stride : W64
  count : Nat
  done : Nat
  busy : Bool
  deriving DecidableEq, Repr

/-- A cluster: package index die * 80 + cluster. -/
structure Cluster where
  l2 : List TlbEntry
  /-- the roots that each of its two walkers keeps (R344) -/
  roots : List (W16 × W64)
  roots1 : List (W16 × W64)
  pend : List PendEntry
  fb : Sparse FbEntry
  dropped : Bool
  fbNotify : W64
  parked : List Parked
  replaying : List Parked
  pools : List IpRange
  eng : Option EngOp
  /-- the core served last (R278) -/
  engLast : Nat
  twBase : W64
  twLen : W64
  twErr : BitVec 4
  twCloseLo : W64
  twCloseHi : W64
  twCloseCnt : W32
  twNotify : W64
  peers : List Peer
  walkFault : Option WalkFault
  deriving DecidableEq, Repr

def Cluster.zero : Cluster :=
  { l2 := [], roots := [], roots1 := [], pend := [], fb := [], dropped := false, fbNotify := 0, parked := [], replaying := [],
    pools := [], eng := .none, engLast := 0, twBase := 0, twLen := 0, twErr := 0, twCloseLo := 0, twCloseHi := 0, twCloseCnt := 0,
    twNotify := 0, peers := [], walkFault := .none }

/-- The last free-count report of a core (R305): run-queue entries, contexts, tiles, counter slots, endpoint slots, largest
free scratchpad extent. -/
structure Report where
  runq : Nat
  ctx : Nat
  tiles : Nat
  counters : Nat
  eps : Nat
  spad : Nat
  deriving DecidableEq, Repr

/-- A die (R302, R331, R343, R457, R462). -/
structure Die where
  hmap : Sparse W64
  qmap : Sparse W64
  pcmap : Sparse W64
  wlmap : Sparse W64
  latmap : BitVec 8
  hbmTop : BitVec 38
  dtc : List TlbEntry
  /-- the roots that the exchange engine's walker keeps (R344) -/
  roots : List (W16 × W64)
  eng : Option EngOp
  engLast : Nat
  bootPhase : BitVec 3
  hbmFail : Bool
  /-- HBM training is done (R454) -/
  trained : Bool
  fwVer : W16
  elogBase : W64
  elogLen : W64
  elogWr : W64
  eccCe : W64
  elogNotify : W64
  reports : Sparse Report
  reportAt : W64
  deriving DecidableEq, Repr

def Report.zero : Report := ⟨0, 0, 0, 0, 0, 0⟩

def Die.zero : Die :=
  { hmap := [], qmap := [], pcmap := [], wlmap := [], latmap := 0, hbmTop := 0, dtc := [], roots := [], eng := .none, engLast := 0, bootPhase := 0,
    hbmFail := false, trained := false, fwVer := 0, elogBase := 0, elogLen := 0, elogWr := 0, eccCe := 0, elogNotify := 0,
    reports := [], reportAt := 0 }

/-- State of a job in the spire (R301). -/
inductive JobState
  | pending | dealing | running | preempting | saved | resuming | killing | done
  deriving DecidableEq, Repr

/-- What the spire keeps of an accepted launch record (R295, R304). -/
structure Launch where
  entry : GVal
  arg : GVal
  groups : Nat
  perGroup : Nat
  pack : Bool
  depth : Nat
  pinned : Bool
  dies : BitVec 8
  clusters : BitVec 80
  deriving DecidableEq, Repr

/-- A job (R301). The default is a job that never existed: DONE, count 0. -/
structure Job where
  state : JobState
  count : Nat
  asid : W16
  prio : Nat
  order : Nat
  launch : Option Launch
  /-- groups delivered to each core (R304) -/
  delivered : Sparse Nat
  /-- cores that still have to act on a pre-emption -/
  sentTo : List Nat
  saved : List (Nat × RunEntry)
  /-- counter slots of saved core groups (R314, R315) -/
  groups : List (Nat × Nat × Counter)
  resumeDealing : Bool
  full : Bool
  inplace : Bool
  /-- records in the context area, and how many of them are core records (R300, R315) -/
  records : Nat
  coreRecs : Nat
  /-- write position in the context area while it is saved -/
  at_ : Nat
  deriving DecidableEq, Repr

def Job.none : Job :=
  { state := .done, count := 0, asid := 0, prio := 0, order := 0, launch := .none, delivered := [],
    sentTo := [], saved := [], groups := [], resumeDealing := false, full := false, inplace := false, records := 0,
    coreRecs := 0, at_ := 0 }

/-- A LAUNCH that waits for the spire (R263): the task, the record's bytes with the tags of its first two granules, whether
it was issued at supervisor level. -/
structure LaunchReq where
  task : BitVec 48
  bytes : List Byte
  tag0 : Tag
  tag1 : Tag
  sup : Bool
  deriving DecidableEq, Repr

/-- The spire (R299 to R301). -/
structure Spire where
  lqBase : W64
  lqCfg : W64
  lqHead : W32
  lqTail : W32
  codeBase : W64
  codeTop : W64
  argBase : W64
  argTop : W64
  jobStat : W64
  jobArea : W64
  jobAreaLen : W64
  preemptDl : W64
  jobs : Sparse Job
  nextJob : W32
  nextOrder : Nat
  requests : List LaunchReq
  /-- the job whose command is in progress -/
  busy : Option W32
  deriving DecidableEq, Repr

/-- The governor (R423, R432): configuration in force and written, current slot, units used, tickets granted ahead, cores in
BALLAST in order of entry. -/
structure Gov where
  cfg : W64
  newCfg : Option W64
  slot : Nat
  rise : Nat
  fall : Nat
  ahead : Sparse Nat
  watts : W16
  viol : W32
  order : List Nat
  /-- GOV_CFG before a thermal throttle, and the die that caused it (R464) -/
  before : Option (W64 × Nat)
  deriving DecidableEq, Repr

/-- The fabric block (R394, R419, R450) and the pod links. -/
structure Fabric where
  ct : Sparse W64
  ctAt : Sparse W64
  route : Sparse W64
  alogBase : W64
  alogLen : W64
  alogWr : W64
  alogCtl : W64
  alogOrigin : W64
  alogEnd : W64
  injected : W32
  diverged : Bool
  replayAt : W64
  replayPos : Nat
  records : W64
  /-- what the records written so far stand for, by their bytes (R420; log entry 25) -/
  logged : List (List Byte × Logged)
  /-- messages that a replay holds at the port (R452); exchange data at hand for a die: re-injected (R421), or kept for a faulted
  operation (R282) -/
  heldBack : List Msg
  replayed : List (Nat × ExPeer)
  down : W16
  replays : Sparse Nat
  deriving DecidableEq, Repr

/-- The host block (R414, R416, R417). -/
structure HostBlock where
  regLow : Sparse W64
  regHigh : Sparse W64
  ports : Sparse W64
  pausedTill : Sparse W64
  qp : Sparse W64
  deriving DecidableEq, Repr

/-- The debug block (R443). -/
structure Debug where
  area : W64
  areaLen : W64
  next : W64
  noarea : Bool
  bp : Sparse W64
  deriving DecidableEq, Repr

/-- The root of trust and the flash (R458 to R461): the image, the next XMSS index, the rollback floor once one was fused. -/
structure Trust where
  image : Option (List Byte)
  index : W32
  floor : Option W16
  deriving DecidableEq, Repr

/-- What left the package. -/
inductive Sent
  | pod (m : Msg)
  | exchange (die rank : Nat) (chip : Byte) (data : List Byte)
  | podPort (fibre : Nat) (note : Nat)
  | rdmaAck (port : Nat) (qpn : BitVec 24) (psn : BitVec 24)
  | rdmaData (port : Nat) (qpn : BitVec 24) (psn : BitVec 24) (data : List Byte)
  | rdmaNak (port : Nat) (qpn : BitVec 24) (syndrome : Nat)
  | cnp (port : Nat) (qpn : BitVec 24)
  | pfcPause (port : Nat) (prio : BitVec 3) (quanta : W16)
  | attest (datagram : List Byte)
  deriving DecidableEq, Repr

/-- Power and service of the package (R454 to R456, R464). -/
inductive Power
  | off | on | clockStopped
  deriving DecidableEq, Repr

/-- The next move, where the interleaving or an outside input decides it (log entry 5). -/
inductive Move
  | issue (core : Nat)
  | event (i : Instr)
  | upset (addr : Nat)
  | corrected (die : Nat)
  deriving DecidableEq, Repr

/-- The whole machine. -/
structure State where
  tick : Nat
  agenda : List Move
  cur : Nat
  /-- a parked access whose turn in a replay has come: it runs again in the next step (R352) -/
  again : Option Parked
  timebase : W64
  power : Power
  chip : Byte
  enabled : BitVec 8
  /-- physical memory; an unlisted byte reads 0 (log entry 1) -/
  mem : List Host.Cell
  /-- tags by granule number (address / 16); an unlisted granule is DATA (R49) -/
  tags : Sparse Tag
  /-- uncorrectable codewords: addresses of the bytes in error (R355, R356) -/
  ue : List Nat
  tasks : Sparse Task
  cores : Sparse Core
  clusters : Sparse Cluster
  dies : Sparse Die
  astab : W64
  spire : Spire
  gov : Gov
  fabric : Fabric
  host : HostBlock
  dbg : Debug
  trust : Trust
  net : List Msg
  ships : List (Nat × Saved)
  sent : List Sent
  deriving DecidableEq, Repr

/-- Why the machine can take no step. -/
inductive Fault
  /-- raised by `step` while the package has no power and the next move is not a power-on reset; safe: no step of the
  hardware exists there. -/
  | powerOff
  deriving DecidableEq, Repr

/-- Why the model gives an instruction no meaning. -/
inductive Refusal
  /-- raised by a row of the opcode table that has no meaning yet; safe. -/
  | notModelled (mnemonic : String)
  deriving DecidableEq, Repr

def Spire.zero : Spire :=
  { lqBase := 0, lqCfg := 0, lqHead := 0, lqTail := 0, codeBase := 0, codeTop := 0, argBase := 0, argTop := 0,
    jobStat := 0, jobArea := 0, jobAreaLen := 0, preemptDl := 32000, jobs := [], nextJob := 1, nextOrder := 0,
    requests := [], busy := .none }

/-- GOV_CFG at reset: rise 60, fall 60, cstart 1,200 (R432). -/
def Gov.zero : Gov :=
  { cfg := 60#64 ||| (60#64 <<< 9) ||| (1200#64 <<< 20), newCfg := .none, slot := 0, rise := 0, fall := 0, ahead := [],
    watts := 0, viol := 0, order := [], before := .none }

def Fabric.zero : Fabric :=
  { ct := [], ctAt := [], route := [], alogBase := 0, alogLen := 0, alogWr := 0, alogCtl := 0, alogOrigin := 0,
    alogEnd := 0, injected := 0, diverged := false, replayAt := 0, replayPos := 0, records := 0, logged := [],
    heldBack := [], replayed := [], down := 0, replays := [] }

/-- Right after power-on reset: phase 0, every core held in reset (R49, R454). Values the spec does not give are those of
log entries 1, 2, 3 and 5. -/
def State.reset : State :=
  { tick := 0, agenda := [], cur := 0, again := .none, timebase := 0, power := .on, chip := 0, enabled := 0xFF, mem := [], tags := [],
    ue := [], tasks := [], cores := [], clusters := [], dies := [], astab := 0, spire := .zero, gov := .zero,
    fabric := .zero, host := ⟨[], [], [], [], []⟩, dbg := ⟨0, 0, 0, false, []⟩, trust := ⟨Config.flash, 0, .none⟩, net := [],
    ships := [], sent := [] }

end Sys2Proof.Machine
end

