-- ==== Sys2Proof/Machine/Access.lean ====
section
/-! DEFINITION. The named reads and writes of State: tasks, cores, clusters, dies, registers, bytes and tags of memory. Every
read and write of a register or a byte goes through these. -/

namespace Sys2Proof.Machine

/-- What an instruction or event answers. -/
abbrev Out := Host.Outcome State Fault Refusal

def State.task (s : State) (t : BitVec 48) : Task := sget Task.none s.tasks t.toNat
def State.setTask (s : State) (t : BitVec 48) (v : Task) : State :=
  { s with tasks := sset Task.none s.tasks t.toNat v }
/-- A change of one task. -/
def State.onTask (s : State) (t : BitVec 48) (f : Task → Task) : State := s.setTask t (f (s.task t))

def State.core (s : State) (k : Nat) : Core := sget Core.zero s.cores k
def State.setCore (s : State) (k : Nat) (v : Core) : State := { s with cores := sset Core.zero s.cores k v }
def State.onCore (s : State) (k : Nat) (f : Core → Core) : State := s.setCore k (f (s.core k))

def State.cluster (s : State) (c : Nat) : Cluster := sget Cluster.zero s.clusters c
def State.setCluster (s : State) (c : Nat) (v : Cluster) : State :=
  { s with clusters := sset Cluster.zero s.clusters c v }
def State.onCluster (s : State) (c : Nat) (f : Cluster → Cluster) : State := s.setCluster c (f (s.cluster c))

def State.die (s : State) (d : Nat) : Die := sget Die.zero s.dies d
def State.setDie (s : State) (d : Nat) (v : Die) : State := { s with dies := sset Die.zero s.dies d v }
def State.onDie (s : State) (d : Nat) (f : Die → Die) : State := s.setDie d (f (s.die d))

/-- The core whose instruction is executed: `cur`. -/
def State.me (s : State) : Core := s.core s.cur

/-- The task that issues on a core: the high-level holder of the issue slot, else the base-level one (R308, R310). -/
def Core.issuing (c : Core) : Option (BitVec 48) :=
  match c.slotHigh with
  | some t => some t
  | none => c.slotBase

/-- GTID of the task whose instruction is executed. -/
def State.curTid (s : State) : BitVec 48 :=
  match s.again with
  | some (.task t) => t
  | _ => s.me.issuing.getD 0
/-- The task whose instruction is executed. -/
def State.curTask (s : State) : Task := s.task s.curTid
/-- A change of the executing task. -/
def State.onCur (s : State) (f : Task → Task) : State := s.onTask s.curTid f

/-- Package cluster and die of a core (R3). -/
def clusterOf (core : Nat) : Nat := core / 4
def dieOf (core : Nat) : Nat := core / 320
def dieOfCluster (c : Nat) : Nat := c / 80

/-- The die of the executing core runs dome-only service (R454, R455). -/
def State.domeOnly (s : State) : Bool := (s.die (dieOf s.cur)).bootPhase = 3

/-- A g register: g0 is zero with tag DATA (R13). -/
def Task.reg (t : Task) (r : BitVec 5) : GVal := if r = 0 then .zero else sget .zero t.g r.toNat
/-- A write to g0 has no effect (R13). -/
def Task.setReg (t : Task) (r : BitVec 5) (v : GVal) : Task :=
  if r = 0 then t else { t with g := sset .zero t.g r.toNat v }
/-- Bits [63:0] of a g register, whatever its tag (R112). -/
def Task.r64 (t : Task) (r : BitVec 5) : W64 := (t.reg r).bits.extractLsb' 0 64
/-- A DATA result of 64 bits writes zero above it (R112). -/
def data64 (v : W64) : GVal := ⟨v.setWidth 128, .data⟩
def Task.setR64 (t : Task) (r : BitVec 5) (v : W64) : Task := t.setReg r (data64 v)

/-- A predicate; p0 is true (R24). -/
def Task.pred (t : Task) (p : BitVec 3) : Bool := p = 0 || t.p.getLsbD p.toNat
/-- A write to p0 has no effect (R24). -/
def Task.setPred (t : Task) (p : BitVec 3) (b : Bool) : Task :=
  if p = 0 then t
  else { t with p := if b then t.p ||| (1#8 <<< p.toNat) else t.p &&& ~~~(1#8 <<< p.toNat) }

def Task.vec (t : Task) (r : BitVec 4) : W512 := sget 0 t.v r.toNat
def Task.setVec (t : Task) (r : BitVec 4) (v : W512) : Task := { t with v := sset 0 t.v r.toNat v }
def Task.mask (t : Task) (r : BitVec 2) : W64 := sget 0 t.m r.toNat
def Task.setMask (t : Task) (r : BitVec 2) (v : W64) : Task := { t with m := sset 0 t.m r.toNat v }

/-- Address of the next instruction (R11). -/
def Task.pc (t : Task) : W64 := cursor t.pcc.bits
def Task.setPc (t : Task) (a : W64) : Task := { t with pcc := moveCursor t.pcc a }
/-- Sticky flags (R63). -/
def Task.addFlags (t : Task) (fl : Flags) : Task := { t with fflags := t.fflags ||| fl }

/-- Whether a guard lets its instruction execute (R87). -/
def Task.guardOk (t : Task) (g : Guard) : Bool := t.pred g.p != g.neg

/-- Declared resources (R43). -/
def Task.gregs (t : Task) : Nat := ((t.khdr.extractLsb' 0 2).toNat + 1) * 8
def Task.vregs (t : Task) : Nat := (t.khdr.extractLsb' 2 5).toNat
def Task.accs (t : Task) : Nat := (t.khdr.extractLsb' 7 3).toNat
def Task.barriers (t : Task) : Nat := (t.khdr.extractLsb' 10 5).toNat
def Task.endpoints (t : Task) : Nat := (t.khdr.extractLsb' 15 7).toNat

/-- The canonical form of memory: addresses strictly rising, no entry that equals what an unlisted address reads as. -/
def Memory.wf (m : List Host.Cell) : Bool := swf 0 m

/-- A byte of physical memory; an unlisted byte reads 0 (log entry 1). -/
def State.byte (s : State) (a : Nat) : Byte := sget 0 s.mem a
def State.putByte (s : State) (a : Nat) (b : Byte) : State := { s with mem := sset 0 s.mem a b }
/-- The tag of the granule that holds a byte (R46). -/
def State.tagAt (s : State) (a : Nat) : Tag := sget .data s.tags (a / 16)
def State.setTag (s : State) (a : Nat) (t : Tag) : State := { s with tags := sset .data s.tags (a / 16) t }

/-- n bytes from a. -/
def State.readBytes (s : State) : Nat → Nat → List Byte
  | _, 0 => []
  | a, n + 1 => s.byte a :: s.readBytes (a + 1) n

/-- Writes a byte and clears the tag of its granule (R47). -/
def State.storeByte (s : State) (a : Nat) (b : Byte) : State := (s.putByte a b).setTag a .data

/-- Writes bytes from a; the tag of every granule they overlap is cleared (R47); bytes that were uncorrectable stay so
(R356). -/
def State.storeBytes (s : State) : Nat → List Byte → State
  | _, [] => s
  | a, b :: bs => (s.storeByte a b).storeBytes (a + 1) bs

def State.readNat (s : State) (a n : Nat) : Nat := leNat (s.readBytes a n)
def State.storeNat (s : State) (a n v : Nat) : State := s.storeBytes a (leBytes n v)

/-- Size of the codeword that holds a physical address (R355). -/
def codeword (a : Nat) : Nat :=
  let o := a % 2 ^ 43
  if o < 0x040000000000 then 32 else if o < 0x060000000000 then 16 else 8

/-- Whether the codeword that holds a byte is uncorrectable (R355). -/
def State.badByte (s : State) (a : Nat) : Bool :=
  s.ue.any fun x => x / codeword x = a / codeword a && codeword x = codeword a

/-- The first byte of a range whose codeword is uncorrectable. -/
def State.firstBad (s : State) : Nat → Nat → Option Nat
  | _, 0 => none
  | a, n + 1 => if s.badByte a then some a else s.firstBad (a + 1) n

/-- A write of a range corrects every codeword it wholly covers (R356). -/
def State.mend (s : State) (a n : Nat) : State :=
  if s.ue = [] then s
  else { s with ue := s.ue.filter fun x =>
          !(decide (a ≤ x / codeword x * codeword x) && decide (x / codeword x * codeword x + codeword x ≤ a + n)) }

/-- A store of bytes as one write: bytes, tags, codewords (R47, R356). -/
def State.write (s : State) (a : Nat) (bs : List Byte) : State := (s.storeBytes a bs).mend a bs.length

/-- Physical address of a core's scratchpad (R328). -/
def spadPa (core : Nat) : Nat := dieOf core * 2 ^ 43 + 0x060000000000 + core % 320 * 0x80000

def State.dieEnabled (s : State) (d : Nat) : Bool := s.enabled.getLsbD d && decide (d < 8)

/-- Whether a core slot is harvested or stands on a disabled die (R302). -/
def State.harvested (s : State) (core : Nat) : Bool :=
  !s.dieEnabled (dieOf core) || (sget 0 (s.die (dieOf core)).hmap (core % 320 / 64)).getLsbD (core % 320 % 64)

/-- The cores of a die run (R454): they are held in reset until phase 3. -/
def State.coreUp (s : State) (k : Nat) : Bool :=
  let p := (s.die (dieOf k)).bootPhase
  p = 3 || p = 4

/-- A die answers on the lattice: from phase 1, and not in recovery (R454, R459). -/
def State.dieUp (s : State) (d : Nat) : Bool := (s.die d).bootPhase ≠ 0 && (s.die d).bootPhase ≠ 5

/-- The lattice and the spire answer (R454, R459). -/
def State.spireUp (s : State) : Bool := (List.range 8).any s.dieUp

/-- HBM_TOP: 0 until full service (R331, R455, R456). -/
def State.hbmTop (s : State) (d : Nat) : BitVec 38 := if (s.die d).bootPhase = 4 then (s.die d).hbmTop else 0

/-- What a physical address names (R328). -/
inductive PaKind
  | memory | control (die off : Nat) | bad
  deriving DecidableEq, Repr

/-- What a physical address names, with unbacked offsets, disabled dies and harvested scratchpads (R328, R329). -/
def State.paKind (s : State) (a : Nat) : PaKind :=
  let d := a / 2 ^ 43
  let o := a % 2 ^ 43
  if !s.dieEnabled d then .bad
  else if o < 0x040000000000 then if o < (s.hbmTop d).toNat then .memory else .bad
  else if o < 0x060000000000 then if o < 0x040050000000 then .memory else .bad
  else if o < 0x070000000000 then
    if o < 0x06000A000000 && !s.harvested (d * 320 + (o - 0x060000000000) / 0x80000) then .memory else .bad
  else .control d (o - 0x070000000000)

/-- A range of memory backed in HBM, dome or scratchpad. -/
def State.backed (s : State) (a n : Nat) : Bool :=
  s.paKind a = .memory && (n = 0 || s.paKind (a + n - 1) = .memory)

/-- The energy of n bytes of scratchpad accesses, in eighths of a picojoule (R422, class 3). -/
def spadEnergy (n : Nat) : Nat := 28 * ceilDiv n 8

/-- The energy in eighths of a picojoule of bytes moved to or from an address (R422, classes 3, 4 and 5). -/
def moveEnergy (a n : Nat) : Nat :=
  let o := a % 2 ^ 43
  if o < 0x040000000000 then 192 * n else if o < 0x060000000000 then 32 * n else spadEnergy n

/-- Counts energy at a core (R422). -/
def State.charge (s : State) (k e : Nat) : State :=
  s.onCore k fun c => { c with gov := { c.gov with energy := c.gov.energy + e } }

/-- A free value of this step (log entry 4). -/
def State.free (s : State) (f : Nat → Nat) : Nat := f s.tick

/-- Every task that stands on a core. -/
def State.tasksOn (s : State) (k : Nat) : List Task := (s.tasks.map (·.2)).filter fun t => t.core = k

/-- Puts a message on its way (R389); messages of one source, destination and network keep their order (R378). -/
def State.post (s : State) (m : Msg) : State := { s with net := s.net ++ [m] }

def State.here (s : State) (core : Nat) : Place := ⟨s.chip, core⟩

end Sys2Proof.Machine
end

