-- ==== Sys2Proof/WellFormed.lean ====
section
/-! DEFINITION. Well-formed instructions: every field holds a value of the set that the spec lists for it. -/

namespace Sys2Proof

/-- The system register numbers that exist (R35, R141, R276, R327, R359, R433, R438, R439, R442). -/
def WellFormed.assignedSr (n : Nat) : Bool :=
  n ≤ 0x004 || (0x008 ≤ n && n ≤ 0x015) || (0x020 ≤ n && n ≤ 0x023) || (0x100 ≤ n && n ≤ 0x106) || n = 0x120
    || (0x200 ≤ n && n ≤ 0x21F) || n = 0x400 || (0x402 ≤ n && n ≤ 0x404) || (0x500 ≤ n && n ≤ 0x505)
    || (0x508 ≤ n && n ≤ 0x50C) || (0x510 ≤ n && n ≤ 0x512) || n = 0x600 || n = 0x601 || (0x610 ≤ n && n ≤ 0x613)

/-- The size codes of a store (R97). -/
def WellFormed.storeSize (z : BitVec 3) : Bool := z = 0 || z = 2 || z = 4 || z = 6 || z = 7

/-- An instruction that the encodings of spec/03_encoding_and_assembly.md admit (R88, R96 to R102), and an event that names
units the package has (R2, R3, R413). -/
def Instr.wf : Instr → Bool
  | .add _ _ _ _ => true
  | .sub _ _ _ _ => true
  | .mul _ _ _ _ => true
  | .mulh _ _ _ _ => true
  | .mulhu _ _ _ _ => true
  | .div _ _ _ _ => true
  | .divu _ _ _ _ => true
  | .rem _ _ _ _ => true
  | .remu _ _ _ _ => true
  | .and _ _ _ _ => true
  | .or _ _ _ _ => true
  | .xor _ _ _ _ => true
  | .andn _ _ _ _ => true
  | .shl _ _ _ _ => true
  | .shr _ _ _ _ => true
  | .sar _ _ _ _ => true
  | .min _ _ _ _ => true
  | .max _ _ _ _ => true
  | .minu _ _ _ _ => true
  | .maxu _ _ _ _ => true
  | .clz _ _ _ => true
  | .ctz _ _ _ => true
  | .popc _ _ _ => true
  | .brev _ _ _ => true
  | .sext _ _ _ _ => true
  | .zext _ _ _ _ => true
  | .addi _ _ _ _ => true
  | .andi _ _ _ _ => true
  | .ori _ _ _ _ => true
  | .xori _ _ _ _ => true
  | .shli _ _ _ _ => true
  | .shri _ _ _ _ => true
  | .sari _ _ _ _ => true
  | .lit _ _ _ => true
  | .lith _ _ _ _ => true
  | .cmp _ _ _ _ c => c.toNat ≤ 5
  | .cmpiEq _ _ _ _ => true
  | .cmpiNe _ _ _ _ => true
  | .cmpiLt _ _ _ _ => true
  | .cmpiLe _ _ _ _ => true
  | .cmpiLtu _ _ _ _ => true
  | .cmpiLeu _ _ _ _ => true
  | .pand _ _ _ _ => true
  | .por _ _ _ _ => true
  | .pxor _ _ _ _ => true
  | .pnot _ _ _ => true
  | .pset _ _ _ => true
  | .mov _ _ _ => true
  | .sel _ _ _ _ _ => true
  | .csetb _ _ _ _ => true
  | .crestr _ _ _ _ => true
  | .cadd _ _ _ _ => true
  | .cget _ _ _ f => f.toNat ≤ 5
  | .cclr _ _ _ => true
  | .cseal _ _ _ _ => true
  | .ctest _ _ _ _ => true
  | .ld _ _ _ _ _ => true
  | .st _ _ _ _ z => WellFormed.storeSize z
  | .ldc _ _ _ _ => true
  | .stc _ _ _ _ => true
  | .lda _ _ _ _ z => z = 4 || z = 6 || z = 7
  | .stl _ _ _ _ z => z = 4 || z = 6 || z = 7
  | .pf _ _ _ _ => true
  | .fence _ s => s.toNat ≤ 5
  | .fenceLb _ => true
  | .amo _ _ _ _ w o => o.toNat ≤ 10 && (w = 0 || (w = 1 && o.toNat ≤ 8))
  | .cas _ _ _ _ w => w.toNat ≤ 2
  | .stm _ _ _ _ z => WellFormed.storeSize z
  | .stred _ _ _ _ o z => (z = 4 || z = 6) && o.toNat ≤ 5 && (o ≠ 1 || z = 4)
  | .barArr _ _ => true
  | .barWait _ _ => true
  | .barSync _ _ => true
  | .cntSet _ _ _ => true
  | .cntAdd _ _ _ => true
  | .cntWait _ _ _ => true
  | .br _ _ => true
  | .call _ _ => true
  | .jr _ _ _ => true
  | .endTask _ => true
  | .yield _ => true
  | .nop _ => true
  | .loop _ _ _ _ => true
  | .loopi _ _ _ _ _ _ => true
  | .safept _ _ _ _ => true
  | .vadd _ _ _ _ _ _ => true
  | .vsub _ _ _ _ _ _ => true
  | .vmul _ _ _ _ _ _ => true
  | .vfma _ _ _ _ _ _ => true
  | .vmax _ _ _ _ _ _ => true
  | .vmin _ _ _ _ _ _ => true
  | .vabs _ _ _ _ _ => true
  | .vneg _ _ _ _ _ => true
  | .vexp2 _ _ _ _ t => t.toNat ≤ 2
  | .vlog2 _ _ _ _ t => t.toNat ≤ 2
  | .vrcp _ _ _ _ t => t.toNat ≤ 2
  | .vrsq _ _ _ _ t => t.toNat ≤ 2
  | .vcvt _ _ _ _ _ _ => true
  | .vsel _ _ _ _ _ _ => true
  | .vshf _ _ _ _ _ _ => true
  | .viota _ _ _ t => 4 ≤ t.toNat
  | .mand _ _ _ _ => true
  | .mor _ _ _ _ => true
  | .mnot _ _ _ => true
  | .vld _ _ _ _ _ f => f ≠ 0xF
  | .vst _ _ _ _ _ f _ => f ≠ 0xF
  | .vstSeed _ _ _ _ _ f _ _ => f ≠ 0xF
  | .vlds _ _ _ _ _ f => f ≠ 0xF && f ≠ 0
  | .vgath _ _ _ _ _ f => f ≠ 0xF && f ≠ 0
  | .vscat _ _ _ _ _ f _ => f ≠ 0xF && f ≠ 0
  | .vscatSeed _ _ _ _ _ f _ _ => f ≠ 0xF && f ≠ 0
  | .vbcst _ _ _ _ _ => true
  | .vins _ _ _ _ _ => true
  | .vext _ _ _ _ _ => true
  | .vreds _ _ _ _ _ => true
  | .vredm _ _ _ _ _ => true
  | .vcmp _ _ _ _ _ _ c => c.toNat ≤ 5
  | .vectorLoadUe core => core < 2560
  | .mxZero _ _ => true
  | .mxMma _ _ _ _ _ _ => true
  | .mxRag _ _ _ _ _ _ => true
  | .mxLda _ _ _ _ => true
  | .mxSta _ _ _ _ => true
  | .mxStaSeed _ _ _ _ _ => true
  | .mxWait _ _ _ => true
  | .mxStat _ _ _ => true
  | .matrixOpStart core => core < 2560
  | .matrixTripleBoundary core => core < 2560
  | .matrixOpRetire core => core < 2560
  | .matrixOperandUe core => core < 2560
  | .laClr _ _ => true
  | .laAdd _ f _ _ => f = 0x1 || f = 0x2 || f = 0xA
  | .laAddv _ f _ _ => f = 0x1 || f = 0xA
  | .laMrg _ _ _ => true
  | .laRnd _ _ _ f => f = 0x1 || f = 0xA
  | .chNew _ _ _ _ => true
  | .chConn _ _ _ => true
  | .chSend _ _ _ => true
  | .chRecv _ _ _ => true
  | .chOffer _ _ _ => true
  | .chSelect _ _ _ => true
  | .chDeleg _ _ _ => true
  | .chAccept _ _ _ => true
  | .chClose _ _ => true
  | .chStat _ _ _ => true
  | .chSync _ _ => true
  | .chFree _ _ => true
  | .spawn _ _ _ => true
  | .bind _ _ _ _ => true
  | .unbind _ _ => true
  | .launch _ _ _ => true
  | .jobq _ _ _ => true
  | .ipGive _ _ _ => true
  | .ipTake _ _ _ => true
  | .am _ d _ _ n => n.toNat ≤ 6 && (n ≠ 0 || d = 0) && d.toNat + n.toNat ≤ 32
  | .engW _ _ e i => (e = 0 && i.toNat ≤ 4) || (e = 1 && i.toNat ≤ 5)
  | .engR _ _ e i => (e = 0 || e = 1) && i.toNat ≤ 3
  | .engGo _ e => e = 0 || e = 1
  | .engWait _ e => e = 0 || e = 1
  | .engineSwap _ => true
  | .engineCompletion _ => true
  | .engineFault _ => true
  | .engineBusError _ => true
  | .engineUe _ => true
  | .exchangeJoin die _ => die < 8
  | .exchangeNote die _ => die < 8
  | .tret _ => true
  | .sret _ => true
  | .brk _ => true
  | .tlbi _ _ k => k.toNat ≤ 3
  | .compose _ _ _ _ => true
  | .towerForm core => core < 2560
  | .composeTimeout core => core < 2560
  | .release _ => true
  | .govPin _ => true
  | .govUnpin _ => true
  | .trap _ _ => true
  | .mfs _ _ s => WellFormed.assignedSr s.toNat
  | .mts _ _ s => WellFormed.assignedSr s.toNat
  | .trcMark _ _ _ => true
  | .asyncTrapEntry core => core < 2560
  | .handlerBudget core => core < 2560
  | .postedAtomicUe core => core < 2560
  | .pageFaultPark _ => true
  | .fbStatWrite cluster _ => cluster < 640
  | .replayAll cluster => cluster < 640
  | .replayRerun cluster => cluster < 640
  | .migrationShip _ => true
  | .migrationArrival _ => true
  | .taskMessageArrival _ => true
  | .taskAdmission core => core < 2560
  | .quantumExpiry core => core < 2560
  | .spireLaunchRequest => true
  | .jobDealStart => true
  | .groupDelivery _ core => core < 2560
  | .freeCountReport die => die < 8
  | .lqTailWrite _ => true
  | .hostLaunchRecord => true
  | .jobCtlNone _ => true
  | .jobPreempt _ => true
  | .jobResume _ => true
  | .jobKill _ => true
  | .preemptArrival _ core => core < 2560
  | .preemptDeadline _ => true
  | .sendQueueInject core => core < 2560
  | .slotReturnSend core ep => decide (core < 2560) && decide (ep < 64)
  | .channelMessageArrival _ => true
  | .connectArrival _ => true
  | .connectAnswer _ => true
  | .slotReturn _ => true
  | .resyncWord _ => true
  | .resyncTimeout core ep => decide (core < 2560) && decide (ep < 64)
  | .closeMessageArrival _ => true
  | .closeAckArrival _ => true
  | .failureNotification _ => true
  | .movedArrival _ => true
  | .markArrivalOld _ => true
  | .markArrivalNew _ => true
  | .replySinkRelease _ => true
  | .podPortDiscard _ => true
  | .podErrorReply _ => true
  | .podArrival _ _ => true
  | .linkReplay _ => true
  | .linkDown _ => true
  | .alogEnable _ => true
  | .alogReplayStart _ => true
  | .replayReinject => true
  | .ctEntryWrite _ _ => true
  | .circuitUp _ => true
  | .twAdopt cluster _ => cluster < 640
  | .tilePeerRequest core ep => decide (core < 2560) && decide (ep < 64)
  | .tilePeerSend core ep => decide (core < 2560) && decide (ep < 64)
  | .tilePeerWrite core ep => decide (core < 2560) && decide (ep < 64)
  | .rdmaWrite _ => true
  | .rdmaRead _ => true
  | .rdmaUnsupported _ => true
  | .pfcPause port _ _ => port < 4
  | .qpContextWrite _ _ _ _ => true
  | .dbgCmdNone _ => true
  | .dbgStop _ => true
  | .dbgResume _ => true
  | .dbgStep _ => true
  | .slogEnable core => core < 2560
  | .slogDisable core => core < 2560
  | .rampSlotBoundary => true
  | .powerOnReset => true
  | .bootPhaseAdvance die => die < 8
  | .hbmTrainingDone => true
  | .fullServiceStart => true
  | .recoveryImage _ => true
  | .attestIdentityRequest _ => true
  | .attestReportRequest _ => true
  | .thermalThrottle die => die < 8
  | .thermalRestore => true
  | .thermalClockStop die => die < 8
  | .controlRegisterWrite _ die _ _ _ => die < 8
  | .vectorQueueExecute core => core < 2560
  | .writeAcknowledgement _ => true
  | .ethernetLinkChange port _ => port < 4
  | .pfcPauseExpiry port => port < 4
  | .powerLoss => true
  | .packageReset => true

end Sys2Proof
end

