-- ==== Sys2Proof/Decode.lean ====
section
/-! DEFINITION. Decoding (R86 to R102), total on any two words and rejecting by name, and the encoder beside it, written from
the same tables of spec/03_encoding_and_assembly.md. -/

namespace Sys2Proof

/-- Why a word is no instruction (R88). -/
inductive DecodeError
  | major      -- the major opcode is unassigned (R95)
  | function   -- the function code is not assigned within its major
  | reserved   -- a field fixed to zero is not zero
  | value      -- a field holds a value outside its set
  | literal    -- the literal word has a reserved bit set
  | truncated  -- fewer bytes than the instruction needs
  deriving DecidableEq, Repr

/-- Bits [31:28]: the guard (R87). -/
def guardOf (w : W32) : Guard := ⟨w.getLsbD 31, w.extractLsb' 28 3⟩

/-- A field fixed to zero (R88). -/
def zero {n : Nat} (f : BitVec n) (r : Except DecodeError Instr) : Except DecodeError Instr :=
  if f = 0 then r else .error .reserved

/-- Reserved bits of a literal word (R88). -/
def literal {n : Nat} (f : BitVec n) (r : Except DecodeError Instr) : Except DecodeError Instr :=
  if f = 0 then r else .error .literal

/-- Major 0x01 (R96, integer RR). -/
def decode01 (w : W32) : Except DecodeError Instr :=
  match (w.extractLsb' 7 6).toNat with
  | 0x00 => .ok (.add (guardOf w) (w.extractLsb' 23 5) (w.extractLsb' 18 5) (w.extractLsb' 13 5))
  | 0x01 => .ok (.sub (guardOf w) (w.extractLsb' 23 5) (w.extractLsb' 18 5) (w.extractLsb' 13 5))
  | 0x02 => .ok (.mul (guardOf w) (w.extractLsb' 23 5) (w.extractLsb' 18 5) (w.extractLsb' 13 5))
  | 0x03 => .ok (.mulh (guardOf w) (w.extractLsb' 23 5) (w.extractLsb' 18 5) (w.extractLsb' 13 5))
  | 0x04 => .ok (.mulhu (guardOf w) (w.extractLsb' 23 5) (w.extractLsb' 18 5) (w.extractLsb' 13 5))
  | 0x05 => .ok (.div (guardOf w) (w.extractLsb' 23 5) (w.extractLsb' 18 5) (w.extractLsb' 13 5))
  | 0x06 => .ok (.divu (guardOf w) (w.extractLsb' 23 5) (w.extractLsb' 18 5) (w.extractLsb' 13 5))
  | 0x07 => .ok (.rem (guardOf w) (w.extractLsb' 23 5) (w.extractLsb' 18 5) (w.extractLsb' 13 5))
  | 0x08 => .ok (.remu (guardOf w) (w.extractLsb' 23 5) (w.extractLsb' 18 5) (w.extractLsb' 13 5))
  | 0x10 => .ok (.and (guardOf w) (w.extractLsb' 23 5) (w.extractLsb' 18 5) (w.extractLsb' 13 5))
  | 0x11 => .ok (.or (guardOf w) (w.extractLsb' 23 5) (w.extractLsb' 18 5) (w.extractLsb' 13 5))
  | 0x12 => .ok (.xor (guardOf w) (w.extractLsb' 23 5) (w.extractLsb' 18 5) (w.extractLsb' 13 5))
  | 0x13 => .ok (.andn (guardOf w) (w.extractLsb' 23 5) (w.extractLsb' 18 5) (w.extractLsb' 13 5))
  | 0x18 => .ok (.shl (guardOf w) (w.extractLsb' 23 5) (w.extractLsb' 18 5) (w.extractLsb' 13 5))
  | 0x19 => .ok (.shr (guardOf w) (w.extractLsb' 23 5) (w.extractLsb' 18 5) (w.extractLsb' 13 5))
  | 0x1A => .ok (.sar (guardOf w) (w.extractLsb' 23 5) (w.extractLsb' 18 5) (w.extractLsb' 13 5))
  | 0x20 => .ok (.min (guardOf w) (w.extractLsb' 23 5) (w.extractLsb' 18 5) (w.extractLsb' 13 5))
  | 0x21 => .ok (.max (guardOf w) (w.extractLsb' 23 5) (w.extractLsb' 18 5) (w.extractLsb' 13 5))
  | 0x22 => .ok (.minu (guardOf w) (w.extractLsb' 23 5) (w.extractLsb' 18 5) (w.extractLsb' 13 5))
  | 0x23 => .ok (.maxu (guardOf w) (w.extractLsb' 23 5) (w.extractLsb' 18 5) (w.extractLsb' 13 5))
  | 0x28 => zero (w.extractLsb' 13 5) (.ok (.clz (guardOf w) (w.extractLsb' 23 5) (w.extractLsb' 18 5)))
  | 0x29 => zero (w.extractLsb' 13 5) (.ok (.ctz (guardOf w) (w.extractLsb' 23 5) (w.extractLsb' 18 5)))
  | 0x2A => zero (w.extractLsb' 13 5) (.ok (.popc (guardOf w) (w.extractLsb' 23 5) (w.extractLsb' 18 5)))
  | 0x2B => zero (w.extractLsb' 13 5) (.ok (.brev (guardOf w) (w.extractLsb' 23 5) (w.extractLsb' 18 5)))
  | 0x2C => zero (w.extractLsb' 15 3) (.ok (.sext (guardOf w) (w.extractLsb' 23 5) (w.extractLsb' 18 5) (w.extractLsb' 13 2)))
  | 0x2D => zero (w.extractLsb' 15 3) (.ok (.zext (guardOf w) (w.extractLsb' 23 5) (w.extractLsb' 18 5) (w.extractLsb' 13 2)))
  | _ => .error .function

/-- Major 0x10 (R96, compares, predicates, MOV, SEL). -/
def decode10 (w : W32) : Except DecodeError Instr :=
  match (w.extractLsb' 7 6).toNat with
  | 0x00 | 0x01 | 0x02 | 0x03 | 0x04 | 0x05 => zero (w.extractLsb' 26 2) (.ok (.cmp (guardOf w) (w.extractLsb' 23 3) (w.extractLsb' 18 5) (w.extractLsb' 13 5) (w.extractLsb' 7 3)))
  | 0x08 => zero (w.extractLsb' 16 2) (zero (w.extractLsb' 21 2) (zero (w.extractLsb' 26 2) (.ok (.pand (guardOf w) (w.extractLsb' 23 3) (w.extractLsb' 18 3) (w.extractLsb' 13 3)))))
  | 0x09 => zero (w.extractLsb' 16 2) (zero (w.extractLsb' 21 2) (zero (w.extractLsb' 26 2) (.ok (.por (guardOf w) (w.extractLsb' 23 3) (w.extractLsb' 18 3) (w.extractLsb' 13 3)))))
  | 0x0A => zero (w.extractLsb' 16 2) (zero (w.extractLsb' 21 2) (zero (w.extractLsb' 26 2) (.ok (.pxor (guardOf w) (w.extractLsb' 23 3) (w.extractLsb' 18 3) (w.extractLsb' 13 3)))))
  | 0x0B => zero (w.extractLsb' 13 5) (zero (w.extractLsb' 21 2) (zero (w.extractLsb' 26 2) (.ok (.pnot (guardOf w) (w.extractLsb' 23 3) (w.extractLsb' 18 3)))))
  | 0x0C => zero (w.extractLsb' 14 9) (zero (w.extractLsb' 26 2) (.ok (.pset (guardOf w) (w.extractLsb' 23 3) (w.extractLsb' 13 1))))
  | 0x10 => zero (w.extractLsb' 13 5) (.ok (.mov (guardOf w) (w.extractLsb' 23 5) (w.extractLsb' 18 5)))
  | 0x18 | 0x19 | 0x1A | 0x1B | 0x1C | 0x1D | 0x1E | 0x1F => .ok (.sel (guardOf w) (w.extractLsb' 23 5) (w.extractLsb' 18 5) (w.extractLsb' 13 5) (w.extractLsb' 7 3))
  | _ => .error .function

/-- Major 0x18 (R97, capabilities). -/
def decode18 (w : W32) : Except DecodeError Instr :=
  match (w.extractLsb' 7 6).toNat with
  | 0x00 => .ok (.csetb (guardOf w) (w.extractLsb' 23 5) (w.extractLsb' 18 5) (w.extractLsb' 13 5))
  | 0x01 => .ok (.crestr (guardOf w) (w.extractLsb' 23 5) (w.extractLsb' 18 5) (w.extractLsb' 13 5))
  | 0x02 => .ok (.cadd (guardOf w) (w.extractLsb' 23 5) (w.extractLsb' 18 5) (w.extractLsb' 13 5))
  | 0x03 => .ok (.cget (guardOf w) (w.extractLsb' 23 5) (w.extractLsb' 18 5) (w.extractLsb' 13 5))
  | 0x04 => zero (w.extractLsb' 13 5) (.ok (.cclr (guardOf w) (w.extractLsb' 23 5) (w.extractLsb' 18 5)))
  | 0x05 => zero (w.extractLsb' 15 3) (.ok (.cseal (guardOf w) (w.extractLsb' 23 5) (w.extractLsb' 18 5) (w.extractLsb' 13 2)))
  | 0x06 => zero (w.extractLsb' 26 2) (.ok (.ctest (guardOf w) (w.extractLsb' 23 3) (w.extractLsb' 18 5) (w.extractLsb' 13 5)))
  | _ => .error .function

/-- Major 0x27 (R97, fences). -/
def decode27 (w : W32) : Except DecodeError Instr :=
  match (w.extractLsb' 7 6).toNat with
  | 0x00 => zero (w.extractLsb' 18 10) (.ok (.fence (guardOf w) (w.extractLsb' 13 5)))
  | 0x01 => zero (w.extractLsb' 13 15) (.ok (.fenceLb (guardOf w)))
  | _ => .error .function

/-- Major 0x34 (R97, counter slots). -/
def decode34 (w : W32) : Except DecodeError Instr :=
  match (w.extractLsb' 7 6).toNat with
  | 0x00 => zero (w.extractLsb' 17 11) (.ok (.barArr (guardOf w) (w.extractLsb' 13 4)))
  | 0x01 => zero (w.extractLsb' 17 11) (.ok (.barWait (guardOf w) (w.extractLsb' 13 4)))
  | 0x02 => zero (w.extractLsb' 17 11) (.ok (.barSync (guardOf w) (w.extractLsb' 13 4)))
  | 0x03 => zero (w.extractLsb' 17 1) (zero (w.extractLsb' 23 5) (.ok (.cntSet (guardOf w) (w.extractLsb' 18 5) (w.extractLsb' 13 4))))
  | 0x04 => zero (w.extractLsb' 17 1) (zero (w.extractLsb' 23 5) (.ok (.cntAdd (guardOf w) (w.extractLsb' 18 5) (w.extractLsb' 13 4))))
  | 0x05 => zero (w.extractLsb' 17 1) (zero (w.extractLsb' 23 5) (.ok (.cntWait (guardOf w) (w.extractLsb' 18 5) (w.extractLsb' 13 4))))
  | _ => .error .function

/-- Major 0x3A (R98). -/
def decode3A (w : W32) : Except DecodeError Instr :=
  match (w.extractLsb' 7 6).toNat with
  | 0x00 => zero (w.extractLsb' 13 5) (.ok (.jr (guardOf w) (w.extractLsb' 23 5) (w.extractLsb' 18 5)))
  | 0x01 => zero (w.extractLsb' 13 15) (.ok (.endTask (guardOf w)))
  | 0x02 => zero (w.extractLsb' 13 15) (.ok (.yield (guardOf w)))
  | 0x03 => zero (w.extractLsb' 13 15) (.ok (.nop (guardOf w)))
  | _ => .error .function

/-- Major 0x40 (R99, arithmetic). -/
def decode40 (w : W32) : Except DecodeError Instr :=
  match (w.extractLsb' 7 4).toNat with
  | 0x00 => .ok (.vadd (guardOf w) (w.extractLsb' 24 4) (w.extractLsb' 20 4) (w.extractLsb' 16 4) (w.extractLsb' 14 2) (w.extractLsb' 11 3))
  | 0x01 => .ok (.vsub (guardOf w) (w.extractLsb' 24 4) (w.extractLsb' 20 4) (w.extractLsb' 16 4) (w.extractLsb' 14 2) (w.extractLsb' 11 3))
  | 0x02 => .ok (.vmul (guardOf w) (w.extractLsb' 24 4) (w.extractLsb' 20 4) (w.extractLsb' 16 4) (w.extractLsb' 14 2) (w.extractLsb' 11 3))
  | 0x03 => .ok (.vfma (guardOf w) (w.extractLsb' 24 4) (w.extractLsb' 20 4) (w.extractLsb' 16 4) (w.extractLsb' 14 2) (w.extractLsb' 11 3))
  | 0x04 => .ok (.vmax (guardOf w) (w.extractLsb' 24 4) (w.extractLsb' 20 4) (w.extractLsb' 16 4) (w.extractLsb' 14 2) (w.extractLsb' 11 3))
  | 0x05 => .ok (.vmin (guardOf w) (w.extractLsb' 24 4) (w.extractLsb' 20 4) (w.extractLsb' 16 4) (w.extractLsb' 14 2) (w.extractLsb' 11 3))
  | 0x06 => zero (w.extractLsb' 16 4) (.ok (.vabs (guardOf w) (w.extractLsb' 24 4) (w.extractLsb' 20 4) (w.extractLsb' 14 2) (w.extractLsb' 11 3)))
  | 0x07 => zero (w.extractLsb' 16 4) (.ok (.vneg (guardOf w) (w.extractLsb' 24 4) (w.extractLsb' 20 4) (w.extractLsb' 14 2) (w.extractLsb' 11 3)))
  | 0x08 => zero (w.extractLsb' 16 4) (.ok (.vexp2 (guardOf w) (w.extractLsb' 24 4) (w.extractLsb' 20 4) (w.extractLsb' 14 2) (w.extractLsb' 11 3)))
  | 0x09 => zero (w.extractLsb' 16 4) (.ok (.vlog2 (guardOf w) (w.extractLsb' 24 4) (w.extractLsb' 20 4) (w.extractLsb' 14 2) (w.extractLsb' 11 3)))
  | 0x0A => zero (w.extractLsb' 16 4) (.ok (.vrcp (guardOf w) (w.extractLsb' 24 4) (w.extractLsb' 20 4) (w.extractLsb' 14 2) (w.extractLsb' 11 3)))
  | 0x0B => zero (w.extractLsb' 16 4) (.ok (.vrsq (guardOf w) (w.extractLsb' 24 4) (w.extractLsb' 20 4) (w.extractLsb' 14 2) (w.extractLsb' 11 3)))
  | _ => .error .function

/-- Major 0x41 (R99, conversion, selection, masks). -/
def decode41 (w : W32) : Except DecodeError Instr :=
  match (w.extractLsb' 7 4).toNat with
  | 0x00 => zero (w.extractLsb' 19 1) (.ok (.vcvt (guardOf w) (w.extractLsb' 24 4) (w.extractLsb' 20 4) (w.extractLsb' 16 3) (w.extractLsb' 14 2) (w.extractLsb' 11 3)))
  | 0x01 => .ok (.vsel (guardOf w) (w.extractLsb' 24 4) (w.extractLsb' 20 4) (w.extractLsb' 16 4) (w.extractLsb' 14 2) (w.extractLsb' 11 3))
  | 0x02 => .ok (.vshf (guardOf w) (w.extractLsb' 24 4) (w.extractLsb' 20 4) (w.extractLsb' 16 4) (w.extractLsb' 14 2) (w.extractLsb' 11 3))
  | 0x03 => zero (w.extractLsb' 16 8) (.ok (.viota (guardOf w) (w.extractLsb' 24 4) (w.extractLsb' 14 2) (w.extractLsb' 11 3)))
  | 0x04 => zero (w.extractLsb' 11 5) (zero (w.extractLsb' 18 2) (zero (w.extractLsb' 22 2) (zero (w.extractLsb' 26 2) (.ok (.mand (guardOf w) (w.extractLsb' 24 2) (w.extractLsb' 20 2) (w.extractLsb' 16 2))))))
  | 0x05 => zero (w.extractLsb' 11 5) (zero (w.extractLsb' 18 2) (zero (w.extractLsb' 22 2) (zero (w.extractLsb' 26 2) (.ok (.mor (guardOf w) (w.extractLsb' 24 2) (w.extractLsb' 20 2) (w.extractLsb' 16 2))))))
  | 0x06 => zero (w.extractLsb' 11 9) (zero (w.extractLsb' 22 2) (zero (w.extractLsb' 26 2) (.ok (.mnot (guardOf w) (w.extractLsb' 24 2) (w.extractLsb' 20 2)))))
  | _ => .error .function

/-- Major 0x4D (R99, VCMP). -/
def decode4D (w : W32) : Except DecodeError Instr :=
  match (w.extractLsb' 7 4).toNat with
  | 0x00 | 0x01 | 0x02 | 0x03 | 0x04 | 0x05 => zero (w.extractLsb' 26 2) (.ok (.vcmp (guardOf w) (w.extractLsb' 24 2) (w.extractLsb' 20 4) (w.extractLsb' 16 4) (w.extractLsb' 14 2) (w.extractLsb' 11 3) (w.extractLsb' 7 4)))
  | _ => .error .function

/-- Major 0x50 (R100, matrix). -/
def decode50 (w : W32) : Except DecodeError Instr :=
  match (w.extractLsb' 7 3).toNat with
  | 0x00 => zero (w.extractLsb' 10 16) (.ok (.mxZero (guardOf w) (w.extractLsb' 26 2)))
  | 0x01 => .ok (.mxMma (guardOf w) (w.extractLsb' 26 2) (w.extractLsb' 25 1) (w.extractLsb' 20 5) (w.extractLsb' 15 5) (w.extractLsb' 10 5))
  | 0x02 => .ok (.mxRag (guardOf w) (w.extractLsb' 26 2) (w.extractLsb' 25 1) (w.extractLsb' 20 5) (w.extractLsb' 15 5) (w.extractLsb' 10 5))
  | 0x03 => zero (w.extractLsb' 15 5) (zero (w.extractLsb' 25 1) (.ok (.mxLda (guardOf w) (w.extractLsb' 26 2) (w.extractLsb' 20 5) (w.extractLsb' 10 5))))
  | 0x04 => zero (w.extractLsb' 15 5) (zero (w.extractLsb' 25 1) (.ok (.mxSta (guardOf w) (w.extractLsb' 26 2) (w.extractLsb' 20 5) (w.extractLsb' 10 5))))
  | 0x05 => zero (w.extractLsb' 10 15) (.ok (.mxWait (guardOf w) (w.extractLsb' 26 2) (w.extractLsb' 25 1)))
  | 0x06 => zero (w.extractLsb' 10 10) (zero (w.extractLsb' 26 2) (.ok (.mxStat (guardOf w) (w.extractLsb' 25 1) (w.extractLsb' 20 5))))
  | _ => .error .function

/-- Major 0x52 (R100, long accumulator). -/
def decode52 (w : W32) : Except DecodeError Instr :=
  match (w.extractLsb' 7 6).toNat with
  | 0x00 => zero (w.extractLsb' 13 5) (zero (w.extractLsb' 23 5) (.ok (.laClr (guardOf w) (w.extractLsb' 18 5))))
  | 0x01 => .ok (.laAdd (guardOf w) (w.extractLsb' 23 5) (w.extractLsb' 18 5) (w.extractLsb' 13 5))
  | 0x02 => zero (w.extractLsb' 17 1) (.ok (.laAddv (guardOf w) (w.extractLsb' 23 5) (w.extractLsb' 18 5) (w.extractLsb' 13 4)))
  | 0x03 => zero (w.extractLsb' 23 5) (.ok (.laMrg (guardOf w) (w.extractLsb' 18 5) (w.extractLsb' 13 5)))
  | 0x04 => .ok (.laRnd (guardOf w) (w.extractLsb' 23 5) (w.extractLsb' 18 5) (w.extractLsb' 13 5))
  | _ => .error .function

/-- Major 0x58 (R101, channels). -/
def decode58 (w : W32) : Except DecodeError Instr :=
  match (w.extractLsb' 7 6).toNat with
  | 0x00 => .ok (.chNew (guardOf w) (w.extractLsb' 23 5) (w.extractLsb' 18 5) (w.extractLsb' 13 5))
  | 0x01 => zero (w.extractLsb' 23 5) (.ok (.chConn (guardOf w) (w.extractLsb' 18 5) (w.extractLsb' 13 5)))
  | 0x02 => zero (w.extractLsb' 23 5) (.ok (.chSend (guardOf w) (w.extractLsb' 18 5) (w.extractLsb' 13 5)))
  | 0x03 => zero (w.extractLsb' 13 5) (.ok (.chRecv (guardOf w) (w.extractLsb' 23 5) (w.extractLsb' 18 5)))
  | 0x04 => zero (w.extractLsb' 13 5) (.ok (.chOffer (guardOf w) (w.extractLsb' 23 5) (w.extractLsb' 18 5)))
  | 0x05 => zero (w.extractLsb' 23 5) (.ok (.chSelect (guardOf w) (w.extractLsb' 18 5) (w.extractLsb' 13 5)))
  | 0x06 => zero (w.extractLsb' 23 5) (.ok (.chDeleg (guardOf w) (w.extractLsb' 18 5) (w.extractLsb' 13 5)))
  | 0x07 => zero (w.extractLsb' 13 5) (.ok (.chAccept (guardOf w) (w.extractLsb' 23 5) (w.extractLsb' 18 5)))
  | 0x08 => zero (w.extractLsb' 13 5) (zero (w.extractLsb' 23 5) (.ok (.chClose (guardOf w) (w.extractLsb' 18 5))))
  | 0x09 => zero (w.extractLsb' 13 5) (.ok (.chStat (guardOf w) (w.extractLsb' 23 5) (w.extractLsb' 18 5)))
  | 0x0A => zero (w.extractLsb' 13 5) (zero (w.extractLsb' 23 5) (.ok (.chSync (guardOf w) (w.extractLsb' 18 5))))
  | 0x0B => zero (w.extractLsb' 13 5) (zero (w.extractLsb' 23 5) (.ok (.chFree (guardOf w) (w.extractLsb' 18 5))))
  | _ => .error .function

/-- Major 0x59 (R101, tasks). -/
def decode59 (w : W32) : Except DecodeError Instr :=
  match (w.extractLsb' 7 6).toNat with
  | 0x00 => zero (w.extractLsb' 23 5) (.ok (.spawn (guardOf w) (w.extractLsb' 18 5) (w.extractLsb' 13 5)))
  | 0x01 => .ok (.bind (guardOf w) (w.extractLsb' 23 5) (w.extractLsb' 18 5) (w.extractLsb' 13 5))
  | 0x02 => zero (w.extractLsb' 13 5) (zero (w.extractLsb' 23 5) (.ok (.unbind (guardOf w) (w.extractLsb' 18 5))))
  | 0x03 => zero (w.extractLsb' 13 5) (.ok (.launch (guardOf w) (w.extractLsb' 23 5) (w.extractLsb' 18 5)))
  | 0x04 => zero (w.extractLsb' 13 5) (.ok (.jobq (guardOf w) (w.extractLsb' 23 5) (w.extractLsb' 18 5)))
  | 0x05 => zero (w.extractLsb' 23 5) (.ok (.ipGive (guardOf w) (w.extractLsb' 18 5) (w.extractLsb' 13 5)))
  | 0x06 => zero (w.extractLsb' 13 5) (.ok (.ipTake (guardOf w) (w.extractLsb' 23 5) (w.extractLsb' 18 5)))
  | _ => .error .function

/-- Major 0x6A (R102, engines). -/
def decode6A (w : W32) : Except DecodeError Instr :=
  match (w.extractLsb' 7 6).toNat with
  | 0x00 => zero (w.extractLsb' 13 5) (zero (w.extractLsb' 23 5) (.ok (.engGo (guardOf w) (w.extractLsb' 18 5))))
  | 0x01 => zero (w.extractLsb' 13 5) (zero (w.extractLsb' 23 5) (.ok (.engWait (guardOf w) (w.extractLsb' 18 5))))
  | _ => .error .function

/-- Major 0x70 (R102, system). -/
def decode70 (w : W32) : Except DecodeError Instr :=
  match (w.extractLsb' 7 6).toNat with
  | 0x00 => zero (w.extractLsb' 13 15) (.ok (.tret (guardOf w)))
  | 0x01 => zero (w.extractLsb' 13 15) (.ok (.sret (guardOf w)))
  | 0x02 => zero (w.extractLsb' 13 15) (.ok (.brk (guardOf w)))
  | 0x03 => zero (w.extractLsb' 23 5) (.ok (.tlbi (guardOf w) (w.extractLsb' 18 5) (w.extractLsb' 13 5)))
  | 0x04 => zero (w.extractLsb' 26 2) (.ok (.compose (guardOf w) (w.extractLsb' 23 3) (w.extractLsb' 18 5) (w.extractLsb' 13 5)))
  | 0x05 => zero (w.extractLsb' 13 15) (.ok (.release (guardOf w)))
  | 0x06 => zero (w.extractLsb' 13 15) (.ok (.govPin (guardOf w)))
  | 0x07 => zero (w.extractLsb' 13 15) (.ok (.govUnpin (guardOf w)))
  | _ => .error .function

/-- The instruction a word and the word after it hold, before the checks on field values. The major alone selects the format
(R92); every unlisted major is unassigned (R95). -/
def decodeFields (w lit : W32) : Except DecodeError Instr :=
  match (w.extractLsb' 0 7).toNat with
  | 0x01 => decode01 w
  | 0x02 => .ok (.addi (guardOf w) (w.extractLsb' 23 5) (w.extractLsb' 18 5) (w.extractLsb' 7 11))
  | 0x03 => .ok (.andi (guardOf w) (w.extractLsb' 23 5) (w.extractLsb' 18 5) (w.extractLsb' 7 11))
  | 0x04 => .ok (.ori (guardOf w) (w.extractLsb' 23 5) (w.extractLsb' 18 5) (w.extractLsb' 7 11))
  | 0x05 => .ok (.xori (guardOf w) (w.extractLsb' 23 5) (w.extractLsb' 18 5) (w.extractLsb' 7 11))
  | 0x06 => zero (w.extractLsb' 14 4) (.ok (.shli (guardOf w) (w.extractLsb' 23 5) (w.extractLsb' 18 5) (w.extractLsb' 7 7)))
  | 0x07 => zero (w.extractLsb' 14 4) (.ok (.shri (guardOf w) (w.extractLsb' 23 5) (w.extractLsb' 18 5) (w.extractLsb' 7 7)))
  | 0x08 => zero (w.extractLsb' 14 4) (.ok (.sari (guardOf w) (w.extractLsb' 23 5) (w.extractLsb' 18 5) (w.extractLsb' 7 7)))
  | 0x0C => zero (w.extractLsb' 7 16) (.ok (.lit (guardOf w) (w.extractLsb' 23 5) (lit.extractLsb' 0 32)))
  | 0x0D => zero (w.extractLsb' 9 9) (zero (w.extractLsb' 18 5) (.ok (.lith (guardOf w) (w.extractLsb' 23 5) (w.extractLsb' 7 2) (lit.extractLsb' 0 32))))
  | 0x10 => decode10 w
  | 0x11 => zero (w.extractLsb' 26 2) (.ok (.cmpiEq (guardOf w) (w.extractLsb' 23 3) (w.extractLsb' 18 5) (w.extractLsb' 7 11)))
  | 0x12 => zero (w.extractLsb' 26 2) (.ok (.cmpiNe (guardOf w) (w.extractLsb' 23 3) (w.extractLsb' 18 5) (w.extractLsb' 7 11)))
  | 0x13 => zero (w.extractLsb' 26 2) (.ok (.cmpiLt (guardOf w) (w.extractLsb' 23 3) (w.extractLsb' 18 5) (w.extractLsb' 7 11)))
  | 0x14 => zero (w.extractLsb' 26 2) (.ok (.cmpiLe (guardOf w) (w.extractLsb' 23 3) (w.extractLsb' 18 5) (w.extractLsb' 7 11)))
  | 0x15 => zero (w.extractLsb' 26 2) (.ok (.cmpiLtu (guardOf w) (w.extractLsb' 23 3) (w.extractLsb' 18 5) (w.extractLsb' 7 11)))
  | 0x16 => zero (w.extractLsb' 26 2) (.ok (.cmpiLeu (guardOf w) (w.extractLsb' 23 3) (w.extractLsb' 18 5) (w.extractLsb' 7 11)))
  | 0x18 => decode18 w
  | 0x20 => .ok (.ld (guardOf w) (w.extractLsb' 23 5) (w.extractLsb' 18 5) (w.extractLsb' 10 8) (w.extractLsb' 7 3))
  | 0x21 => .ok (.st (guardOf w) (w.extractLsb' 23 5) (w.extractLsb' 18 5) (w.extractLsb' 10 8) (w.extractLsb' 7 3))
  | 0x22 => .ok (.ldc (guardOf w) (w.extractLsb' 23 5) (w.extractLsb' 18 5) (w.extractLsb' 7 11))
  | 0x23 => .ok (.stc (guardOf w) (w.extractLsb' 23 5) (w.extractLsb' 18 5) (w.extractLsb' 7 11))
  | 0x24 => .ok (.lda (guardOf w) (w.extractLsb' 23 5) (w.extractLsb' 18 5) (w.extractLsb' 10 8) (w.extractLsb' 7 3))
  | 0x25 => .ok (.stl (guardOf w) (w.extractLsb' 23 5) (w.extractLsb' 18 5) (w.extractLsb' 10 8) (w.extractLsb' 7 3))
  | 0x26 => zero (w.extractLsb' 25 3) (.ok (.pf (guardOf w) (w.extractLsb' 23 2) (w.extractLsb' 18 5) (w.extractLsb' 7 11)))
  | 0x27 => decode27 w
  | 0x30 => .ok (.amo (guardOf w) (w.extractLsb' 23 5) (w.extractLsb' 18 5) (w.extractLsb' 13 5) (w.extractLsb' 11 2) (w.extractLsb' 7 4))
  | 0x31 => zero (w.extractLsb' 9 4) (.ok (.cas (guardOf w) (w.extractLsb' 23 5) (w.extractLsb' 18 5) (w.extractLsb' 13 5) (w.extractLsb' 7 2)))
  | 0x32 => zero (w.extractLsb' 10 3) (.ok (.stm (guardOf w) (w.extractLsb' 23 5) (w.extractLsb' 18 5) (w.extractLsb' 13 5) (w.extractLsb' 7 3)))
  | 0x33 => .ok (.stred (guardOf w) (w.extractLsb' 23 5) (w.extractLsb' 18 5) (w.extractLsb' 13 5) (w.extractLsb' 10 3) (w.extractLsb' 7 3))
  | 0x34 => decode34 w
  | 0x38 => .ok (.br (guardOf w) (w.extractLsb' 7 21))
  | 0x39 => .ok (.call (guardOf w) (w.extractLsb' 7 21))
  | 0x3A => decode3A w
  | 0x3B => zero (w.extractLsb' 7 11) (zero (w.extractLsb' 23 5) (literal (lit.extractLsb' 20 11) (.ok (.loop (guardOf w) (w.extractLsb' 18 5) (lit.extractLsb' 31 1) (lit.extractLsb' 0 20)))))
  | 0x3C => literal (lit.extractLsb' 20 11) (.ok (.loopi (guardOf w) (w.extractLsb' 23 5) (w.extractLsb' 18 5) (w.extractLsb' 7 11) (lit.extractLsb' 31 1) (lit.extractLsb' 0 20)))
  | 0x3D => zero (w.extractLsb' 7 1) (.ok (.safept (guardOf w) (w.extractLsb' 12 16) (w.extractLsb' 8 4) (lit.extractLsb' 0 32)))
  | 0x40 => decode40 w
  | 0x41 => decode41 w
  | 0x42 => zero (w.extractLsb' 7 1) (.ok (.vld (guardOf w) (w.extractLsb' 24 4) (w.extractLsb' 19 5) (w.extractLsb' 14 5) (w.extractLsb' 12 2) (w.extractLsb' 8 4)))
  | 0x43 => .ok (.vst (guardOf w) (w.extractLsb' 24 4) (w.extractLsb' 19 5) (w.extractLsb' 14 5) (w.extractLsb' 12 2) (w.extractLsb' 8 4) (w.extractLsb' 7 1))
  | 0x44 => zero (w.extractLsb' 7 1) (.ok (.vlds (guardOf w) (w.extractLsb' 24 4) (w.extractLsb' 19 5) (w.extractLsb' 14 5) (w.extractLsb' 12 2) (w.extractLsb' 8 4)))
  | 0x45 => zero (w.extractLsb' 7 1) (zero (w.extractLsb' 18 1) (.ok (.vgath (guardOf w) (w.extractLsb' 24 4) (w.extractLsb' 19 5) (w.extractLsb' 14 4) (w.extractLsb' 12 2) (w.extractLsb' 8 4))))
  | 0x46 => zero (w.extractLsb' 18 1) (.ok (.vscat (guardOf w) (w.extractLsb' 24 4) (w.extractLsb' 19 5) (w.extractLsb' 14 4) (w.extractLsb' 12 2) (w.extractLsb' 8 4) (w.extractLsb' 7 1)))
  | 0x47 => literal (lit.extractLsb' 16 16) (.ok (.vstSeed (guardOf w) (w.extractLsb' 24 4) (w.extractLsb' 19 5) (w.extractLsb' 14 5) (w.extractLsb' 12 2) (w.extractLsb' 8 4) (w.extractLsb' 7 1) (lit.extractLsb' 0 16)))
  | 0x48 => zero (w.extractLsb' 7 1) (zero (w.extractLsb' 13 5) (.ok (.vbcst (guardOf w) (w.extractLsb' 23 5) (w.extractLsb' 18 5) (w.extractLsb' 11 2) (w.extractLsb' 8 3))))
  | 0x49 => zero (w.extractLsb' 7 1) (zero (w.extractLsb' 11 2) (.ok (.vins (guardOf w) (w.extractLsb' 23 5) (w.extractLsb' 18 5) (w.extractLsb' 13 5) (w.extractLsb' 8 3))))
  | 0x4A => zero (w.extractLsb' 7 1) (zero (w.extractLsb' 11 2) (.ok (.vext (guardOf w) (w.extractLsb' 23 5) (w.extractLsb' 18 5) (w.extractLsb' 13 5) (w.extractLsb' 8 3))))
  | 0x4B => zero (w.extractLsb' 7 1) (zero (w.extractLsb' 13 5) (.ok (.vreds (guardOf w) (w.extractLsb' 23 5) (w.extractLsb' 18 5) (w.extractLsb' 11 2) (w.extractLsb' 8 3))))
  | 0x4C => zero (w.extractLsb' 7 1) (zero (w.extractLsb' 13 5) (.ok (.vredm (guardOf w) (w.extractLsb' 23 5) (w.extractLsb' 18 5) (w.extractLsb' 11 2) (w.extractLsb' 8 3))))
  | 0x4D => decode4D w
  | 0x4E => zero (w.extractLsb' 18 1) (literal (lit.extractLsb' 16 16) (.ok (.vscatSeed (guardOf w) (w.extractLsb' 24 4) (w.extractLsb' 19 5) (w.extractLsb' 14 4) (w.extractLsb' 12 2) (w.extractLsb' 8 4) (w.extractLsb' 7 1) (lit.extractLsb' 0 16))))
  | 0x50 => decode50 w
  | 0x51 => if w.extractLsb' 7 3 = 4#3 then zero (w.extractLsb' 15 5) (zero (w.extractLsb' 25 1) (literal (lit.extractLsb' 16 16) (.ok (.mxStaSeed (guardOf w) (w.extractLsb' 26 2) (w.extractLsb' 20 5) (w.extractLsb' 10 5) (lit.extractLsb' 0 16))))) else .error .function
  | 0x52 => decode52 w
  | 0x58 => decode58 w
  | 0x59 => decode59 w
  | 0x5A => zero (w.extractLsb' 10 3) (.ok (.am (guardOf w) (w.extractLsb' 23 5) (w.extractLsb' 18 5) (w.extractLsb' 13 5) (w.extractLsb' 7 3)))
  | 0x68 => .ok (.engW (guardOf w) (w.extractLsb' 23 5) (w.extractLsb' 18 5) (w.extractLsb' 7 11))
  | 0x69 => .ok (.engR (guardOf w) (w.extractLsb' 23 5) (w.extractLsb' 18 5) (w.extractLsb' 7 11))
  | 0x6A => decode6A w
  | 0x70 => decode70 w
  | 0x71 => zero (w.extractLsb' 18 10) (.ok (.trap (guardOf w) (w.extractLsb' 7 11)))
  | 0x72 => zero (w.extractLsb' 19 4) (.ok (.mfs (guardOf w) (w.extractLsb' 23 5) (w.extractLsb' 7 12)))
  | 0x73 => zero (w.extractLsb' 19 4) (.ok (.mts (guardOf w) (w.extractLsb' 23 5) (w.extractLsb' 7 12)))
  | 0x74 => zero (w.extractLsb' 23 5) (.ok (.trcMark (guardOf w) (w.extractLsb' 18 5) (w.extractLsb' 7 11)))
  | _ => .error .major

/-- The system register numbers that exist (R35, R141, R276, R327, R359, R433, R438, R439, R442). -/
def assignedSr (n : Nat) : Bool :=
  n ≤ 0x004 || (0x008 ≤ n && n ≤ 0x015) || (0x020 ≤ n && n ≤ 0x023) || (0x100 ≤ n && n ≤ 0x106) || n = 0x120
    || (0x200 ≤ n && n ≤ 0x21F) || n = 0x400 || (0x402 ≤ n && n ≤ 0x404) || (0x500 ≤ n && n ≤ 0x505)
    || (0x508 ≤ n && n ≤ 0x50C) || (0x510 ≤ n && n ≤ 0x512) || n = 0x600 || n = 0x601 || (0x610 ≤ n && n ≤ 0x613)

/-- The size codes of a store (R97). -/
def storeSize (z : BitVec 3) : Bool := z = 0 || z = 2 || z = 4 || z = 6 || z = 7

/-- Each field holds a value of its set (R88, R96 to R102). -/
def legal : Instr → Bool
  | .add _ _ _ _ => true
  | .sub _ _ _ _ => true
  | .mul _ _ _ _ => true
  | .mulh _ _ _ _ => true
  | .mulhu _ _ _ _ => true
  | .div _ _ _ _ => true
  | .divu _ _ _ _ => true
  | .rem _ _ _ _ => true
  | .remu _ _ _ _ => true
  | .and _ _ _ _ => true
  | .or _ _ _ _ => true
  | .xor _ _ _ _ => true
  | .andn _ _ _ _ => true
  | .shl _ _ _ _ => true
  | .shr _ _ _ _ => true
  | .sar _ _ _ _ => true
  | .min _ _ _ _ => true
  | .max _ _ _ _ => true
  | .minu _ _ _ _ => true
  | .maxu _ _ _ _ => true
  | .clz _ _ _ => true
  | .ctz _ _ _ => true
  | .popc _ _ _ => true
  | .brev _ _ _ => true
  | .sext _ _ _ _ => true
  | .zext _ _ _ _ => true
  | .addi _ _ _ _ => true
  | .andi _ _ _ _ => true
  | .ori _ _ _ _ => true
  | .xori _ _ _ _ => true
  | .shli _ _ _ _ => true
  | .shri _ _ _ _ => true
  | .sari _ _ _ _ => true
  | .lit _ _ _ => true
  | .lith _ _ _ _ => true
  | .cmp _ _ _ _ c => c.toNat ≤ 5
  | .cmpiEq _ _ _ _ => true
  | .cmpiNe _ _ _ _ => true
  | .cmpiLt _ _ _ _ => true
  | .cmpiLe _ _ _ _ => true
  | .cmpiLtu _ _ _ _ => true
  | .cmpiLeu _ _ _ _ => true
  | .pand _ _ _ _ => true
  | .por _ _ _ _ => true
  | .pxor _ _ _ _ => true
  | .pnot _ _ _ => true
  | .pset _ _ _ => true
  | .mov _ _ _ => true
  | .sel _ _ _ _ _ => true
  | .csetb _ _ _ _ => true
  | .crestr _ _ _ _ => true
  | .cadd _ _ _ _ => true
  | .cget _ _ _ f => f.toNat ≤ 5
  | .cclr _ _ _ => true
  | .cseal _ _ _ _ => true
  | .ctest _ _ _ _ => true
  | .ld _ _ _ _ _ => true
  | .st _ _ _ _ z => storeSize z
  | .ldc _ _ _ _ => true
  | .stc _ _ _ _ => true
  | .lda _ _ _ _ z => z = 4 || z = 6 || z = 7
  | .stl _ _ _ _ z => z = 4 || z = 6 || z = 7
  | .pf _ _ _ _ => true
  | .fence _ s => s.toNat ≤ 5
  | .fenceLb _ => true
  | .amo _ _ _ _ w o => o.toNat ≤ 10 && (w = 0 || (w = 1 && o.toNat ≤ 8))
  | .cas _ _ _ _ w => w.toNat ≤ 2
  | .stm _ _ _ _ z => storeSize z
  | .stred _ _ _ _ o z => (z = 4 || z = 6) && o.toNat ≤ 5 && (o ≠ 1 || z = 4)
  | .barArr _ _ => true
  | .barWait _ _ => true
  | .barSync _ _ => true
  | .cntSet _ _ _ => true
  | .cntAdd _ _ _ => true
  | .cntWait _ _ _ => true
  | .br _ _ => true
  | .call _ _ => true
  | .jr _ _ _ => true
  | .endTask _ => true
  | .yield _ => true
  | .nop _ => true
  | .loop _ _ _ _ => true
  | .loopi _ _ _ _ _ _ => true
  | .safept _ _ _ _ => true
  | .vadd _ _ _ _ _ _ => true
  | .vsub _ _ _ _ _ _ => true
  | .vmul _ _ _ _ _ _ => true
  | .vfma _ _ _ _ _ _ => true
  | .vmax _ _ _ _ _ _ => true
  | .vmin _ _ _ _ _ _ => true
  | .vabs _ _ _ _ _ => true
  | .vneg _ _ _ _ _ => true
  | .vexp2 _ _ _ _ t => t.toNat ≤ 2
  | .vlog2 _ _ _ _ t => t.toNat ≤ 2
  | .vrcp _ _ _ _ t => t.toNat ≤ 2
  | .vrsq _ _ _ _ t => t.toNat ≤ 2
  | .vcvt _ _ _ _ _ _ => true
  | .vsel _ _ _ _ _ _ => true
  | .vshf _ _ _ _ _ _ => true
  | .viota _ _ _ t => 4 ≤ t.toNat
  | .mand _ _ _ _ => true
  | .mor _ _ _ _ => true
  | .mnot _ _ _ => true
  | .vld _ _ _ _ _ f => f ≠ 0xF
  | .vst _ _ _ _ _ f _ => f ≠ 0xF
  | .vstSeed _ _ _ _ _ f _ _ => f ≠ 0xF
  | .vlds _ _ _ _ _ f => f ≠ 0xF && f ≠ 0
  | .vgath _ _ _ _ _ f => f ≠ 0xF && f ≠ 0
  | .vscat _ _ _ _ _ f _ => f ≠ 0xF && f ≠ 0
  | .vscatSeed _ _ _ _ _ f _ _ => f ≠ 0xF && f ≠ 0
  | .vbcst _ _ _ _ _ => true
  | .vins _ _ _ _ _ => true
  | .vext _ _ _ _ _ => true
  | .vreds _ _ _ _ _ => true
  | .vredm _ _ _ _ _ => true
  | .vcmp _ _ _ _ _ _ c => c.toNat ≤ 5
  | .vectorLoadUe _ => true
  | .mxZero _ _ => true
  | .mxMma _ _ _ _ _ _ => true
  | .mxRag _ _ _ _ _ _ => true
  | .mxLda _ _ _ _ => true
  | .mxSta _ _ _ _ => true
  | .mxStaSeed _ _ _ _ _ => true
  | .mxWait _ _ _ => true
  | .mxStat _ _ _ => true
  | .matrixOpStart _ => true
  | .matrixTripleBoundary _ => true
  | .matrixOpRetire _ => true
  | .matrixOperandUe _ => true
  | .laClr _ _ => true
  | .laAdd _ f _ _ => f = 0x1 || f = 0x2 || f = 0xA
  | .laAddv _ f _ _ => f = 0x1 || f = 0xA
  | .laMrg _ _ _ => true
  | .laRnd _ _ _ f => f = 0x1 || f = 0xA
  | .chNew _ _ _ _ => true
  | .chConn _ _ _ => true
  | .chSend _ _ _ => true
  | .chRecv _ _ _ => true
  | .chOffer _ _ _ => true
  | .chSelect _ _ _ => true
  | .chDeleg _ _ _ => true
  | .chAccept _ _ _ => true
  | .chClose _ _ => true
  | .chStat _ _ _ => true
  | .chSync _ _ => true
  | .chFree _ _ => true
  | .spawn _ _ _ => true
  | .bind _ _ _ _ => true
  | .unbind _ _ => true
  | .launch _ _ _ => true
  | .jobq _ _ _ => true
  | .ipGive _ _ _ => true
  | .ipTake _ _ _ => true
  | .am _ d _ _ n => n.toNat ≤ 6 && (n ≠ 0 || d = 0) && d.toNat + n.toNat ≤ 32
  | .engW _ _ e i => (e = 0 && i.toNat ≤ 4) || (e = 1 && i.toNat ≤ 5)
  | .engR _ _ e i => (e = 0 || e = 1) && i.toNat ≤ 3
  | .engGo _ e => e = 0 || e = 1
  | .engWait _ e => e = 0 || e = 1
  | .engineSwap _ => true
  | .engineCompletion _ => true
  | .engineFault _ => true
  | .engineBusError _ => true
  | .engineUe _ => true
  | .exchangeJoin _ _ => true
  | .exchangeNote _ _ => true
  | .tret _ => true
  | .sret _ => true
  | .brk _ => true
  | .tlbi _ _ k => k.toNat ≤ 3
  | .compose _ _ _ _ => true
  | .towerForm _ => true
  | .composeTimeout _ => true
  | .release _ => true
  | .govPin _ => true
  | .govUnpin _ => true
  | .trap _ _ => true
  | .mfs _ _ s => assignedSr s.toNat
  | .mts _ _ s => assignedSr s.toNat
  | .trcMark _ _ _ => true
  | .asyncTrapEntry _ => true
  | .handlerBudget _ => true
  | .postedAtomicUe _ => true
  | .pageFaultPark _ => true
  | .fbStatWrite _ _ => true
  | .replayAll _ => true
  | .replayRerun _ => true
  | .migrationShip _ => true
  | .migrationArrival _ => true
  | .taskMessageArrival _ => true
  | .taskAdmission _ => true
  | .quantumExpiry _ => true
  | .spireLaunchRequest => true
  | .jobDealStart => true
  | .groupDelivery _ _ => true
  | .freeCountReport _ => true
  | .lqTailWrite _ => true
  | .hostLaunchRecord => true
  | .jobCtlNone _ => true
  | .jobPreempt _ => true
  | .jobResume _ => true
  | .jobKill _ => true
  | .preemptArrival _ _ => true
  | .preemptDeadline _ => true
  | .sendQueueInject _ => true
  | .slotReturnSend _ _ => true
  | .channelMessageArrival _ => true
  | .connectArrival _ => true
  | .connectAnswer _ => true
  | .slotReturn _ => true
  | .resyncWord _ => true
  | .resyncTimeout _ _ => true
  | .closeMessageArrival _ => true
  | .closeAckArrival _ => true
  | .failureNotification _ => true
  | .movedArrival _ => true
  | .markArrivalOld _ => true
  | .markArrivalNew _ => true
  | .replySinkRelease _ => true
  | .podPortDiscard _ => true
  | .podErrorReply _ => true
  | .podArrival _ _ => true
  | .linkReplay _ => true
  | .linkDown _ => true
  | .alogEnable _ => true
  | .alogReplayStart _ => true
  | .replayReinject => true
  | .ctEntryWrite _ _ => true
  | .circuitUp _ => true
  | .twAdopt _ _ => true
  | .tilePeerRequest _ _ => true
  | .tilePeerSend _ _ => true
  | .tilePeerWrite _ _ => true
  | .rdmaWrite _ => true
  | .rdmaRead _ => true
  | .rdmaUnsupported _ => true
  | .pfcPause _ _ _ => true
  | .qpContextWrite _ _ _ _ => true
  | .dbgCmdNone _ => true
  | .dbgStop _ => true
  | .dbgResume _ => true
  | .dbgStep _ => true
  | .slogEnable _ => true
  | .slogDisable _ => true
  | .rampSlotBoundary => true
  | .powerOnReset => true
  | .bootPhaseAdvance _ => true
  | .hbmTrainingDone => true
  | .fullServiceStart => true
  | .recoveryImage _ => true
  | .attestIdentityRequest _ => true
  | .attestReportRequest _ => true
  | .thermalThrottle _ => true
  | .thermalRestore => true
  | .thermalClockStop _ => true
  | .controlRegisterWrite _ _ _ _ _ => true
  | .vectorQueueExecute _ => true
  | .writeAcknowledgement _ => true
  | .ethernetLinkChange _ _ => true
  | .pfcPauseExpiry _ => true
  | .powerLoss => true
  | .packageReset => true

/-- Bits [31:28] of an instruction word (R87). -/
def guardBits (g : Guard) : BitVec 4 := BitVec.ofBool g.neg ++ g.p

/-- The words of an instruction: its fields from bit 31 down (R92, R96 to R102), then its literal word if it has one. An event
row has no word. -/
def encode : Instr → List W32
  | .add g d a b => [guardBits g ++ d ++ a ++ b ++ 0x0#6 ++ 0x1#7]
  | .sub g d a b => [guardBits g ++ d ++ a ++ b ++ 0x1#6 ++ 0x1#7]
  | .mul g d a b => [guardBits g ++ d ++ a ++ b ++ 0x2#6 ++ 0x1#7]
  | .mulh g d a b => [guardBits g ++ d ++ a ++ b ++ 0x3#6 ++ 0x1#7]
  | .mulhu g d a b => [guardBits g ++ d ++ a ++ b ++ 0x4#6 ++ 0x1#7]
  | .div g d a b => [guardBits g ++ d ++ a ++ b ++ 0x5#6 ++ 0x1#7]
  | .divu g d a b => [guardBits g ++ d ++ a ++ b ++ 0x6#6 ++ 0x1#7]
  | .rem g d a b => [guardBits g ++ d ++ a ++ b ++ 0x7#6 ++ 0x1#7]
  | .remu g d a b => [guardBits g ++ d ++ a ++ b ++ 0x8#6 ++ 0x1#7]
  | .and g d a b => [guardBits g ++ d ++ a ++ b ++ 0x10#6 ++ 0x1#7]
  | .or g d a b => [guardBits g ++ d ++ a ++ b ++ 0x11#6 ++ 0x1#7]
  | .xor g d a b => [guardBits g ++ d ++ a ++ b ++ 0x12#6 ++ 0x1#7]
  | .andn g d a b => [guardBits g ++ d ++ a ++ b ++ 0x13#6 ++ 0x1#7]
  | .shl g d a b => [guardBits g ++ d ++ a ++ b ++ 0x18#6 ++ 0x1#7]
  | .shr g d a b => [guardBits g ++ d ++ a ++ b ++ 0x19#6 ++ 0x1#7]
  | .sar g d a b => [guardBits g ++ d ++ a ++ b ++ 0x1A#6 ++ 0x1#7]
  | .min g d a b => [guardBits g ++ d ++ a ++ b ++ 0x20#6 ++ 0x1#7]
  | .max g d a b => [guardBits g ++ d ++ a ++ b ++ 0x21#6 ++ 0x1#7]
  | .minu g d a b => [guardBits g ++ d ++ a ++ b ++ 0x22#6 ++ 0x1#7]
  | .maxu g d a b => [guardBits g ++ d ++ a ++ b ++ 0x23#6 ++ 0x1#7]
  | .clz g d a => [guardBits g ++ d ++ a ++ 0x0#5 ++ 0x28#6 ++ 0x1#7]
  | .ctz g d a => [guardBits g ++ d ++ a ++ 0x0#5 ++ 0x29#6 ++ 0x1#7]
  | .popc g d a => [guardBits g ++ d ++ a ++ 0x0#5 ++ 0x2A#6 ++ 0x1#7]
  | .brev g d a => [guardBits g ++ d ++ a ++ 0x0#5 ++ 0x2B#6 ++ 0x1#7]
  | .sext g d a w => [guardBits g ++ d ++ a ++ 0x0#3 ++ w ++ 0x2C#6 ++ 0x1#7]
  | .zext g d a w => [guardBits g ++ d ++ a ++ 0x0#3 ++ w ++ 0x2D#6 ++ 0x1#7]
  | .addi g d a i => [guardBits g ++ d ++ a ++ i ++ 0x2#7]
  | .andi g d a i => [guardBits g ++ d ++ a ++ i ++ 0x3#7]
  | .ori g d a i => [guardBits g ++ d ++ a ++ i ++ 0x4#7]
  | .xori g d a i => [guardBits g ++ d ++ a ++ i ++ 0x5#7]
  | .shli g d a n => [guardBits g ++ d ++ a ++ 0x0#4 ++ n ++ 0x6#7]
  | .shri g d a n => [guardBits g ++ d ++ a ++ 0x0#4 ++ n ++ 0x7#7]
  | .sari g d a n => [guardBits g ++ d ++ a ++ 0x0#4 ++ n ++ 0x8#7]
  | .lit g d lit => [guardBits g ++ d ++ 0#16 ++ 0x0C#7, lit]
  | .lith g d q lit => [guardBits g ++ d ++ 0#5 ++ 0#9 ++ q ++ 0x0D#7, lit]
  | .cmp g p a b c => [guardBits g ++ 0x0#2 ++ p ++ a ++ b ++ 0x0#3 ++ c ++ 0x10#7]
  | .cmpiEq g p a i => [guardBits g ++ 0x0#2 ++ p ++ a ++ i ++ 0x11#7]
  | .cmpiNe g p a i => [guardBits g ++ 0x0#2 ++ p ++ a ++ i ++ 0x12#7]
  | .cmpiLt g p a i => [guardBits g ++ 0x0#2 ++ p ++ a ++ i ++ 0x13#7]
  | .cmpiLe g p a i => [guardBits g ++ 0x0#2 ++ p ++ a ++ i ++ 0x14#7]
  | .cmpiLtu g p a i => [guardBits g ++ 0x0#2 ++ p ++ a ++ i ++ 0x15#7]
  | .cmpiLeu g p a i => [guardBits g ++ 0x0#2 ++ p ++ a ++ i ++ 0x16#7]
  | .pand g p q r => [guardBits g ++ 0x0#2 ++ p ++ 0x0#2 ++ q ++ 0x0#2 ++ r ++ 0x8#6 ++ 0x10#7]
  | .por g p q r => [guardBits g ++ 0x0#2 ++ p ++ 0x0#2 ++ q ++ 0x0#2 ++ r ++ 0x9#6 ++ 0x10#7]
  | .pxor g p q r => [guardBits g ++ 0x0#2 ++ p ++ 0x0#2 ++ q ++ 0x0#2 ++ r ++ 0xA#6 ++ 0x10#7]
  | .pnot g p q => [guardBits g ++ 0x0#2 ++ p ++ 0x0#2 ++ q ++ 0x0#5 ++ 0xB#6 ++ 0x10#7]
  | .pset g p b => [guardBits g ++ 0x0#2 ++ p ++ 0x0#9 ++ b ++ 0xC#6 ++ 0x10#7]
  | .mov g d a => [guardBits g ++ d ++ a ++ 0x0#5 ++ 0x10#6 ++ 0x10#7]
  | .sel g d a b c => [guardBits g ++ d ++ a ++ b ++ 0x3#3 ++ c ++ 0x10#7]
  | .csetb g d a b => [guardBits g ++ d ++ a ++ b ++ 0x0#6 ++ 0x18#7]
  | .crestr g d a b => [guardBits g ++ d ++ a ++ b ++ 0x1#6 ++ 0x18#7]
  | .cadd g d a b => [guardBits g ++ d ++ a ++ b ++ 0x2#6 ++ 0x18#7]
  | .cget g d a f => [guardBits g ++ d ++ a ++ f ++ 0x3#6 ++ 0x18#7]
  | .cclr g d a => [guardBits g ++ d ++ a ++ 0x0#5 ++ 0x4#6 ++ 0x18#7]
  | .cseal g d a k => [guardBits g ++ d ++ a ++ 0x0#3 ++ k ++ 0x5#6 ++ 0x18#7]
  | .ctest g p a b => [guardBits g ++ 0x0#2 ++ p ++ a ++ b ++ 0x6#6 ++ 0x18#7]
  | .ld g d a o z => [guardBits g ++ d ++ a ++ o ++ z ++ 0x20#7]
  | .st g d a o z => [guardBits g ++ d ++ a ++ o ++ z ++ 0x21#7]
  | .ldc g d a i => [guardBits g ++ d ++ a ++ i ++ 0x22#7]
  | .stc g d a i => [guardBits g ++ d ++ a ++ i ++ 0x23#7]
  | .lda g d a o z => [guardBits g ++ d ++ a ++ o ++ z ++ 0x24#7]
  | .stl g d a o z => [guardBits g ++ d ++ a ++ o ++ z ++ 0x25#7]
  | .pf g h a i => [guardBits g ++ 0x0#3 ++ h ++ a ++ i ++ 0x26#7]
  | .fence g s => [guardBits g ++ 0x0#10 ++ s ++ 0x0#6 ++ 0x27#7]
  | .fenceLb g => [guardBits g ++ 0x0#15 ++ 0x1#6 ++ 0x27#7]
  | .amo g d a b w o => [guardBits g ++ d ++ a ++ b ++ w ++ o ++ 0x30#7]
  | .cas g d a b w => [guardBits g ++ d ++ a ++ b ++ 0x0#4 ++ w ++ 0x31#7]
  | .stm g d a b z => [guardBits g ++ d ++ a ++ b ++ 0x0#3 ++ z ++ 0x32#7]
  | .stred g d a b o z => [guardBits g ++ d ++ a ++ b ++ o ++ z ++ 0x33#7]
  | .barArr g n => [guardBits g ++ 0x0#11 ++ n ++ 0x0#6 ++ 0x34#7]
  | .barWait g n => [guardBits g ++ 0x0#11 ++ n ++ 0x1#6 ++ 0x34#7]
  | .barSync g n => [guardBits g ++ 0x0#11 ++ n ++ 0x2#6 ++ 0x34#7]
  | .cntSet g a n => [guardBits g ++ 0x0#5 ++ a ++ 0x0#1 ++ n ++ 0x3#6 ++ 0x34#7]
  | .cntAdd g a n => [guardBits g ++ 0x0#5 ++ a ++ 0x0#1 ++ n ++ 0x4#6 ++ 0x34#7]
  | .cntWait g a n => [guardBits g ++ 0x0#5 ++ a ++ 0x0#1 ++ n ++ 0x5#6 ++ 0x34#7]
  | .br g x => [guardBits g ++ x ++ 0x38#7]
  | .call g x => [guardBits g ++ x ++ 0x39#7]
  | .jr g d a => [guardBits g ++ d ++ a ++ 0x0#5 ++ 0x0#6 ++ 0x3A#7]
  | .endTask g => [guardBits g ++ 0x0#15 ++ 0x1#6 ++ 0x3A#7]
  | .yield g => [guardBits g ++ 0x0#15 ++ 0x2#6 ++ 0x3A#7]
  | .nop g => [guardBits g ++ 0x0#15 ++ 0x3#6 ++ 0x3A#7]
  | .loop g a n dist => [guardBits g ++ 0#5 ++ a ++ 0#11 ++ 0x3B#7, n ++ 0#11 ++ dist]
  | .loopi g d a step n dist => [guardBits g ++ d ++ a ++ step ++ 0x3C#7, n ++ 0#11 ++ dist]
  | .safept g vmap amap gmap => [guardBits g ++ vmap ++ amap ++ 0#1 ++ 0x3D#7, gmap]
  | .vadd g d a b m t => [guardBits g ++ d ++ a ++ b ++ m ++ t ++ 0x0#4 ++ 0x40#7]
  | .vsub g d a b m t => [guardBits g ++ d ++ a ++ b ++ m ++ t ++ 0x1#4 ++ 0x40#7]
  | .vmul g d a b m t => [guardBits g ++ d ++ a ++ b ++ m ++ t ++ 0x2#4 ++ 0x40#7]
  | .vfma g d a b m t => [guardBits g ++ d ++ a ++ b ++ m ++ t ++ 0x3#4 ++ 0x40#7]
  | .vmax g d a b m t => [guardBits g ++ d ++ a ++ b ++ m ++ t ++ 0x4#4 ++ 0x40#7]
  | .vmin g d a b m t => [guardBits g ++ d ++ a ++ b ++ m ++ t ++ 0x5#4 ++ 0x40#7]
  | .vabs g d a m t => [guardBits g ++ d ++ a ++ 0x0#4 ++ m ++ t ++ 0x6#4 ++ 0x40#7]
  | .vneg g d a m t => [guardBits g ++ d ++ a ++ 0x0#4 ++ m ++ t ++ 0x7#4 ++ 0x40#7]
  | .vexp2 g d a m t => [guardBits g ++ d ++ a ++ 0x0#4 ++ m ++ t ++ 0x8#4 ++ 0x40#7]
  | .vlog2 g d a m t => [guardBits g ++ d ++ a ++ 0x0#4 ++ m ++ t ++ 0x9#4 ++ 0x40#7]
  | .vrcp g d a m t => [guardBits g ++ d ++ a ++ 0x0#4 ++ m ++ t ++ 0xA#4 ++ 0x40#7]
  | .vrsq g d a m t => [guardBits g ++ d ++ a ++ 0x0#4 ++ m ++ t ++ 0xB#4 ++ 0x40#7]
  | .vcvt g d a s m t => [guardBits g ++ d ++ a ++ 0x0#1 ++ s ++ m ++ t ++ 0x0#4 ++ 0x41#7]
  | .vsel g d a b m t => [guardBits g ++ d ++ a ++ b ++ m ++ t ++ 0x1#4 ++ 0x41#7]
  | .vshf g d a b m t => [guardBits g ++ d ++ a ++ b ++ m ++ t ++ 0x2#4 ++ 0x41#7]
  | .viota g d m t => [guardBits g ++ d ++ 0x0#8 ++ m ++ t ++ 0x3#4 ++ 0x41#7]
  | .mand g d a b => [guardBits g ++ 0x0#2 ++ d ++ 0x0#2 ++ a ++ 0x0#2 ++ b ++ 0x0#5 ++ 0x4#4 ++ 0x41#7]
  | .mor g d a b => [guardBits g ++ 0x0#2 ++ d ++ 0x0#2 ++ a ++ 0x0#2 ++ b ++ 0x0#5 ++ 0x5#4 ++ 0x41#7]
  | .mnot g d a => [guardBits g ++ 0x0#2 ++ d ++ 0x0#2 ++ a ++ 0x0#9 ++ 0x6#4 ++ 0x41#7]
  | .vld g d a x m f => [guardBits g ++ d ++ a ++ x ++ m ++ f ++ 0x0#1 ++ 0x42#7]
  | .vst g d a x m f s => [guardBits g ++ d ++ a ++ x ++ m ++ f ++ s ++ 0x43#7]
  | .vstSeed g d a x m f s seed => [guardBits g ++ d ++ a ++ x ++ m ++ f ++ s ++ 0x47#7, 0#16 ++ seed]
  | .vlds g d a x m f => [guardBits g ++ d ++ a ++ x ++ m ++ f ++ 0x0#1 ++ 0x44#7]
  | .vgath g d a v m f => [guardBits g ++ d ++ a ++ 0x0#1 ++ v ++ m ++ f ++ 0x0#1 ++ 0x45#7]
  | .vscat g d a v m f s => [guardBits g ++ d ++ a ++ 0x0#1 ++ v ++ m ++ f ++ s ++ 0x46#7]
  | .vscatSeed g d a v m f s seed => [guardBits g ++ d ++ a ++ 0#1 ++ v ++ m ++ f ++ s ++ 0x4E#7, 0#16 ++ seed]
  | .vbcst g d a m t => [guardBits g ++ d ++ a ++ 0x0#5 ++ m ++ t ++ 0x0#1 ++ 0x48#7]
  | .vins g d a b t => [guardBits g ++ d ++ a ++ b ++ 0x0#2 ++ t ++ 0x0#1 ++ 0x49#7]
  | .vext g d a b t => [guardBits g ++ d ++ a ++ b ++ 0x0#2 ++ t ++ 0x0#1 ++ 0x4A#7]
  | .vreds g d a m t => [guardBits g ++ d ++ a ++ 0x0#5 ++ m ++ t ++ 0x0#1 ++ 0x4B#7]
  | .vredm g d a m t => [guardBits g ++ d ++ a ++ 0x0#5 ++ m ++ t ++ 0x0#1 ++ 0x4C#7]
  | .vcmp g d a b m t c => [guardBits g ++ 0x0#2 ++ d ++ a ++ b ++ m ++ t ++ c ++ 0x4D#7]
  | .vectorLoadUe _ => []
  | .mxZero g c => [guardBits g ++ c ++ 0x0#16 ++ 0x0#3 ++ 0x50#7]
  | .mxMma g c q a b d => [guardBits g ++ c ++ q ++ a ++ b ++ d ++ 0x1#3 ++ 0x50#7]
  | .mxRag g c q a b d => [guardBits g ++ c ++ q ++ a ++ b ++ d ++ 0x2#3 ++ 0x50#7]
  | .mxLda g c a d => [guardBits g ++ c ++ 0x0#1 ++ a ++ 0x0#5 ++ d ++ 0x3#3 ++ 0x50#7]
  | .mxSta g c a d => [guardBits g ++ c ++ 0x0#1 ++ a ++ 0x0#5 ++ d ++ 0x4#3 ++ 0x50#7]
  | .mxStaSeed g c a d seed => [guardBits g ++ c ++ 0#1 ++ a ++ 0#5 ++ d ++ 4#3 ++ 0x51#7, 0#16 ++ seed]
  | .mxWait g c q => [guardBits g ++ c ++ q ++ 0x0#15 ++ 0x5#3 ++ 0x50#7]
  | .mxStat g q a => [guardBits g ++ 0x0#2 ++ q ++ a ++ 0x0#10 ++ 0x6#3 ++ 0x50#7]
  | .matrixOpStart _ => []
  | .matrixTripleBoundary _ => []
  | .matrixOpRetire _ => []
  | .matrixOperandUe _ => []
  | .laClr g a => [guardBits g ++ 0x0#5 ++ a ++ 0x0#5 ++ 0x0#6 ++ 0x52#7]
  | .laAdd g f a b => [guardBits g ++ f ++ a ++ b ++ 0x1#6 ++ 0x52#7]
  | .laAddv g f a v => [guardBits g ++ f ++ a ++ 0x0#1 ++ v ++ 0x2#6 ++ 0x52#7]
  | .laMrg g a b => [guardBits g ++ 0x0#5 ++ a ++ b ++ 0x3#6 ++ 0x52#7]
  | .laRnd g d a f => [guardBits g ++ d ++ a ++ f ++ 0x4#6 ++ 0x52#7]
  | .chNew g d a b => [guardBits g ++ d ++ a ++ b ++ 0x0#6 ++ 0x58#7]
  | .chConn g a b => [guardBits g ++ 0x0#5 ++ a ++ b ++ 0x1#6 ++ 0x58#7]
  | .chSend g a b => [guardBits g ++ 0x0#5 ++ a ++ b ++ 0x2#6 ++ 0x58#7]
  | .chRecv g d a => [guardBits g ++ d ++ a ++ 0x0#5 ++ 0x3#6 ++ 0x58#7]
  | .chOffer g d a => [guardBits g ++ d ++ a ++ 0x0#5 ++ 0x4#6 ++ 0x58#7]
  | .chSelect g a b => [guardBits g ++ 0x0#5 ++ a ++ b ++ 0x5#6 ++ 0x58#7]
  | .chDeleg g a b => [guardBits g ++ 0x0#5 ++ a ++ b ++ 0x6#6 ++ 0x58#7]
  | .chAccept g d a => [guardBits g ++ d ++ a ++ 0x0#5 ++ 0x7#6 ++ 0x58#7]
  | .chClose g a => [guardBits g ++ 0x0#5 ++ a ++ 0x0#5 ++ 0x8#6 ++ 0x58#7]
  | .chStat g d a => [guardBits g ++ d ++ a ++ 0x0#5 ++ 0x9#6 ++ 0x58#7]
  | .chSync g a => [guardBits g ++ 0x0#5 ++ a ++ 0x0#5 ++ 0xA#6 ++ 0x58#7]
  | .chFree g a => [guardBits g ++ 0x0#5 ++ a ++ 0x0#5 ++ 0xB#6 ++ 0x58#7]
  | .spawn g a b => [guardBits g ++ 0x0#5 ++ a ++ b ++ 0x0#6 ++ 0x59#7]
  | .bind g d a b => [guardBits g ++ d ++ a ++ b ++ 0x1#6 ++ 0x59#7]
  | .unbind g a => [guardBits g ++ 0x0#5 ++ a ++ 0x0#5 ++ 0x2#6 ++ 0x59#7]
  | .launch g d a => [guardBits g ++ d ++ a ++ 0x0#5 ++ 0x3#6 ++ 0x59#7]
  | .jobq g d a => [guardBits g ++ d ++ a ++ 0x0#5 ++ 0x4#6 ++ 0x59#7]
  | .ipGive g a b => [guardBits g ++ 0x0#5 ++ a ++ b ++ 0x5#6 ++ 0x59#7]
  | .ipTake g d a => [guardBits g ++ d ++ a ++ 0x0#5 ++ 0x6#6 ++ 0x59#7]
  | .am g d a b n => [guardBits g ++ d ++ a ++ b ++ 0x0#3 ++ n ++ 0x5A#7]
  | .engW g d e i => [guardBits g ++ d ++ e ++ i ++ 0x68#7]
  | .engR g d e i => [guardBits g ++ d ++ e ++ i ++ 0x69#7]
  | .engGo g e => [guardBits g ++ 0x0#5 ++ e ++ 0x0#5 ++ 0x0#6 ++ 0x6A#7]
  | .engWait g e => [guardBits g ++ 0x0#5 ++ e ++ 0x0#5 ++ 0x1#6 ++ 0x6A#7]
  | .engineSwap _ => []
  | .engineCompletion _ => []
  | .engineFault _ => []
  | .engineBusError _ => []
  | .engineUe _ => []
  | .exchangeJoin _ _ => []
  | .exchangeNote _ _ => []
  | .tret g => [guardBits g ++ 0x0#15 ++ 0x0#6 ++ 0x70#7]
  | .sret g => [guardBits g ++ 0x0#15 ++ 0x1#6 ++ 0x70#7]
  | .brk g => [guardBits g ++ 0x0#15 ++ 0x2#6 ++ 0x70#7]
  | .tlbi g a k => [guardBits g ++ 0x0#5 ++ a ++ k ++ 0x3#6 ++ 0x70#7]
  | .compose g p a b => [guardBits g ++ 0x0#2 ++ p ++ a ++ b ++ 0x4#6 ++ 0x70#7]
  | .towerForm _ => []
  | .composeTimeout _ => []
  | .release g => [guardBits g ++ 0x0#15 ++ 0x5#6 ++ 0x70#7]
  | .govPin g => [guardBits g ++ 0x0#15 ++ 0x6#6 ++ 0x70#7]
  | .govUnpin g => [guardBits g ++ 0x0#15 ++ 0x7#6 ++ 0x70#7]
  | .trap g i => [guardBits g ++ 0x0#10 ++ i ++ 0x71#7]
  | .mfs g d s => [guardBits g ++ d ++ 0x0#4 ++ s ++ 0x72#7]
  | .mts g a s => [guardBits g ++ a ++ 0x0#4 ++ s ++ 0x73#7]
  | .trcMark g a i => [guardBits g ++ 0x0#5 ++ a ++ i ++ 0x74#7]
  | .asyncTrapEntry _ => []
  | .handlerBudget _ => []
  | .postedAtomicUe _ => []
  | .pageFaultPark _ => []
  | .fbStatWrite _ _ => []
  | .replayAll _ => []
  | .replayRerun _ => []
  | .migrationShip _ => []
  | .migrationArrival _ => []
  | .taskMessageArrival _ => []
  | .taskAdmission _ => []
  | .quantumExpiry _ => []
  | .spireLaunchRequest => []
  | .jobDealStart => []
  | .groupDelivery _ _ => []
  | .freeCountReport _ => []
  | .lqTailWrite _ => []
  | .hostLaunchRecord => []
  | .jobCtlNone _ => []
  | .jobPreempt _ => []
  | .jobResume _ => []
  | .jobKill _ => []
  | .preemptArrival _ _ => []
  | .preemptDeadline _ => []
  | .sendQueueInject _ => []
  | .slotReturnSend _ _ => []
  | .channelMessageArrival _ => []
  | .connectArrival _ => []
  | .connectAnswer _ => []
  | .slotReturn _ => []
  | .resyncWord _ => []
  | .resyncTimeout _ _ => []
  | .closeMessageArrival _ => []
  | .closeAckArrival _ => []
  | .failureNotification _ => []
  | .movedArrival _ => []
  | .markArrivalOld _ => []
  | .markArrivalNew _ => []
  | .replySinkRelease _ => []
  | .podPortDiscard _ => []
  | .podErrorReply _ => []
  | .podArrival _ _ => []
  | .linkReplay _ => []
  | .linkDown _ => []
  | .alogEnable _ => []
  | .alogReplayStart _ => []
  | .replayReinject => []
  | .ctEntryWrite _ _ => []
  | .circuitUp _ => []
  | .twAdopt _ _ => []
  | .tilePeerRequest _ _ => []
  | .tilePeerSend _ _ => []
  | .tilePeerWrite _ _ => []
  | .rdmaWrite _ => []
  | .rdmaRead _ => []
  | .rdmaUnsupported _ => []
  | .pfcPause _ _ _ => []
  | .qpContextWrite _ _ _ _ => []
  | .dbgCmdNone _ => []
  | .dbgStop _ => []
  | .dbgResume _ => []
  | .dbgStep _ => []
  | .slogEnable _ => []
  | .slogDisable _ => []
  | .rampSlotBoundary => []
  | .powerOnReset => []
  | .bootPhaseAdvance _ => []
  | .hbmTrainingDone => []
  | .fullServiceStart => []
  | .recoveryImage _ => []
  | .attestIdentityRequest _ => []
  | .attestReportRequest _ => []
  | .thermalThrottle _ => []
  | .thermalRestore => []
  | .thermalClockStop _ => []
  | .controlRegisterWrite _ _ _ _ _ => []
  | .vectorQueueExecute _ => []
  | .writeAcknowledgement _ => []
  | .ethernetLinkChange _ _ => []
  | .pfcPauseExpiry _ => []
  | .powerLoss => []
  | .packageReset => []

/-- Whether a major opcode takes a literal word (R92). -/
def hasLiteral (w : W32) : Bool :=
  match (w.extractLsb' 0 7).toNat with
  | 0x0C | 0x0D | 0x3B | 0x3C | 0x3D | 0x47 | 0x4E | 0x51 => true
  | _ => false

/-- The instruction that a word and the word after it hold, or why they hold none (R88). -/
def decode (w lit : W32) : Except DecodeError Instr :=
  match decodeFields w lit with
  | .error e => .error e
  | .ok i => if legal i then .ok i else .error .value

/-- A little-endian word of four bytes (R7). -/
def wordOfBytes (b0 b1 b2 b3 : Byte) : W32 := b3 ++ b2 ++ b1 ++ b0

/-- The bytes of a word as memory holds it (R7, R86). -/
def bytesOfWord (w : W32) : List Byte :=
  [w.extractLsb' 0 8, w.extractLsb' 8 8, w.extractLsb' 16 8, w.extractLsb' 24 8]

/-- Decoding the bytes at an instruction address: the instruction and the bytes after it. -/
def decodeBytes : List Byte → Except DecodeError (Instr × List Byte)
  | b0 :: b1 :: b2 :: b3 :: rest =>
    let w := wordOfBytes b0 b1 b2 b3
    if hasLiteral w then
      match rest with
      | c0 :: c1 :: c2 :: c3 :: rest' =>
        match decode w (wordOfBytes c0 c1 c2 c3) with
        | .ok i => .ok (i, rest')
        | .error e => .error e
      | _ => .error .truncated
    else
      match decode w 0 with
      | .ok i => .ok (i, rest)
      | .error e => .error e
  | _ => .error .truncated

/-- The bytes of an instruction whose bits are numbered as spec/opcode_table.json numbers them: two words, little-endian,
every bit above nbits zero. -/
def tableBytes (nbits w : Nat) : List Byte :=
  let w := w % 2 ^ nbits
  bytesOfWord (BitVec.ofNat 32 w) ++ bytesOfWord (BitVec.ofNat 32 (w / 2 ^ 32))

/-- The instruction the decoder reads from a word of the opcode table. An event row has no word. -/
def decodeTableWord (nbits w : Nat) : Option Instr :=
  match decodeBytes (tableBytes nbits w) with
  | .ok (i, _) => some i
  | .error _ => none

end Sys2Proof
end

