-- ==== Sys2Proof/Machine/EngRegs.lean ====
section
/-! DEFINITION. The registers of the engines' shadow sets (R279, R283, R284), which of them are invalid (R280, R409), and the ranges that
a set names (R174, R280, R409, R499). -/

namespace Sys2Proof.Machine

/-- A shadow register. -/
def engReg (r : Sparse GVal) (i : Nat) : GVal := sget .zero r i

/-- The permission that a capability register needs (R283, R284). -/
def engPerm (e : Bool) (i : Nat) : Option Byte :=
  match e, i with
  | false, 0 => some permLd
  | false, 1 | false, 2 | false, 4 => some permSt
  | true, 1 => some permSt
  | true, 0 | true, 2 | true, 3 | true, 4 => some permLd
  | _, _ => none

/-- Where a capability register points: a W0 cursor is the core's scratchpad, untranslated (R279). -/
def engAddr (core : Nat) (v : GVal) : Nat × Bool :=
  let c := (cursor v.bits).toNat
  if c < 0x100000 then (spadPa core + c, true) else (c, false)

/-- RT_CFG (R283). -/
structure RtCfg where
  ntok : Nat
  topk : Nat
  nexp : Nat
  add : Bool
  slot : BitVec 4
  note : Bool
  deriving DecidableEq, Repr

def rtCfg (r : Sparse GVal) : RtCfg :=
  let w := (engReg r 3).bits
  { ntok := (w.extractLsb' 0 24).toNat, topk := (w.extractLsb' 24 4).toNat, nexp := (w.extractLsb' 29 11).toNat,
    add := w.getLsbD 40, slot := w.extractLsb' 41 4, note := w.getLsbD 45 }

/-- XC_CFG (R284). -/
structure XcCfg where
  size : Nat
  rank : Nat
  pod : Bool
  match_ : Nat
  slot : BitVec 4
  note : Bool
  rows : Bool
  rowBytes : Nat
  deriving DecidableEq, Repr

def xcCfg (r : Sparse GVal) : XcCfg :=
  let w := (engReg r 5).bits
  { size := (w.extractLsb' 0 9).toNat, rank := (w.extractLsb' 9 8).toNat, pod := w.getLsbD 17,
    match_ := (w.extractLsb' 18 16).toNat, slot := w.extractLsb' 34 4, note := w.getLsbD 38, rows := w.getLsbD 39,
    rowBytes := (w.extractLsb' 40 16).toNat }

/-- A table register that is no capability, or is misaligned (R280, R409). -/
def badTable (core : Nat) (v : GVal) (al : Nat) : Bool := v.tag ≠ .mem || (engAddr core v).1 % al ≠ 0

/-- A configuration register with an invalid field (R283, R284): nothing is checked or registered then (R409, R499). -/
def cfgInvalid (e : Bool) (r : Sparse GVal) : Bool :=
  if e then let c := xcCfg r; c.size = 0 || 256 < c.size || c.size ≤ c.rank || (c.rows && c.rowBytes = 0)
  else let c := rtCfg r; c.ntok = 0 || c.topk = 0 || 8 < c.topk || c.nexp = 0 || 1024 < c.nexp

/-- The first invalid register of a routing set plus one, or 0 (R280, R281, R409). -/
def rtInvalid (core : Nat) (r : Sparse GVal) : BitVec 4 :=
  if badTable core (engReg r 0) 2 then 1
  else if badTable core (engReg r 1) 4 then 2
  else if badTable core (engReg r 2) 4 then 3
  else if cfgInvalid false r then 4
  else if (engReg r 4).tag = .mem && badTable core (engReg r 4) 4 then 5
  else 0

/-- The first invalid register of an exchange set plus one, or 0 (R280, R284). -/
def xcInvalid (r : Sparse GVal) : BitVec 4 :=
  match [0, 1, 2, 3, 4].find? fun i => (engReg r i).tag ≠ .mem with
  | some i => BitVec.ofNat 4 (i + 1)
  | none => if cfgInvalid true r then 6 else 0

def engInvalid (e : Bool) (core : Nat) (r : Sparse GVal) : BitVec 4 := if e then xcInvalid r else rtInvalid core r

/-- Bytes from a cursor to the top of its capability (R499). -/
def toTop (v : GVal) : Nat :=
  let (_, top) := memBounds v.bits
  top - foldAddr top (cursor v.bits).toNat

/-- The footprints that ENG.GO checks and registers: register, size (R409, R499). A register without a capability has none; it is
named in STAT.err (R280). -/
def engFootprints (e : Bool) (r : Sparse GVal) : List (Nat × Nat) :=
  if cfgInvalid e r then []
  else
    let c := rtCfg r
    let p := (xcCfg r).size
    let l := if e then [(2, 8 * p), (3, 8 * p), (4, 2 * p), (0, toTop (engReg r 0)), (1, toTop (engReg r 1))]
      else [(0, 2 * (c.ntok * c.topk)), (1, 4 * (c.ntok * c.topk)), (2, 4 * c.nexp), (4, 4 * c.nexp)]
    l.filter fun f => (engReg r f.1).tag = .mem

/-- A footprint of a task's operation as a registered range (R174). -/
def rangeOf (op : Nat) (t : BitVec 48) (asid : W16) (r : Sparse GVal) (f : Nat × Nat) : Lock :=
  let v := engReg r f.1
  let a := (cursor v.bits).toNat
  let sp := decide (a < 0x100000)
  ⟨op, t, false, false, sp, if sp then 0 else asid, a, a + f.2⟩

/-- The ranges that a set registers (R174, R280). -/
def engLocks (op : Nat) (t : BitVec 48) (asid : W16) (e : Bool) (r : Sparse GVal) : List Lock :=
  ((engFootprints e r).filter fun f => f.2 ≠ 0).map (rangeOf op t asid r)

end Sys2Proof.Machine
end

