-- ==== Sys2Proof/Machine/MxWork.lean ====
section
/-! DEFINITION. How far a queued matrix operation is: its units of work, and whether more can come (R200, R208, R209, R211). -/

namespace Sys2Proof.Machine

/-- Rows, columns and depth of MX.MMA and MX.RAG, and of MX.LDA and MX.STA (R204, R213). -/
def mxM (d : W128) : Nat := (d.extractLsb' 0 7).toNat + 1
def mxN (d : W128) : Nat := (d.extractLsb' 7 7).toNat + 1
def mxK (d : W128) : Nat := (d.extractLsb' 16 16).toNat + 1

def MxOp.gn (o : MxOp) : Nat := ceilDiv (mxN o.desc) 16
def MxOp.gk (o : MxOp) : Nat := ceilDiv (mxK o.desc) 16
def MxOp.gm (o : MxOp) : Nat := ceilDiv (mxM o.desc) 16

/-- Units of work an operation can do so far: granule triples of MX.MMA, those of the eligible row granules of MX.RAG, granules
of MX.LDA and MX.STA, one for MX.ZERO (R200, R209). -/
def MxOp.work (o : MxOp) : Nat :=
  match o.kind with
  | .zero => 1
  | .mma => o.gm * o.gn * o.gk
  | .rag => o.gd * o.gn * o.gk
  | .lda | .sta => o.gm * o.gn

/-- No more work can come (R209). -/
def MxOp.closed (o : MxOp) : Bool :=
  match o.kind with
  | .rag => (o.hw = mxM o.desc || o.sealed_) && o.hw ≤ 16 * o.gd
  | _ => true

/-- The operation is done when its work is and no more can come; an update of the slot of an MX.RAG alone may end it (R211). -/
def MxOp.done (o : MxOp) : Bool := o.finished || (o.started && decide (o.prog = o.work) && o.closed)

def MxOp.ready (o : MxOp) : Bool := o.started && !o.finished && decide (o.prog < o.work)

def MxOp.settle (o : MxOp) : MxOp := if o.done then { o with finished := true } else o

/-- A matrix operation holds the plane array while it forms granule triples: not one that has formed those it can form so far, waits
for rows or has finished (R208, R209, R211, R428). -/
def MxOp.holds (o : MxOp) : Bool := (o.kind = .mma || o.kind = .rag) && o.ready

end Sys2Proof.Machine
end

