-- ==== Sys2Proof/Machine/Sched.lean ====
section
/-! DEFINITION. Scheduling on a core (R308 to R310), the state log (R435 to R438), the governor's starts and idles (R423 to
R430). -/

namespace Sys2Proof.Machine

/-- Writes a record to a ring in memory under its control register (R437): en in bit 0, wrap in bit 1, full in bit 2. A
record for unbacked memory is lost in the same way. -/
def ringPut (s : State) (r : Ring) (bs : List Byte) : State × Ring :=
  if r.ctl.getLsbD 0 = false then (s, r)
  else
    let n := bs.length
    let len := r.len.toNat
    let off := r.wr.toNat % len
    if len < n || (r.ctl.getLsbD 1 = false && len < r.wr.toNat + n) || !s.backed (r.base.toNat + off) n then
      (s, { r with lost := r.lost + 1, ctl := r.ctl ||| 4 })
    else (s.write (r.base.toNat + off) bs, { r with wr := r.wr + BitVec.ofNat 64 n })

/-- A matrix operation of the core holds the plane array (R428). -/
def Core.arrayHeld (c : Core) : Bool := (c.mx0 ++ c.mx1).any MxOp.holds

/-- The pair (log state, GTID) of a core's issue slot (R435); a cycle in which a matrix operation holds the array is no ballast cycle
(R428). -/
def logPair (s : State) (k : Nat) : Nat × BitVec 48 :=
  let c := s.core k
  match c.towerOf with
  | some t => if (s.task t).tower.contains k then (0, t) else logOwn s k c
  | none => logOwn s k c
where
  /-- A holder set aside by a high-level task that waits does not run (R310); one that waits on another core has left this one (R319). -/
  logOwn (s : State) (k : Nat) (c : Core) : Nat × BitVec 48 :=
    match c.issuing.filter fun t => (s.task t).status = .running with
    | some t => (0, t)
    | none =>
      if (c.gov.kind = .ballast && !c.arrayHeld) || (s.task c.logTask).core ≠ k then (3, c.logTask)
      else match (s.task c.logTask).status with
      | .waitMsg => (1, c.logTask)
      | .waitMem => (2, c.logTask)
      | _ => (3, c.logTask)

/-- The extension records of a gap of so many times 2^22 cycles: each adds at most 2^22 - 1 of them (R436). -/
def extRecords (ext : Nat) : List (List Byte) :=
  let one := fun (n : Nat) => leBytes 8 (n * 2 ^ 40 + 0xFFFFFFFFFF)
  List.replicate (ext / (2 ^ 22 - 1)) (one (2 ^ 22 - 1)) ++ if ext % (2 ^ 22 - 1) = 0 then [] else [one (ext % (2 ^ 22 - 1))]

/-- A state-log record, after extension records for a gap of 2^22 cycles or more (R436). -/
def logRecords (state : Nat) (delta : Nat) (t : BitVec 48) : List (List Byte) :=
  extRecords (delta / 2 ^ 22) ++ [leBytes 8 (state * 2 ^ 62 + delta % 2 ^ 22 * 2 ^ 40 + t.toNat % 2 ^ 40)]

/-- Logs a change of the pair of core k (R435). -/
def logSlot (s : State) (k : Nat) : State :=
  let c := s.core k
  let (st, t) := logPair s k
  if st = c.logState && t = c.logTask then s
  else
    let (s, r) := (logRecords st (s.timebase - c.logAt).toNat t).foldl (fun (x : State × Ring) b => ringPut x.1 x.2 b) (s, c.slog)
    s.onCore k fun c => { c with slog := r, logState := st, logTask := t,
                                 logAt := if r.ctl.getLsbD 0 then s.timebase else c.logAt }

/-- Fields of GOV_CFG (R432). -/
def Gov.riseLim (g : Gov) : Nat := (g.cfg.extractLsb' 0 9).toNat
def Gov.fallLim (g : Gov) : Nat := (g.cfg.extractLsb' 9 9).toNat
def Gov.cstart (g : Gov) : Nat := (g.cfg.extractLsb' 20 12).toNat
/-- Rise capacity of a slot in start units (R423). -/
def Gov.rcap (g : Gov) : Nat := max 1 (g.riseLim * 1000 / g.cstart)
/-- Fall capacity of a slot in quarter units (R423). -/
def Gov.fcap (g : Gov) : Nat := max 1 (g.fallLim * 4000 / g.cstart)

/-- The earliest slot from n on with rise capacity left, within `fuel` slots, where `carry` units beyond the capacity of the slot before
it are carried into it (R423, R426). -/
def laterSlot (g : Gov) : Nat → Nat → Nat → Nat
  | 0, n, _ => n
  | fuel + 1, n, carry =>
    let used := carry + sget 0 g.ahead n
    if used < g.rcap then n else laterSlot g fuel (n + 1) (used - g.rcap)

/-- A core is pinned while a base-level task admitted to it is, or the tower it belongs to (R430); a pinned handler governs
itself alone (R289). -/
def State.pinnedCore (s : State) (k : Nat) : Bool :=
  (s.tasksOn k).any (fun t => t.pinned && !t.high)
    || (match (s.core k).towerOf with | some t => (s.task t).pinned && (s.task t).tower.contains k | none => false)

/-- Ballast cycles of a core since they were last counted: q of every 4, none while a matrix operation holds the array (R428,
R433). -/
def Core.ballastRun (c : Core) (now : W64) : Nat :=
  if c.gov.kind = .ballast && !c.arrayHeld then (now - c.gov.ballastAt).toNat * c.gov.q / 4 else 0

/-- Counts ballast up to a cycle, for GOV_BALLAST and for the package estimate (R422, R425, R433). -/
def Core.settleBallast (c : Core) (now : W64) : Core :=
  let n := c.ballastRun now
  { c with gov := { c.gov with ballast := c.gov.ballast + BitVec.ofNat 48 n, slotBallast := c.gov.slotBallast + n, ballastAt := now } }

/-- Counts ballast before the matrix operations of a core change (R428). -/
def State.settleBallast (s : State) (k : Nat) : State := s.onCore k fun c => c.settleBallast s.timebase

/-- A change of a core's matrix work: ballast is counted up to it, and the state log sees what it does to the array (R428, R435). -/
def State.onWork (s : State) (k : Nat) (f : Core → Core) : State :=
  let s := (s.settleBallast k).onCore k f
  if (s.core k).gov.kind = .ballast then logSlot s k else s

/-- Leaves BALLAST, counting its cycles (R425, R433). -/
def endBallast (s : State) (k : Nat) : State :=
  let s := (s.settleBallast k).onCore k fun c => { c with gov := { c.gov with q := 0 } }
  { s with gov := { s.gov with order := s.gov.order.filter (· ≠ k) } }

/-- The queued starts held on a core, those of one job or all, wait no longer: their cycles up to one cycle count in GOV_RAMPW (R426,
R433). -/
def settleHeld (s : State) (k : Nat) (job : Option W32) (now : W64) : State :=
  s.onCore k fun c =>
    let mine := fun (p : W32 × W64) => match job with | some j => decide (p.1 = j) | none => true
    { c with gov := { c.gov with
      held := c.gov.held.filter (!mine ·),
      rampw := c.gov.rampw + (((c.gov.held.filter mine).map fun p => (now - p.2).setWidth 48).foldl (· + ·) 0) } }

/-- A core takes another governor state; once it is ACTIVE every start held on it proceeds (R426). -/
def setGovKind (s : State) (k : Nat) (g : GovKind) : State :=
  let s := if g = .active then settleHeld s k none s.timebase else s
  s.onCore k fun c => { c with gov := { c.gov with kind := g } }

/-- A queued start of a job waits for the ticket that an UNHELD core holds for a later slot (R426). -/
def noteHeld (s : State) (k : Nat) (job : W32) : State :=
  let g := (s.core k).gov
  if g.kind = .unheld && (match g.start with | some n => decide (s.gov.slot < n) | none => false) && !(g.held.any fun p => p.1 = job) then
    s.onCore k fun c => { c with gov := { c.gov with held := c.gov.held ++ [(job, s.timebase)] } }
  else s

/-- The slot of a core's ticket has begun (R426). -/
def startDue (s : State) (k : Nat) : Bool :=
  match (s.core k).gov.start with
  | some n => decide (n ≤ s.gov.slot)
  | none => false

/-- A ticket for a core: in the current slot while capacity remains or the start is pinned, else in the earliest later slot
with capacity; a core that holds a ticket takes no second one, unless the start is pinned (R425, R426, R430). -/
def takeTicket (s : State) (k : Nat) (pinned : Bool) : State :=
  if (s.core k).gov.start.isSome && !pinned then s
  else
    let now := pinned || s.gov.rise < s.gov.rcap
    let n := if now then s.gov.slot else laterSlot s.gov 4096 (s.gov.slot + 1) (s.gov.rise - s.gov.rcap)
    let g := if now then { s.gov with rise := s.gov.rise + 1 } else { s.gov with ahead := sset 0 s.gov.ahead n (sget 0 s.gov.ahead n + 1) }
    State.onCore { s with gov := g } k fun c => { c with gov := { c.gov with tickets := c.gov.tickets + 1, start := some n } }

/-- A start event on a core (R425, R426, R430): the state, and whether the task may proceed now. A start held for a later
slot is recorded at the core. -/
def govStart (s : State) (k : Nat) (pinned : Bool) : State × Bool :=
  match (s.core k).gov.kind with
  | .active => (s, true)
  | .ballast => (setGovKind (endBallast s k) k .active, true)
  | .unheld =>
    let s := if startDue s k then s else takeTicket s k pinned
    if startDue s k then (setGovKind (s.onCore k fun c => { c with gov := { c.gov with start := none } }) k .active, true)
    else (s, false)

/-- Whether a base-level task of the core is RUNNING, READY or set aside by a high-level one, or waits in its COMPOSE, which
starts only the other members (R288), or the core is a tower member (R424). -/
def State.busyBase (s : State) (k : Nat) : Bool :=
  (match (s.core k).towerOf with | some t => (s.task t).tower.contains k | none => false)
    || (s.tasksOn k).any fun t => !t.high
        && (t.status = .running || t.status = .ready || t.status = .suspended || (t.status = .waitMsg && t.wait = some .compose))

/-- A core that goes idle from ACTIVE enters UNHELD when it is pinned, else BALLAST or UNHELD (R428, R430). -/
def idleCore (s : State) (k : Nat) (pinned : Bool) : State :=
  let c := s.core k
  if c.gov.kind ≠ .active || s.busyBase k then s
  else if pinned then
    setGovKind { s with gov := { s.gov with fall := s.gov.fall + 4 } } k .unheld
  else
    let q := min 4 (ceilDiv (4 * c.gov.est) s.gov.cstart)
    if q = 0 then setGovKind s k .unheld
    else
      let s := s.onCore k fun c => { c with gov := { c.gov with kind := .ballast, q := q, ballastAt := s.timebase } }
      { s with gov := { s.gov with order := s.gov.order ++ [k] } }

def govIdle (s : State) (k : Nat) : State := idleCore s k (s.pinnedCore k)

/-- A held asynchronous trap that may be taken now: its route is the task, or no supervisor trap is being handled (R270). -/
def Task.takeable (x : Task) (p : PendTrap) : Bool :=
  (routedToTask p.cause && !x.tr.inTrap && x.tr.tvec ≠ 0) || !x.sup.inStrap

/-- The wait of the task's instruction is over and the instruction has still to retire: a completion released its barrier wait
(R170), or the answer to its LAUNCH or COMPOSE stands (R263, R285). -/
def Task.waitOver (x : Task) : Bool := x.released || x.answer.isSome

/-- The running base-level task of a core enters a held trap before a high-level task suspends it (R272). -/
def trapFirst (s : State) (k : Nat) : Bool :=
  match (s.core k).slotBase with
  | some t => let x := s.task t; x.status = .running && !x.waitOver && x.held.any x.takeable
  | none => false

/-- The initiator of the tower that a core has drained for or belongs to: a task of the core that becomes ready stays in its context
until the member is released (R285, R427). -/
def State.boundTo (s : State) (k : Nat) : Option (BitVec 48) :=
  (s.core k).towerOf.filter fun i => (s.task i).tower.contains k || (s.task i).drainedAt.isSome

/-- The base-level task to issue next: the one ready longest; on a member bound to a tower only its initiator (R285, R309). -/
def nextBase (s : State) (k : Nat) : Option (BitVec 48) :=
  let c := s.core k
  match s.boundTo k with
  | some i => c.readyBase.find? (· = i)
  | none => c.readyBase.head?

/-- The high-level task that keeps the base-level holder of a core suspended: the one that issues, else the one that suspended
it, to its END (R310). -/
def suspender (s : State) (k : Nat) : Option (BitVec 48) :=
  let c := s.core k
  match c.suspBy, c.slotHigh with
  | some h, i => if (s.task h).status ≠ .ended && (s.task h).core = k then some h else i
  | none, i => i

/-- Fills the issue slots of a core: the high-level level first, then the base level with the task that has been ready
longest (R309, R310). A base-level holder that a high-level task finds is SUSPENDED until that task ends. -/
def dispatch (s : State) (k : Nat) : State :=
  let s :=
    match (s.core k).slotHigh, (s.core k).readyHigh with
    | none, t :: ts =>
      if trapFirst s k || (s.boundTo k).isSome then s
      else
        (s.onTask t fun x => { x with status := .running, since := s.timebase }).onCore k fun c => { c with slotHigh := some t, readyHigh := ts }
    | _, _ => s
  let s :=
    match (s.core k).slotHigh, (s.core k).slotBase, nextBase s k with
    | none, none, some t =>
      (s.onTask t fun x => { x with status := .running, since := s.timebase }).onCore k fun c =>
        { c with slotBase := some t, readyBase := c.readyBase.filter (· ≠ t) }
    | _, _, _ => s
  let s :=
    match (s.core k).slotBase with
    | some t =>
      let by_ := suspender s k
      (s.onTask t fun x => { x with status := if by_.isSome then .suspended else .running }).onCore k fun c => { c with suspBy := by_ }
    | none => s.onCore k fun c => { c with suspBy := none }
  logSlot s k

/-- Takes a task off the issue slots and ready orders of its core. -/
def unslot (c : Core) (t : BitVec 48) : Core :=
  { c with slotHigh := if c.slotHigh = some t then none else c.slotHigh,
           slotBase := if c.slotBase = some t then none else c.slotBase,
           readyHigh := c.readyHigh.filter (· ≠ t), readyBase := c.readyBase.filter (· ≠ t) }

/-- A task leaves the issue slot and takes another state; the slot passes on (R309), and the core may go idle (R428). -/
def leaveSlot (s : State) (t : BitVec 48) (st : TStatus) : State :=
  let k := (s.task t).core
  let s := (s.onTask t fun x => { x with status := st }).onCore k fun c => unslot c t
  dispatch (govIdle s k) k

/-- A task becomes READY, the most recently made ready of its level (R308, R309). -/
def makeReady (s : State) (t : BitVec 48) : State :=
  let x := s.task t
  let s := (s.onTask t fun x => { x with status := .ready, wait := none }).onCore x.core fun c =>
    let c := unslot c t
    if x.high then { c with readyHigh := c.readyHigh ++ [t] } else { c with readyBase := c.readyBase ++ [t] }
  dispatch s x.core

/-- A wait that ends counts its cycles: loss of decoupling (R180), MX.WAIT (R439), parking (R359). -/
def Task.countWait (x : Task) (now : W64) : Task :=
  let d := (now - x.parkedAt).setWidth 48
  match x.status, x.wait with
  | .waitMem, _ => { x with counts := { x.counts with parkcc := x.counts.parkcc + d } }
  | _, some .vecq => { x with counts := { x.counts with lod := x.counts.lod + d } }
  | _, some (.lock true) => { x with counts := { x.counts with lod := x.counts.lod + d } }
  | _, some (.matrix _ _) => { x with counts := { x.counts with mxw := x.counts.mxw + d } }
  | _, _ => x

/-- Tasks whose wake is held for the ramp slot of their core (R426). -/
def State.heldStarts (s : State) (k : Nat) : List Task :=
  (s.tasksOn k).filter fun t => t.status = .waitMsg && t.wait = none && !t.high

/-- Held wakes of a core become ready; their cycles up to one cycle count in GOV_RAMPW (R426, R433). -/
def releaseHeldAt (s : State) (k : Nat) (now : W64) : State :=
  (s.heldStarts k).foldl (fun s t =>
    makeReady (s.onCore k fun c => { c with gov := { c.gov with rampw := c.gov.rampw + BitVec.ofNat 48 (now - t.since).toNat } }) t.gtid) s

def releaseHeld (s : State) (k : Nat) : State := releaseHeldAt s k s.timebase

/-- The wake of a waiting task: a start event on an UNHELD core (R425); held for a later slot it stays WAIT_MSG with nothing
to wait for (R426). A start that proceeds releases those held on the core. A task that is being saved does not wake (R293). -/
def wake (s : State) (t : BitVec 48) : State :=
  let x := s.task t
  if (x.status ≠ .waitMsg && x.status ≠ .waitMem) || x.wait = some .saving then s
  else
  let s := s.onTask t fun x => x.countWait s.timebase
  if x.high then makeReady s t
  else
    let (s, go) := govStart s x.core (s.pinnedCore x.core)
    if go then releaseHeld (makeReady s t) x.core
    else logSlot (s.onTask t fun x => { x with status := .waitMsg, wait := none, since := s.timebase }) x.core

/-- Wakes every task of a core that waits in one of the given ways; each tests its condition again. -/
def wakeWhere (s : State) (k : Nat) (p : Wait → Bool) : State :=
  ((s.tasksOn k).filter fun t => t.status = .waitMsg && (match t.wait with | some w => p w | none => false)).foldl
    (fun s t => wake s t.gtid) s

/-- A task blocks: WAIT_MSG at its instruction (R308). -/
def blockTask (s : State) (t : BitVec 48) (w : Wait) : State :=
  leaveSlot (s.onTask t fun x => { x with wait := some w, parkedAt := s.timebase }) t .waitMsg

/-- The executing task blocks. -/
def block (s : State) (w : Wait) : State := blockTask s s.curTid w

/-- The start of a core whose ramp slot has begun proceeds (R426): what was held on the core waited up to a cycle. -/
def releaseStart (s : State) (k : Nat) (now : W64) : State :=
  releaseHeldAt (setGovKind ((settleHeld s k none now).onCore k fun c => { c with gov := { c.gov with start := none } }) k .active) k now

end Sys2Proof.Machine
end

