-- ==== Sys2Proof/Machine/Slots.lean ====
section
/-! DEFINITION. Counter slots (R28, R29, R168 to R173), what an update of one brings about: completion (R170), MX.RAG rows
(R209), triggers (R260); notifications (R349, R457); the die error log (R457); job counts (R312). -/

namespace Sys2Proof.Machine

def Core.counter (c : Core) (n : Nat) : Counter := sget Counter.zero c.counters n
def State.onCounter (s : State) (k n : Nat) (f : Counter → Counter) : State :=
  s.onCore k fun c => { c with counters := sset Counter.zero c.counters n (f (c.counter n)) }

def State.job (s : State) (j : W32) : Job := sget Job.none s.spire.jobs j.toNat
def State.setJob (s : State) (j : W32) (v : Job) : State :=
  { s with spire := { s.spire with jobs := sset Job.none s.spire.jobs j.toNat v } }
def State.onJob (s : State) (j : W32) (f : Job → Job) : State := s.setJob j (f (s.job j))

/-- Every group of a launch is delivered (R301). -/
def Job.allDelivered (j : Job) : Bool :=
  match j.launch with
  | some l => decide (l.groups ≤ (j.delivered.map (·.2)).sum)
  | .none => true

/-- Raises or lowers the outstanding-task count; at zero with every group delivered the job is DONE (R301, R312). -/
def jobRaise (s : State) (j : W32) : State := s.onJob j fun x => { x with count := x.count + 1, state := if x.state = .done then .running else x.state }
def jobLower (s : State) (j : W32) : State :=
  s.onJob j fun x =>
    let x := { x with count := x.count - 1 }
    if x.count = 0 && x.allDelivered && (x.state = .dealing || x.state = .running) then { x with state := .done } else x

/-- hw, sealed and eligible row granules of an MX.RAG after its slot shows a count (R209). -/
def ragSee (o : MxOp) (count : W32) : MxOp :=
  let m := bits o.desc.toNat 6 0 + 1
  let hw := max o.hw (min (count.toNat % 2 ^ 31) m)
  let sl := o.sealed_ || count.getLsbD 31
  let fin := hw = m || sl
  let gm := ceilDiv m 16
  let gd := max o.gd (min gm (if fin then ceilDiv hw 16 else hw / 16))
  { o with hw := hw, sealed_ := sl, gd := gd,
           part := if o.gd < gd && hw < 16 * gd then (gd - 1, hw) :: o.part else o.part }

def ragQueue (n : Nat) (count : W32) (q : List MxOp) : List MxOp :=
  q.map fun o => if o.kind = .rag && o.started && o.slot = n && !o.finished then (ragSee o count).settle else o

/-- The MX.RAG operations bound to a slot see its count (R209). -/
def ragUpdate (s : State) (k n : Nat) (count : W32) : State :=
  let c := s.core k
  let q0 := ragQueue n count c.mx0
  let q1 := ragQueue n count c.mx1
  if q0 = c.mx0 && q1 = c.mx1 then s else s.onWork k fun x => { x with mx0 := q0, mx1 := q1 }

/-- The task that a trigger creates (R260): on its own core, in the binder's job, with the arguments given. -/
def triggerDesc (s : State) (k : Nat) (g : Trigger) (args : List GVal) (b : Nat) : Msg :=
  { src := s.here k, dst := s.here k, reply := false, header := 0,
    body := .task { entry := g.entry, args := args, job := g.job, asid := g.asid, src := s.here k, by_ := g.by_, am := false,
                    launched := false, onCore := 0, pinned := false, binder := some b } 0 }

/-- A counter trigger whose condition holds fires once and disarms (R260). -/
def testCounterTrigger (s : State) (k n : Nat) : State :=
  let c := (s.core k).counter n
  match c.trig with
  | none => s
  | some g =>
    if g.armed && (c.count.toNat + 2 ^ 32 - g.f % 2 ^ 32) % 2 ^ 32 < 2 ^ 31 then
      let s := s.onCounter k n fun c => { c with trig := some { g with armed := false } }
      let arg1 := data64 (g.sel.bits.extractLsb' 0 64 &&& 0xF)
      (jobRaise s g.job).post (triggerDesc s k g [arg1, data64 (c.count.setWidth 64)] (64 + n + 128 * g.id))
    else s

/-- The information word of RAMP_VIOLATION (R290). -/
def rampInfo (site slot cores : Nat) : W64 := BitVec.ofNat 64 (site + slot * 2 ^ 4 + cores * 2 ^ 32)

/-- A completion from outside the core that wakes a pinned UNHELD core beyond the rise capacity raises RAMP_VIOLATION
asynchronously in the first pinned task it wakes (R430). -/
def completionViolation (s : State) (k n : Nat) (ws : List Task) : State :=
  if (s.core k).gov.kind = .unheld && s.pinnedCore k && s.gov.rcap ≤ s.gov.rise then
    match ws.find? fun t => t.barWait && t.pinned with
    | some t => s.onTask t.gtid fun x => { x with held := x.held ++ [⟨0x13, rampInfo 1 n 1⟩] }
    | none => s
  else s

/-- A CNT.WAIT for v passes at this count (R172). -/
def countReached (count v : W32) : Bool := (count - v).toNat < 2 ^ 31

/-- BAR.WAIT waiters of a completed slot are made ready, and so is a CNT.WAIT that the count now lets pass (R170, R172). -/
def wakeSlot (s : State) (k n : Nat) (completed : Bool) : State :=
  let on := fun (p : Wait → Bool) => (s.tasksOn k).filter fun t =>
    t.status = .waitMsg && (match t.wait with | some w => p w | none => false)
  let bars := if completed then on (· = .counter n) else []
  let c := ((s.core k).counter n).count
  let cnts := on fun w => match w with | .count m v => decide (m = n) && countReached c v | _ => false
  let s := if completed then completionViolation s k n bars else s
  let s := bars.foldl (fun s t => wake (s.onTask t.gtid fun x => { x with released := true }) t.gtid) s
  cnts.foldl (fun s t => wake s t.gtid) s

/-- An update of physical slot n of core k, with the test of R170 as one step (R29). -/
def slotUpdate (s : State) (k n : Nat) (f : Counter → Counter) : State :=
  let c := f ((s.core k).counter n)
  let comp := c.target ≠ 0 && c.count = c.target
  let c := if comp then { c with count := 0, phase := !c.phase } else c
  let s := s.onCounter k n fun _ => c
  testCounterTrigger (wakeSlot (ragUpdate s k n c.count) k n comp) k n

/-- As CNT.ADD does (R172). -/
def slotAdd (s : State) (k n : Nat) (v : W32) : State := slotUpdate s k n fun c => { c with count := c.count + v }

/-- A recorded phase (R171). -/
def Task.recordPhase (x : Task) (n : Nat) (ph : Bool) : Task :=
  let m := 1#16 <<< n
  { x with rec_ := if ph then x.rec_ ||| m else x.rec_ &&& ~~~m }

/-- The arrival of BAR.ARR and BAR.SYNC at physical slot k of its core (R171): recorded phase, arrival bit, count. -/
def arrive (s : State) (t : BitVec 48) (n k : Nat) : State :=
  let c := (s.task t).core
  let ph := ((s.core c).counter k).phase
  let s := s.onTask t fun x => { x.recordPhase n ph with arrived := x.arrived ||| (1#16 <<< n) }
  slotUpdate s c k fun c => { c with count := c.count + 1 }

/-- The physical slot of a job's slot number on a core (R28). -/
def physSlot (c : Core) (job : W32) (n : Nat) : Option Nat :=
  match c.groups.find? fun g => g.job = job with
  | some g => g.slots[n]?
  | none => none

/-- Accesses that wait on a range lock test again (R174). -/
def wakeLocks (s : State) : State :=
  ((s.tasks.map (·.2)).filter fun t => t.status = .waitMsg && (match t.wait with | some (.lock _) => true | _ => false)).foldl
    (fun s t => wake s t.gtid) s

/-- A notification in the layout of FB_NOTIFY: adds 1 to the named slot (R349), of a core that is not held in reset (R454). -/
def notify (s : State) (w : W64) : State :=
  if w.getLsbD 16 then
    let k := (w.extractLsb' 0 3).toNat * 320 + (w.extractLsb' 3 7).toNat * 4 + (w.extractLsb' 10 2).toNat
    if s.coreUp k then slotAdd s k (w.extractLsb' 12 4).toNat 1 else s
  else s

/-- Appends a record to the error log of a die and notifies (R457): kinds 1 double fault, 2 MEM_UE, 3 thermal, 4 mapped-out
unit. With no ring, or one in unbacked memory, the record is lost. -/
def errorLog (s : State) (d kind : Nat) (gtid : BitVec 48) (info : W64) : State :=
  let x := s.die d
  let len := x.elogLen.toNat
  let bs := leBytes 8 s.timebase.toNat ++ leBytes 8 (kind + gtid.toNat * 2 ^ 16) ++ leBytes 8 info.toNat ++ leBytes 8 0
  let a := x.elogBase.toNat + x.elogWr.toNat % len
  if len < 32 || !s.backed a 32 then s
  else notify ((s.write a bs).onDie d fun x => { x with elogWr := x.elogWr + 32 }) x.elogNotify

end Sys2Proof.Machine
end

