-- ==== Sys2Proof/Machine/Context.lean ====
section
/-! DEFINITION. Context records (R315): how a task's state is laid out in memory by a save or a debug stop, and how it is
read back. Parts whose bits R315 does not give are laid out as log entry 17 says. -/

namespace Sys2Proof.Machine

def bit (b : Bool) (n : Nat) : Nat := if b then 2 ^ n else 0

/-- TSTAT (R36). -/
def Task.tstat (t : Task) : W64 :=
  BitVec.ofNat 64 (bit t.tr.inTrap 0 + bit t.high 1 + bit (t.tower ≠ []) 2 + bit t.pinned 3)
/-- SSTAT (R37). -/
def Task.sstat (t : Task) : W64 := BitVec.ofNat 64 (bit t.sup.priv 0 + bit t.sup.prevPriv 1 + bit t.sup.inStrap 2)

/-- CORE_ID (R39). -/
def coreId (chip : Byte) (k : Nat) : W64 :=
  BitVec.ofNat 64 (chip.toNat + k / 320 * 2 ^ 8 + k % 320 / 4 * 2 ^ 11 + k % 4 * 2 ^ 18)

/-- 16 bytes of memory with the tag of their granule. -/
abbrev Chunk := List Byte × Tag

def chunksOf : List Byte → List Chunk
  | [] => []
  | b :: bs => go (b :: bs) [] 16
where
  go : List Byte → List Byte → Nat → List Chunk
    | [], acc, _ => [(acc.reverse, .data)]
    | b :: bs, acc, 0 => (acc.reverse, .data) :: go bs [b] 15
    | b :: bs, acc, n + 1 => go bs (b :: acc) n

/-- Writes chunks from an address, tags as STC would (R315). -/
def writeChunks (s : State) : Nat → List Chunk → State
  | _, [] => s
  | a, (bs, tg) :: cs =>
    let s := s.write a bs
    writeChunks (if tg = .data then s else s.setTag a tg) (a + bs.length) cs

def gvalChunk (v : GVal) : Chunk := (leBytes 16 v.bits.toNat, v.tag)

/-- LOOPI index number and step of a counter as one item. -/
def loopItem (l : LoopRegs) : Nat := l.idx.toNat + l.step.toNat * 2 ^ 8 + bit l.isIdx 32

/-- The 256-byte control part: 8 bytes per item in the order of R315. -/
def controlItems (t : Task) : List Nat :=
  [t.p.toNat, (t.mask 0).toNat, (t.mask 1).toNat, (t.mask 2).toNat, (t.mask 3).toNat, t.l0.lc.toNat, t.l1.lc.toNat,
   t.l0.lb.toNat, t.l0.le.toNat, t.l1.lb.toNat, t.l1.le.toNat, loopItem t.l0, loopItem t.l1, t.tstat.toNat,
   t.tr.tvec.toNat, t.tr.tepc.toNat, t.tr.tcause.toNat, t.tr.tinfo.toNat, bit t.sat 0, t.fflags.toNat, t.sstat.toNat,
   t.sup.sepc.toNat, t.sup.scause.toNat, t.sup.sinfo.toNat, t.job.toNat, t.arrived.toNat + t.rec_.toNat * 2 ^ 16,
   t.sup.spccm.toNat, 0, 0, 0, 0, 0]

/-- The declared g registers above g0, or those a map marks. -/
def liveG (t : Task) (gmap : Option W32) : List Nat :=
  (List.range t.gregs).filter fun r => r ≠ 0 && (match gmap with | some m => m.getLsbD r | none => true)
def liveV (t : Task) (vmap : Option W16) : List Nat :=
  (List.range t.vregs).filter fun r => match vmap with | some m => m.getLsbD r | none => true
def liveA (t : Task) (amap : Option (BitVec 4)) : List Nat :=
  (List.range t.accs).filter fun r => match amap with | some m => m.getLsbD r | none => true

/-- The bytes of a physical tile of a core (R27). -/
def tileWords (c : Core) (tile : Nat) : Sparse W32 :=
  (c.tiles.filter fun x => x.1 / 16384 = tile).map fun x => (x.1 % 16384, x.2)

def tileBytes (w : Sparse W32) : List Byte :=
  (List.range 16384).flatMap fun i => leBytes 4 (sget 0 w i).toNat

/-- Bits of a cause register (R38). -/
def causeBits : W64 := 0x3FF

def MxKind.code : MxKind → Nat
  | .zero => 0 | .mma => 1 | .rag => 2 | .lda => 3 | .sta => 4

/-- The core group of a job on a core (R28). -/
def Core.group (c : Core) (j : W32) : Option CoreGroup := c.groups.find? fun g => g.job = j

/-- Tiles and slots of a queued operation by the task's own numbers, so that a resumption can map them anew (R27, R28). -/
def ownNumbers (x : Task) (c : Core) (o : MxOp) : MxOp :=
  { o with tile := x.tiles.idxOf o.tile, slot := match c.group x.job with | some g => g.slots.idxOf o.slot | none => o.slot }

/-- The same operation with the tiles and slots that stand behind those numbers now. -/
def physNumbers (x : Task) (c : Core) (o : MxOp) : MxOp :=
  { o with tile := x.tiles.getD o.tile 0, slot := match c.group x.job with | some g => g.slots.getD o.slot o.slot | none => o.slot }

/-- 64 bytes of a queued matrix operation, its tile and slot by the task's own numbers (R315; log entry 17). -/
def mxItem (q : Nat) (o : MxOp) : List Byte :=
  leBytes 8 o.prog ++ leBytes 8 (o.tile + q * 2 ^ 8 + o.slot * 2 ^ 16 + o.kind.code * 2 ^ 32) ++ leBytes 8 o.offA ++ leBytes 8 o.offB
    ++ leBytes 16 o.desc.toNat ++ leBytes 8 (o.winA + o.winB * 2 ^ 8 + (o.seed.getD 0).toNat * 2 ^ 16 + bit o.seed.isSome 32) ++ leBytes 8 0

/-- 128 bytes of a shadow set: its engine, whether it is ready, and its registers with their tags (R315; log entry 17). -/
def setItem (i : Nat) (h : Shadow) : List Chunk :=
  (leBytes 8 i ++ leBytes 8 (bit h.ready 0), .data) :: (List.range 6).map (fun r => gvalChunk (engReg h.regs r)) ++ [(leBytes 16 0, .data)]

/-- What a full save carries beside the registers (R314). -/
def saveOf (s : State) (t : BitVec 48) (kind : Nat) : Saved :=
  let x := s.task t
  let c := s.core x.core
  let base := spadPa x.core + x.spadBase
  { task := x, kind := kind, rec_ := none, tiles := x.tiles.map fun i => tileWords c i,
    spad := s.mem.filter fun p => base ≤ p.1 && p.1 < base + x.spadSize,
    spadTags := s.tags.filter fun p => base / 16 ≤ p.1 && p.1 < (base + x.spadSize) / 16,
    mx := (c.mx0.filter fun o => o.task = t).map (fun o => (0, ownNumbers x c o))
      ++ (c.mx1.filter fun o => o.task = t).map (fun o => (1, ownNumbers x c o)),
    errs := [(0, sget 0 c.sh0.errs t.toNat), (1, sget 0 c.sh1.errs t.toNat)],
    sets := (if c.sh0.owner = some t then [(0, c.sh0)] else []) ++ (if c.sh1.owner = some t then [(1, c.sh1)] else []),
    locks := c.locks.filter fun l => l.task = t }

/-- The record of a task with what it carries, on a chip: kind 0 (safe point, with its maps) or kind 1 (full) (R315). -/
def recordOf (chip : Byte) (w : Saved) (maps : Option (W16 × BitVec 4 × W32)) : List Chunk :=
  let x := w.task
  let base := spadPa x.core + x.spadBase
  let vs := liveV x (maps.map (·.1))
  let as := liveA x (maps.map (·.2.1))
  let gs := liveG x (maps.map (·.2.2))
  let body :=
    gvalChunk x.pcc :: gs.map (fun r => gvalChunk (x.reg (BitVec.ofNat 5 r)))
      ++ chunksOf ((controlItems x).flatMap (leBytes 8))
      ++ chunksOf (vs.flatMap fun r => leBytes 64 (x.vec (BitVec.ofNat 4 r)).toNat)
      ++ chunksOf (as.flatMap fun a => tileBytes (w.tiles.getD a []))
      ++ (match maps with
          | some _ => []
          | none =>
            ((List.range (x.spadSize / 16)).map fun i =>
              ((List.range 16).map fun j => sget 0 w.spad (base + 16 * i + j), sget .data w.spadTags (base / 16 + i)))
            ++ chunksOf (w.mx.flatMap fun o => mxItem o.1 o.2)
            ++ w.sets.flatMap fun o => setItem o.1 o.2)
  let len := 64 + (body.map fun c => c.1.length).sum
  let len64 := ceilDiv len 64 * 64
  let (v, a, g) := maps.getD (BitVec.allOnes 16, BitVec.allOnes 4, BitVec.allOnes 32)
  let hdr := leBytes 8 x.gtid.toNat ++ leBytes 1 (if maps.isSome then 0 else 1) ++ leBytes 8 (coreId chip x.core).toNat
    ++ leBytes 4 len64 ++ leBytes 2 v.toNat ++ leBytes 1 a.toNat ++ leBytes 4 g.toNat ++ leBytes 36 0
  chunksOf hdr ++ body ++ chunksOf (leBytes (len64 - len) 0)

/-- The record of a task on its core. -/
def taskRecord (s : State) (t : BitVec 48) (maps : Option (W16 × BitVec 4 × W32)) : List Chunk := recordOf s.chip (saveOf s t 1) maps

/-- A record of 64 header bytes and a body for kinds 2, 3 and 4 (R315). -/
def plainRecord (gtid : BitVec 48) (kind : Nat) (id : W64) (body : List Byte) : List Chunk :=
  chunksOf (leBytes 8 gtid.toNat ++ leBytes 1 kind ++ leBytes 8 id.toNat ++ leBytes 4 (64 + body.length) ++ leBytes 43 0 ++ body)

def chunksLen (cs : List Chunk) : Nat := (cs.map fun c => c.1.length).sum

/-- A value and tag read back from a record. -/
def loadChunk (s : State) (a : Nat) : GVal := ⟨BitVec.ofNat 128 (s.readNat a 16), s.tagAt a⟩

/-- Item k of the control part at a. -/
def item (s : State) (a k : Nat) : Nat := s.readNat (a + 8 * k) 8

/-- The loop registers of the control part: items of the counter, its bounds and its index. -/
def loadLoop (s : State) (a c b e i : Nat) : LoopRegs :=
  let x := item s a i
  { lc := BitVec.ofNat 32 (item s a c), lb := BitVec.ofNat 64 (item s a b), le := BitVec.ofNat 64 (item s a e),
    isIdx := x.testBit 32, idx := BitVec.ofNat 5 x, step := BitVec.ofNat 11 (x / 2 ^ 8) }

/-- Memory as a consumer reads it to which bytes of an uncorrectable codeword are never delivered (R356): they read as zeros. -/
def State.clean (s : State) : State := if s.ue = [] then s else { s with mem := s.mem.filter fun p => !s.badByte p.1 }

/-- The registers of a task read back from its record (R146, R317, R447): registers not marked live read as zero, and reserved bits of a
system register stay zero (R9). -/
def loadRecord (s : State) (a : Nat) (x : Task) : Task :=
  let kind := s.readNat (a + 8) 1
  let vm : Option W16 := if kind = 0 then some (BitVec.ofNat 16 (s.readNat (a + 21) 2)) else none
  let gm : Option W32 := if kind = 0 then some (BitVec.ofNat 32 (s.readNat (a + 24) 4)) else none
  let gs := liveG x gm
  let ctl := a + 64 + 16 * (1 + gs.length)
  let vs := liveV x vm
  let g := gs.zipIdx.foldl (fun m (r, i) => sset .zero m r (loadChunk s (a + 80 + 16 * i))) []
  let v := vs.zipIdx.foldl (fun m (r, i) => sset 0 m r (BitVec.ofNat 512 (s.readNat (ctl + 256 + 64 * i) 64))) []
  let m := [0, 1, 2, 3].foldl (fun m i => sset 0 m i (BitVec.ofNat 64 (item s ctl (1 + i)))) []
  let ts := item s ctl 13
  let ss := item s ctl 20
  let w := fun k => BitVec.ofNat 64 (item s ctl k)
  { x with
    pcc := loadChunk s (a + 64), g := g, v := v, m := m, p := BitVec.ofNat 8 (item s ctl 0) ||| 1,
    l0 := loadLoop s ctl 5 7 8 11, l1 := loadLoop s ctl 6 9 10 12,
    tr := ⟨ts.testBit 0, w 14 &&& ~~~3, w 15, w 16 &&& causeBits, w 17⟩, sat := (item s ctl 18).testBit 0, fflags := BitVec.ofNat 5 (item s ctl 19),
    sup := ⟨ss.testBit 0, ss.testBit 1, ss.testBit 2, w 21, w 26, w 22 &&& causeBits, w 23⟩,
    arrived := BitVec.ofNat 16 (item s ctl 25), rec_ := BitVec.ofNat 16 (item s ctl 25 / 2 ^ 16) }

/-- Where the tiles and the scratchpad of a record stand: the first tile, and the region. -/
def recordTiles (s : State) (a : Nat) (x : Task) : Nat × List Nat :=
  let kind := s.readNat (a + 8) 1
  let gs := liveG x (if kind = 0 then some (BitVec.ofNat 32 (s.readNat (a + 24) 4)) else none)
  let vs := liveV x (if kind = 0 then some (BitVec.ofNat 16 (s.readNat (a + 21) 2)) else none)
  let as := liveA x (if kind = 0 then some (BitVec.ofNat 4 (s.readNat (a + 23) 1)) else none)
  (a + 64 + 16 * (1 + gs.length) + 256 + 64 * vs.length, as)

/-- Words of a tile read back from a record. -/
def loadTile (s : State) (a : Nat) : Sparse W32 :=
  (List.range 16384).foldl (fun m i => let v := BitVec.ofNat 32 (s.readNat (a + 4 * i) 4); if v = 0 then m else m ++ [(i, v)]) []

/-- Replaces the content of a physical tile. -/
def putTile (c : Core) (tile : Nat) (w : Sparse W32) : Core :=
  { c with tiles := w.foldl (fun m x => sset 0 m (tile * 16384 + x.1 % 16384) x.2) (c.tiles.filter fun x => x.1 / 16384 ≠ tile) }

/-- Clears a byte range of memory and its tags (R307). -/
def clearRange (s : State) (a n : Nat) : State :=
  { s with mem := s.mem.filter fun p => !(decide (a ≤ p.1) && decide (p.1 < a + n)),
           tags := s.tags.filter fun p => !(decide (a / 16 ≤ p.1) && decide (p.1 < (a + n + 15) / 16)),
           ue := s.ue.filter fun x => !(decide (a ≤ x) && decide (x < a + n)) }

/-- Copies n times 16 bytes with their tags from memory as r reads it. -/
def copyChunks (r s : State) (src dst : Nat) : Nat → State
  | 0 => s
  | n + 1 => copyChunks r (writeChunks s dst [(r.readBytes src 16, r.tagAt src)]) (src + 16) (dst + 16) n

end Sys2Proof.Machine
end

