-- ==== Sys2Proof/Machine/Ops.lean ====
section
/-! DEFINITION. Taking an exception and returning from one (R32, R269 to R274), debug stops (R445), retirement with the
loop-end test (R139, R140), guarded execution (R114), and what stops an instruction. -/

namespace Sys2Proof.Machine

/-- The task's state at entry of a trap routed to the task (R270). -/
def Task.trapTask (x : Task) (code : Byte) (info : W64) (async : Bool) : Task :=
  { x with tr := ⟨true, x.tr.tvec, x.pc, BitVec.ofNat 64 (code.toNat + bit async 9), info⟩,
           pcc := moveCursor x.pcc x.tr.tvec }

/-- The task's state at entry of a trap routed to the supervisor (R270, R271). -/
def Task.trapSup (x : Task) (stvec : W64) (code : Byte) (info : W64) (nested async : Bool) : Task :=
  { x with sup := { priv := true, prevPriv := x.sup.priv, inStrap := true, sepc := x.pc,
                    spccm := x.pcc.bits.extractLsb' 64 64,
                    scause := BitVec.ofNat 64 (code.toNat + bit nested 8 + bit async 9), sinfo := info },
           pcc := supervisorPcc stvec }

/-- A core that leaves a tower, or a COMPOSE that has ended, takes up admission again, or stays stopped for another COMPOSE that
waits for it (R285). -/
def freeMember (s : State) (k : Nat) : State :=
  let next := (s.tasks.map (·.2)).find? fun x => x.composeTill.isSome && x.answer.isNone && x.composeSet.contains k
  s.onCore k fun c => { c with towerOf := next.map fun x => x.gtid }

/-- What a member of a tower of a task has been credited with in the slot: its own events, and its share of those that the
initiator's core has counted for the tower (R422). -/
def towerCredit (s : State) (x : Task) (k : Nat) : Nat :=
  let i := (s.core x.core).gov
  (if k = x.core then i.own else (s.core k).gov.energy) + i.energy / x.tower.length

/-- The events of a tower are shared among its members (R422). -/
def shareEnergy (s : State) (x : Task) : State :=
  let es := x.tower.map fun k => (k, towerCredit s x k)
  es.foldl (fun s p => s.onCore p.1 fun c => { c with gov := { c.gov with energy := p.2, own := 0 } }) s

/-- Hands a tower back, and abandons a COMPOSE that has not retired: the members return to the pool, and admission resumes (R286, R288,
R293, R326). The members of a pinned tower go idle as pinned cores (R289,
R430). -/
def dissolveTower (s : State) (t : BitVec 48) : State :=
  let x := s.task t
  if x.tower = [] && x.composeTill.isNone then s
  else
    let ms := (s.cores.filter fun p => p.2.towerOf = some t).map fun p => p.1
    let s := if x.drainedAt.isSome then s else shareEnergy s x
    let s := s.onTask t fun x => { x with
      tower := [], blockLen := 0, composeTill := none, composeSet := [], drainedAt := none,
      answer := if x.composeTill.isSome then none else x.answer }
    ms.foldl (fun s k => let s := freeMember s k; dispatch (idleCore s k (x.pinned || s.pinnedCore k)) k) s

/-- A second synchronous trap while in_strap is 1: the task stops where it is and the die error log records it (R32). -/
def doubleFault (s : State) (t : BitVec 48) (code : Byte) : State :=
  let k := (s.task t).core
  let s := dissolveTower s t
  let s := leaveSlot (s.onTask t fun x => { x with stopRec := none, forDebug := true, parkedAt := s.timebase }) t .stopped
  errorLog s (dieOf k) 1 t (code.setWidth 64)

/-- take(cause, info, at, async) of R270 for every cause but BREAK; `at` is the task's pc, which still names the instruction. -/
def takeTrap (s : State) (t : BitVec 48) (code : Byte) (info : W64) (async : Bool) : State :=
  let x := s.task t
  if routedToTask code && !x.tr.inTrap && x.tr.tvec ≠ 0 then s.onTask t fun x => x.trapTask code info async
  else if x.sup.inStrap then
    if async then s.onTask t fun x => { x with held := x.held ++ [⟨code, info⟩] } else doubleFault s t code
  else s.onTask t fun x => x.trapSup (s.core x.core).stvec code info (routedToTask code) async

/-- MEM_UE leaves a copy in the die error log (R269, R356, R457). -/
def logUe (s : State) (t : BitVec 48) (c : Cause) (info : W64) : State :=
  if c = .memUe then errorLog s (dieOf (s.task t).core) 2 t info else s

/-- RAMP_VIOLATION is counted, and its entry sets the acknowledgement (R431, R432). -/
def noteViolation (s : State) (t : BitVec 48) : State :=
  ({ s with gov := { s.gov with viol := s.gov.viol + 1 } }).onTask t fun x => { x with rvAck := x.rvAck || !x.sup.inStrap }

/-- The governor's check of a task's instruction is skipped: the acknowledgement stands, and no supervisor trap is in progress (R431). -/
def Task.rvSkips (x : Task) : Bool := x.rvAck && !x.sup.inStrap

/-- A raised trap: MEM_UE is logged; RAMP_VIOLATION is counted and acknowledged (R431, R432); then entry. -/
def raise (s : State) (t : BitVec 48) (c : Cause) (info : W64) (async : Bool) : State :=
  let s := logUe s t c info
  let s := if c = .rampViolation then noteViolation s t else s
  takeTrap s t (causeCode c) info async

/-- An asynchronous trap is held until a boundary of the task takes it (R272). -/
def raiseAsync (s : State) (t : BitVec 48) (c : Cause) (info : W64) : State :=
  if (s.task t).status = .ended then s
  else (logUe s t c info).onTask t fun x => { x with held := x.held ++ [⟨causeCode c, info⟩] }

/-- The energy of a vector instruction that executes, in eighths of a picojoule (R422, class 1). -/
def vectorEnergy : Nat := 1440

/-- The vector instructions of a task still queued execute before its state is saved: their flags count, and an uncorrectable
error is raised asynchronously, as is one that a posted atomic of the task met (R153, R177, R314, R422). -/
def flushVec (s : State) (t : BitVec 48) : State :=
  let k := (s.task t).core
  let mine := (s.core k).vecq.filter fun e => e.task = t
  let s := ((s.core k).postedUe.filter fun p => p.1 = t).foldl (fun s p => raiseAsync s t .memUe p.2) s
  let s := mine.foldl (fun s e => match e.ue with
    | some a => raiseAsync s t .memUe a
    | none => s.onTask t fun x => x.addFlags e.flags) (s.charge k (vectorEnergy * mine.length))
  s.onCore k fun c => { c with vecq := c.vecq.filter (fun e => e.task ≠ t), postedUe := c.postedUe.filter fun p => p.1 ≠ t }

/-- How deep a task stands in trap handlers: none 0, its own 1, the supervisor's 2, the supervisor's within its own 3 (R270). -/
def Task.trapLevel (x : Task) : Nat := bit x.tr.inTrap 0 + bit x.sup.inStrap 1

/-- A BAR.SYNC whose arrival has counted is forgotten once its task stands elsewhere at that trap level or below it: executed again,
it arrives again (R171; log entry 31). -/
def Task.pastSyncs (x : Task) : Task :=
  { x with barSync := x.barSync.filter fun e => e.2 < x.trapLevel || e = (x.pc, x.trapLevel) }

/-- Appends a trace record (R441, R442): kind 0 mark, 1 hazard, 2 stop. -/
def traceRecord (s : State) (k kind code : Nat) (t : BitVec 48) (payload pc : W64) : State :=
  let c := s.core k
  if c.trc.ctl.getLsbD (3 + kind) then
    let bs := leBytes 8 (s.timebase - c.cycle0).toNat ++ leBytes 8 (t.toNat + kind * 2 ^ 48 + code * 2 ^ 52)
      ++ leBytes 8 payload.toNat ++ leBytes 8 pc.toNat
    let (s, r) := ringPut s c.trc bs
    s.onCore k fun c => { c with trc := r }
  else s

/-- A hazard record of the trace stream (R449). -/
def hazard (s : State) (x : Task) (code : Nat) (payload : W64) : State := traceRecord s x.core 1 code x.gtid payload x.pc

/-- Hint events (R440): the operand-reuse copies that the core held of rewritten g registers go; HINT_CNT counts them, and in
debug mode the trace stream records them (R449, code 3). `x` is the task before. -/
def discardCopies (s : State) (x : Task) (rs : List Nat) : State :=
  let rs := (rs.filter fun r => r ≠ 0 && Config.reuseCopy s.tick r).eraseDups
  if rs = [] then s
  else
    let s := s.onTask x.gtid fun y => { y with counts := { y.counts with hint := y.counts.hint + BitVec.ofNat 48 rs.length } }
    if (s.core x.core).debugEn then rs.foldl (fun s r => hazard s x 3 (BitVec.ofNat 64 (r * 4))) s else s

/-- The registers whose copies trap entry discards (R383, R440). -/
def allCopies : List Nat := (List.range 32).drop 1

/-- The return from a task-level trap (R274). -/
def Task.tret (x : Task) : Task := { x with pcc := moveCursor x.pcc x.tr.tepc, tr := { x.tr with inTrap := false } }

/-- The return from a supervisor trap (R274). -/
def Task.sret (x : Task) : Task :=
  { x with pcc := if x.sup.prevPriv then supervisorPcc x.sup.sepc else ⟨x.sup.spccm ++ x.sup.sepc, .mem⟩,
           sup := { x.sup with priv := x.sup.prevPriv, inStrap := false } }

/-- A LAUNCH that the spire has not answered is made again when its task goes on (R268, R272, R447). -/
def dropRequest (s : State) (t : BitVec 48) : State :=
  { s with spire := { s.spire with requests := s.spire.requests.filter fun r => r.task ≠ t } }

/-- Takes the first held trap that may be taken (R270): RAMP_VIOLATION is counted and acknowledged (R431, R432). A waiting
task takes it at its instruction, which executes again after the return (R272); a LAUNCH that the spire has not answered is then
made again, a BAR.WAIT records its phase again, and a COMPOSE starts anew: admission resumes at its members. A high-level task
that became ready at the same boundary then suspends the handler (R272, step 4). -/
def takeHeld (s : State) (t : BitVec 48) : State :=
  let x := s.task t
  match x.held.find? x.takeable with
  | none => s
  | some p =>
    let s := s.onTask t fun x => { x with held := x.held.erase p }
    let s := if p.cause = causeCode .rampViolation then noteViolation s t else s
    let s := discardCopies ((takeTrap s t p.cause p.info true).onTask t fun y => { y with blockLen := 0 }) x allCopies
    if x.status = .waitMsg then
      let s := if x.wait = some .compose then dissolveTower s t else s
      wake ((dropRequest s t).onTask t fun x => { x with barWait := false }) t
    else dispatch s x.core

/-- Ranges that the matrix operations of a record had registered. -/
def Saved.workLocks (w : Saved) : List Lock := w.locks.filter fun l => l.matrix && w.mx.any fun o => o.2.id = l.op

/-- What a stop leaves before its record is written (R445): tower handed back, queued vector instructions executed, a request withdrawn, the
wait counted. -/
def atStop (s : State) (t : BitVec 48) : State :=
  let s := dropRequest (flushVec (dissolveTower s t) t) t
  s.onTask t fun x => x.countWait s.timebase

/-- Stops a task for the debugger (R445): record written to the stop area, STOPPED, trace record. -/
def debugStop (s : State) (t : BitVec 48) (info : W64) : State :=
  let s := atStop s t
  let x := s.task t
  let cs := taskRecord s t none
  let n := chunksLen cs
  let a := s.dbg.area.toNat + s.dbg.next.toNat
  let s :=
    if s.dbg.areaLen.toNat < s.dbg.next.toNat + n || !s.backed a n then
      ({ s with dbg := { s.dbg with noarea := true } }).onTask t fun x => { x with stopRec := none }
    else
      let w := saveOf s t 1
      ({ writeChunks s a cs with dbg := { s.dbg with next := s.dbg.next + BitVec.ofNat 64 n } }).onTask t
        fun x => { x with stopRec := some a, stopWork := w.mx, stopSets := w.sets, stopLocks := w.workLocks }
  let s := leaveSlot (s.onTask t fun x => { x with
    stepping := false, forDebug := true, wait := none, parkedAt := s.timebase, barWait := x.barWait && x.released }) t .stopped
  traceRecord s x.core 2 0 t info x.pc

/-- Why an instruction does not complete: a trap (R269), a page fault that parks the task (R346), a wait in which it blocks
(R308), a stall that keeps the issue slot, a shipment to a home-execute page (R319), a stop at a watch entry (R444). `after`
carries what the access has already done to the translation caches and counters. -/
inductive Stop
  | trap (c : Cause) (info : W64)
  | park (f : WalkFault)
  | wait (w : Wait)
  | ship (die home : Nat)
  | brk (info : W64)
  | stall
  | after (s : State) (st : Stop)
  deriving DecidableEq, Repr

/-- What an instruction's effect is: a state, or a stop that discards it. -/
abbrev Eff := Except Stop

/-- A stop of a task's instruction. -/
def stopTask (s : State) (t : BitVec 48) : Stop → State
  | .trap c info => raise s t c info false
  | .park f => leaveSlot (s.onTask t fun x => { x with fault := some f, parkedAt := s.timebase }) t .waitMem
  | .wait w => blockTask s t w
  | .ship d h => leaveSlot (s.onTask t fun x => { x with ship := some (d, h), wait := some .acks }) t .waitMsg
  | .brk info => debugStop s t info
  | .stall => s
  | .after s' st => stopTask s' t st

/-- A stop, applied to the state the instruction met: it is the executing task's, also where what the instruction already did let a
high-level task take the issue slot. -/
def applyStop (s : State) (st : Stop) : State := stopTask s s.curTid st

def finish (s : State) (r : Eff State) : Out :=
  match r with
  | .ok s' => .next s'
  | .error st => .next (applyStop s st)

/-- The instruction word as an information word (R89, R269). -/
def wordInfo (i : Instr) : W64 :=
  match encode i with
  | [w] => w.setWidth 64
  | [w, l] => l ++ w
  | _ => 0

/-- The instruction word alone in [31:0] (R269). -/
def headInfo (i : Instr) : W64 :=
  match encode i with
  | w :: _ => w.setWidth 64
  | _ => 0

/-- The loop-end test falls at this address (R139). -/
def LoopRegs.atEnd (l : LoopRegs) (a : W64) : Bool := l.lc ≠ 0 && l.le = a

/-- A LOOPI index advances at every end of the body (R139). -/
def Task.bump (x : Task) (l : LoopRegs) : Task :=
  if l.isIdx then x.setR64 l.idx (x.r64 l.idx + l.step.signExtend 64) else x

/-- An instruction retires: the acknowledgement of R431 lasts while a supervisor trap is in progress. -/
def Task.settle (x : Task) : Task := { x with rvAck := x.rvAck && x.sup.inStrap }

/-- The body of loop 1 runs again (R139). -/
def Task.turn1 (x : Task) : Task := ({ x.bump x.l1 with l1 := { x.l1 with lc := x.l1.lc - 1 } }).setPc x.l1.lb
/-- The body of loop 0 runs again (R139). -/
def Task.turn0 (x : Task) : Task := ({ x.bump x.l0 with l0 := { x.l0 with lc := x.l0.lc - 1 } }).setPc x.l0.lb
/-- Loop 1 ends (R139). -/
def Task.leave1 (x : Task) : Task := { x.bump x.l1 with l1 := { x.l1 with lc := 0 } }
/-- Loop 0 ends (R139). -/
def Task.leave0 (x : Task) : Task := { x.bump x.l0 with l0 := { x.l0 with lc := 0 } }

/-- Retirement of an instruction of `len` bytes that transfers no control: the loop-end tests, lc1 first (R139, R140), then
the next address. -/
def Task.advance (x : Task) (len : Nat) : Task :=
  let e1 := x.l1.atEnd x.pc
  let e0 := x.l0.atEnd x.pc
  let y := x.settle
  if e1 && decide (1 < x.l1.lc) then y.turn1
  else
    let y := if e1 then y.leave1 else y
    if e0 && decide (1 < x.l0.lc) then y.turn0
    else
      let y := if e0 then y.leave0 else y
      y.setPc (x.pc + BitVec.ofNat 64 len)

/-- Retirement of an instruction that transfers control: no loop-end test (R140). -/
def Task.jump (x : Task) (pcc : GVal) : Task := { x.settle with pcc := pcc }

/-- An instruction that changes only its task: guarded off it only retires (R114). -/
def alu (g : Guard) (len : Nat) (s : State) (f : Task → Task) : Out :=
  .next (s.onCur fun x => if x.guardOk g then (f x).advance len else x.advance len)

/-- An instruction whose effect may stop; a guarded-off one only retires (R114, R221, R266, R292). The
effect includes its retirement. -/
def guarded (g : Guard) (len : Nat) (s : State) (f : State → Eff State) : Out :=
  if s.curTask.guardOk g then finish s (f s) else .next (s.onCur fun x => x.advance len)

/-- Retires a task's instruction. An effect that may wake a high-level task on the core names its task, since that task may
hold the issue slot afterwards (R310). -/
def retireOf (s : State) (t : BitVec 48) (len : Nat) : State := s.onTask t fun x => x.advance len

/-- Retires the executing task's instruction. -/
def retire (s : State) (len : Nat) : State := retireOf s s.curTid len

end Sys2Proof.Machine
end

