-- ==== Sys2Proof/Machine/Planes.lean ====
section
/-! DEFINITION. Plane storage (R68 to R75): elements of the granules in windows W1 to W11, read and written bit by bit
through a reader of scratchpad bytes. -/

namespace Sys2Proof.Machine

/-- What a window fixes (R68): its planes, the footprint F, the slot S and the address step of its granules. -/
structure Win where
  sgn : Nat
  exp : Nat
  sig : Nat
  foot : Nat
  slot : Nat
  step : Nat
  deriving DecidableEq, Repr

/-- The window table (R68); number 0 and numbers above 11 are no plane windows. -/
def winOf : Nat → Win
  | 1 => ⟨1, 8, 8, 544, 1024, 4⟩
  | 2 => ⟨1, 5, 11, 544, 1024, 4⟩
  | 3 => ⟨1, 4, 4, 288, 512, 2⟩
  | 4 => ⟨1, 5, 3, 288, 512, 2⟩
  | 5 => ⟨1, 2, 2, 192, 256, 1⟩
  | 6 => ⟨1, 2, 2, 192, 256, 1⟩
  | 7 => ⟨1, 4, 4, 320, 512, 2⟩
  | 8 => ⟨0, 0, 8, 256, 256, 1⟩
  | 9 => ⟨0, 0, 4, 128, 256, 1⟩
  | 10 => ⟨1, 8, 24, 1056, 2048, 8⟩
  | 11 => ⟨1, 11, 53, 2080, 4096, 16⟩
  | _ => ⟨0, 0, 0, 0, 1, 1⟩

/-- The bit of element e in plane p of the granule at g (R69). -/
def planeBit (rd : Nat → Byte) (g p e : Nat) : Bool := (rd (g + 32 * p + e / 8)).getLsbD (e % 8)

/-- The number that n planes from p hold for element e, most significant plane first. -/
def planeNum (rd : Nat → Byte) (g e : Nat) : Nat → Nat → Nat
  | _, 0 => 0
  | p, n + 1 => (if planeBit rd g p e then 2 ^ n else 0) + planeNum rd g e (p + 1) n

/-- The element type bit of an MXFP8 granule (R71): true for E5M2. -/
def mx8Type (rd : Nat → Byte) (g : Nat) : Bool := (rd (g + 304)).getLsbD 0

/-- The element format of a floating-point window (R68); W7 by its element type. -/
def winFmt (w : Nat) (e5 : Bool) : Fmt :=
  match w with
  | 1 => bf16 | 2 => fp16 | 3 => e4m3 | 4 => e5m2 | 5 => e2m1 | 6 => e2m1
  | 7 => if e5 then e5m2 else e4m3
  | 10 => fp32 | _ => fp64

/-- The code of element e: sign, exponent and fraction planes; the leading bit follows the exponent (R55). -/
def elemCode (rd : Nat → Byte) (w g e : Nat) : Nat :=
  if w = 8 || w = 9 then planeNum rd g e 0 (winOf w).sig
  else
    let f := winFmt w (mx8Type rd g)
    planeNum rd g e 0 (1 + f.ebits) * 2 ^ f.fbits + planeNum rd g e (2 + f.ebits) f.fbits

/-- The scale of element e: E3M5 block scale, E8M0 scale, or 1 (R59, R60, R71). -/
def elemScale (rd : Nat → Byte) (w g e : Nat) : FVal :=
  match w with
  | 5 => e3m5 (rd (g + 160 + 2 * (e / 16) + e % 16 / 8)).toNat
  | 6 => e8m0 (rd (g + 160 + e / 16)).toNat
  | 7 => e8m0 (rd (g + 288 + e / 16)).toNat
  | _ => .fin false 1 0

/-- The element as a value with its scale; when P is given, the significand planes below P read as zero and the exponent
as it is, so also in a NaN (R74, R75). -/
def elemValueP (rd : Nat → Byte) (w g e : Nat) (planes : Option Nat) : FVal :=
  if w = 8 || w = 9 then ofInt (sxInt (elemCode rd w g e) (winOf w).sig)
  else
    let f := winFmt w (mx8Type rd g)
    let drop := match planes with
      | some p => f.fbits + 1 - p
      | none => 0
    let v := fdecode f (elemCode rd w g e / 2 ^ drop * 2 ^ drop)
    if w = 5 || w = 6 || w = 7 then (fmul v (elemScale rd w g e)).1 else v

/-- The element with its block or MX scale (R73). -/
def elemValue (rd : Nat → Byte) (w g e : Nat) : FVal := elemValueP rd w g e none

/-- Whether the element's code is a signalling NaN. -/
def elemSig (rd : Nat → Byte) (w g e : Nat) : Flags :=
  if w = 8 || w = 9 then 0 else sigFlag (fdecode (winFmt w (mx8Type rd g)) (elemCode rd w g e))

/-- An element load (R73): the register's low bits and the flags of the conversion; an infinity widens exactly (R64). -/
def elemLoad (rd : Nat → Byte) (sat : Bool) (w g e : Nat) : Nat × Flags :=
  if w = 8 || w = 9 then (wrapInt (sxInt (elemCode rd w g e) (winOf w).sig) 32, 0)
  else if w = 10 || w = 11 then (elemCode rd w g e, 0)
  else
    let v := elemValue rd w g e
    let isInf := match v with | .inf _ => true | _ => false
    let (c, fl) := fconv fp32 (sat && !isInf) .rne v
    (c, fl ||| elemSig rd w g e)

/-- The scale a store divides by (R67), as m * 2^x; m = 0 for a zero block scale. -/
def storeScale (rd : Nat → Byte) (w g e : Nat) : Nat × Int :=
  match elemScale rd w g e with
  | .fin _ m x => (m, x)
  | _ => (1, 0)

/-- A value divided by a scale and converted (R67). -/
def convScaled (f : Fmt) (sat : Bool) (md : Rounding) (m : Nat) (x : Int) (v : FVal) : Nat × Flags :=
  match v with
  | .fin n vm ve =>
    if m = 0 then (signBit f n, if vm = 0 then 0 else flInexact) else roundFin f sat md n vm m (ve - x)
  | v => fconv f sat md v

/-- The code an element store writes for a register value, with its flags (R67, R73). -/
def storeCode (rd : Nat → Byte) (sat : Bool) (md : Rounding) (w g e : Nat) (v : Nat) : Nat × Flags :=
  if w = 8 || w = 9 then roundIntFmt (winOf w).sig .rne (sxInt v 32 < 0) (sxInt v 32).natAbs 1 0
  else if w = 10 || w = 11 then (v % 2 ^ (if w = 10 then 32 else 64), 0)
  else
    let (m, x) := storeScale rd w g e
    convScaled (winFmt w (mx8Type rd g)) sat md m x (fdecode fp32 (v % 2 ^ 32))

/-- A bit to be set in memory: byte offset, bit, value. -/
abbrev BitWrite := Nat × Nat × Bool

/-- The bits of a number in n planes from p, most significant first. -/
def planeWrites (g e v : Nat) : Nat → Nat → List BitWrite
  | _, 0 => []
  | p, n + 1 => (g + 32 * p + e / 8, e % 8, v.testBit n) :: planeWrites g e v (p + 1) n

/-- The bits that hold an element's code: sign and exponent planes, the leading bit from the exponent, the fraction (R69,
R73). -/
def codeWrites (w : Nat) (e5 : Bool) (g e code : Nat) : List BitWrite :=
  if w = 8 || w = 9 then planeWrites g e code 0 (winOf w).sig
  else
    let f := winFmt w e5
    let ex := code / 2 ^ f.fbits % 2 ^ f.ebits
    planeWrites g e (code / 2 ^ f.fbits) 0 (1 + f.ebits)
      ++ (g + 32 * (1 + f.ebits) + e / 8, e % 8, decide (ex ≠ 0)) :: planeWrites g e code (2 + f.ebits) f.fbits

/-- The significand planes a format reads, for the declared precision (R74); E5M2 reads a fourth plane of zeros. -/
def readPlanes (w : Nat) : Nat :=
  match w with
  | 1 => 8 | 2 => 11 | 3 => 4 | 4 => 4 | 5 => 2 | 6 => 2 | 7 => 4 | 10 => 24 | _ => 53

/-- The effective declared precision (R74, R75, R204): none when it truncates nothing. -/
def effPlanes (w declared : Nat) : Option Nat :=
  if w = 8 || w = 9 || declared = 0 then none else some (min declared (readPlanes w))

end Sys2Proof.Machine
end

