-- ==== Sys2Proof/Machine/Operands.lean ====
section
/-! DEFINITION. Operand forms: the registers an instruction names (R88, R93), effective addresses (R148), sizes (R97). -/

namespace Sys2Proof.Machine

/-- The register files of R89: 0 g, 1 v, 2 ac. The highest register a SAFEPT map marks at or above a count decides (R145);
all marked registers, highest first. -/
def topBit (file n m : Nat) : List (Nat × Nat) :=
  (((List.range n).filter fun i => m.testBit i).reverse).map fun i => (file, i)

/-- The registers that an instruction's fields name, in field order from bit 27 downward (R89, R93); CALL names g31 (R136). -/
def regsOf : Instr → List (Nat × Nat)
  | .add _ d a b => [(0, d.toNat), (0, a.toNat), (0, b.toNat)]
  | .sub _ d a b => [(0, d.toNat), (0, a.toNat), (0, b.toNat)]
  | .mul _ d a b => [(0, d.toNat), (0, a.toNat), (0, b.toNat)]
  | .mulh _ d a b => [(0, d.toNat), (0, a.toNat), (0, b.toNat)]
  | .mulhu _ d a b => [(0, d.toNat), (0, a.toNat), (0, b.toNat)]
  | .div _ d a b => [(0, d.toNat), (0, a.toNat), (0, b.toNat)]
  | .divu _ d a b => [(0, d.toNat), (0, a.toNat), (0, b.toNat)]
  | .rem _ d a b => [(0, d.toNat), (0, a.toNat), (0, b.toNat)]
  | .remu _ d a b => [(0, d.toNat), (0, a.toNat), (0, b.toNat)]
  | .and _ d a b => [(0, d.toNat), (0, a.toNat), (0, b.toNat)]
  | .or _ d a b => [(0, d.toNat), (0, a.toNat), (0, b.toNat)]
  | .xor _ d a b => [(0, d.toNat), (0, a.toNat), (0, b.toNat)]
  | .andn _ d a b => [(0, d.toNat), (0, a.toNat), (0, b.toNat)]
  | .shl _ d a b => [(0, d.toNat), (0, a.toNat), (0, b.toNat)]
  | .shr _ d a b => [(0, d.toNat), (0, a.toNat), (0, b.toNat)]
  | .sar _ d a b => [(0, d.toNat), (0, a.toNat), (0, b.toNat)]
  | .min _ d a b => [(0, d.toNat), (0, a.toNat), (0, b.toNat)]
  | .max _ d a b => [(0, d.toNat), (0, a.toNat), (0, b.toNat)]
  | .minu _ d a b => [(0, d.toNat), (0, a.toNat), (0, b.toNat)]
  | .maxu _ d a b => [(0, d.toNat), (0, a.toNat), (0, b.toNat)]
  | .clz _ d a => [(0, d.toNat), (0, a.toNat)]
  | .ctz _ d a => [(0, d.toNat), (0, a.toNat)]
  | .popc _ d a => [(0, d.toNat), (0, a.toNat)]
  | .brev _ d a => [(0, d.toNat), (0, a.toNat)]
  | .sext _ d a _ => [(0, d.toNat), (0, a.toNat)]
  | .zext _ d a _ => [(0, d.toNat), (0, a.toNat)]
  | .addi _ d a _ => [(0, d.toNat), (0, a.toNat)]
  | .andi _ d a _ => [(0, d.toNat), (0, a.toNat)]
  | .ori _ d a _ => [(0, d.toNat), (0, a.toNat)]
  | .xori _ d a _ => [(0, d.toNat), (0, a.toNat)]
  | .shli _ d a _ => [(0, d.toNat), (0, a.toNat)]
  | .shri _ d a _ => [(0, d.toNat), (0, a.toNat)]
  | .sari _ d a _ => [(0, d.toNat), (0, a.toNat)]
  | .lit _ d _ => [(0, d.toNat)]
  | .lith _ d _ _ => [(0, d.toNat)]
  | .cmp _ _ a b _ => [(0, a.toNat), (0, b.toNat)]
  | .cmpiEq _ _ a _ => [(0, a.toNat)]
  | .cmpiNe _ _ a _ => [(0, a.toNat)]
  | .cmpiLt _ _ a _ => [(0, a.toNat)]
  | .cmpiLe _ _ a _ => [(0, a.toNat)]
  | .cmpiLtu _ _ a _ => [(0, a.toNat)]
  | .cmpiLeu _ _ a _ => [(0, a.toNat)]
  | .pand _ _ _ _ => []
  | .por _ _ _ _ => []
  | .pxor _ _ _ _ => []
  | .pnot _ _ _ => []
  | .pset _ _ _ => []
  | .mov _ d a => [(0, d.toNat), (0, a.toNat)]
  | .sel _ d a b _ => [(0, d.toNat), (0, a.toNat), (0, b.toNat)]
  | .csetb _ d a b => [(0, d.toNat), (0, a.toNat), (0, b.toNat)]
  | .crestr _ d a b => [(0, d.toNat), (0, a.toNat), (0, b.toNat)]
  | .cadd _ d a b => [(0, d.toNat), (0, a.toNat), (0, b.toNat)]
  | .cget _ d a _ => [(0, d.toNat), (0, a.toNat)]
  | .cclr _ d a => [(0, d.toNat), (0, a.toNat)]
  | .cseal _ d a _ => [(0, d.toNat), (0, a.toNat)]
  | .ctest _ _ a b => [(0, a.toNat), (0, b.toNat)]
  | .ld _ d a _ _ => [(0, d.toNat), (0, a.toNat)]
  | .st _ d a _ _ => [(0, d.toNat), (0, a.toNat)]
  | .ldc _ d a _ => [(0, d.toNat), (0, a.toNat)]
  | .stc _ d a _ => [(0, d.toNat), (0, a.toNat)]
  | .lda _ d a _ _ => [(0, d.toNat), (0, a.toNat)]
  | .stl _ d a _ _ => [(0, d.toNat), (0, a.toNat)]
  | .pf _ _ a _ => [(0, a.toNat)]
  | .fence _ _ => []
  | .fenceLb _ => []
  | .amo _ d a b _ _ => [(0, d.toNat), (0, a.toNat), (0, b.toNat)]
  | .cas _ d a b _ => [(0, d.toNat), (0, a.toNat), (0, b.toNat)]
  | .stm _ d a b _ => [(0, d.toNat), (0, a.toNat), (0, b.toNat)]
  | .stred _ d a b _ _ => [(0, d.toNat), (0, a.toNat), (0, b.toNat)]
  | .barArr _ _ => []
  | .barWait _ _ => []
  | .barSync _ _ => []
  | .cntSet _ a _ => [(0, a.toNat)]
  | .cntAdd _ a _ => [(0, a.toNat)]
  | .cntWait _ a _ => [(0, a.toNat)]
  | .br _ _ => []
  | .call _ _ => [(0, 31)]
  | .jr _ d a => [(0, d.toNat), (0, a.toNat)]
  | .endTask _ => []
  | .yield _ => []
  | .nop _ => []
  | .loop _ a _ _ => [(0, a.toNat)]
  | .loopi _ d a _ _ _ => [(0, d.toNat), (0, a.toNat)]
  | .safept _ v a g => topBit 1 16 v.toNat ++ topBit 2 4 a.toNat ++ topBit 0 32 (g.toNat / 2 * 2)
  | .vadd _ d a b _ _ => [(1, d.toNat), (1, a.toNat), (1, b.toNat)]
  | .vsub _ d a b _ _ => [(1, d.toNat), (1, a.toNat), (1, b.toNat)]
  | .vmul _ d a b _ _ => [(1, d.toNat), (1, a.toNat), (1, b.toNat)]
  | .vfma _ d a b _ _ => [(1, d.toNat), (1, a.toNat), (1, b.toNat)]
  | .vmax _ d a b _ _ => [(1, d.toNat), (1, a.toNat), (1, b.toNat)]
  | .vmin _ d a b _ _ => [(1, d.toNat), (1, a.toNat), (1, b.toNat)]
  | .vabs _ d a _ _ => [(1, d.toNat), (1, a.toNat)]
  | .vneg _ d a _ _ => [(1, d.toNat), (1, a.toNat)]
  | .vexp2 _ d a _ _ => [(1, d.toNat), (1, a.toNat)]
  | .vlog2 _ d a _ _ => [(1, d.toNat), (1, a.toNat)]
  | .vrcp _ d a _ _ => [(1, d.toNat), (1, a.toNat)]
  | .vrsq _ d a _ _ => [(1, d.toNat), (1, a.toNat)]
  | .vcvt _ d a _ _ _ => [(1, d.toNat), (1, a.toNat)]
  | .vsel _ d a b _ _ => [(1, d.toNat), (1, a.toNat), (1, b.toNat)]
  | .vshf _ d a b _ _ => [(1, d.toNat), (1, a.toNat), (1, b.toNat)]
  | .viota _ d _ _ => [(1, d.toNat)]
  | .mand _ _ _ _ => []
  | .mor _ _ _ _ => []
  | .mnot _ _ _ => []
  | .vld _ d a x _ _ => [(1, d.toNat), (0, a.toNat), (0, x.toNat)]
  | .vst _ d a x _ _ _ => [(1, d.toNat), (0, a.toNat), (0, x.toNat)]
  | .vstSeed _ d a x _ _ _ _ => [(1, d.toNat), (0, a.toNat), (0, x.toNat)]
  | .vlds _ d a x _ _ => [(1, d.toNat), (0, a.toNat), (0, x.toNat)]
  | .vgath _ d a v _ _ => [(1, d.toNat), (0, a.toNat), (1, v.toNat)]
  | .vscat _ d a v _ _ _ => [(1, d.toNat), (0, a.toNat), (1, v.toNat)]
  | .vscatSeed _ d a v _ _ _ _ => [(1, d.toNat), (0, a.toNat), (1, v.toNat)]
  | .vbcst _ d a _ _ => [(1, d.toNat), (0, a.toNat)]
  | .vins _ d a b _ => [(1, d.toNat), (0, a.toNat), (0, b.toNat)]
  | .vext _ d a b _ => [(0, d.toNat), (1, a.toNat), (0, b.toNat)]
  | .vreds _ d a _ _ => [(0, d.toNat), (1, a.toNat)]
  | .vredm _ d a _ _ => [(0, d.toNat), (1, a.toNat)]
  | .vcmp _ _ a b _ _ _ => [(1, a.toNat), (1, b.toNat)]
  | .vectorLoadUe _ => []
  | .mxZero _ c => [(2, c.toNat)]
  | .mxMma _ c _ a b d => [(2, c.toNat), (0, a.toNat), (0, b.toNat), (0, d.toNat)]
  | .mxRag _ c _ a b d => [(2, c.toNat), (0, a.toNat), (0, b.toNat), (0, d.toNat)]
  | .mxLda _ c a d => [(2, c.toNat), (0, a.toNat), (0, d.toNat)]
  | .mxSta _ c a d => [(2, c.toNat), (0, a.toNat), (0, d.toNat)]
  | .mxStaSeed _ c a d _ => [(2, c.toNat), (0, a.toNat), (0, d.toNat)]
  | .mxWait _ c _ => [(2, c.toNat)]
  | .mxStat _ _ a => [(0, a.toNat)]
  | .matrixOpStart _ => []
  | .matrixTripleBoundary _ => []
  | .matrixOpRetire _ => []
  | .matrixOperandUe _ => []
  | .laClr _ a => [(0, a.toNat)]
  | .laAdd _ _ a b => [(0, a.toNat), (0, b.toNat)]
  | .laAddv _ _ a v => [(0, a.toNat), (1, v.toNat)]
  | .laMrg _ a b => [(0, a.toNat), (0, b.toNat)]
  | .laRnd _ d a _ => [(0, d.toNat), (0, a.toNat)]
  | .chNew _ d a b => [(0, d.toNat), (0, a.toNat), (0, b.toNat)]
  | .chConn _ a b => [(0, a.toNat), (0, b.toNat)]
  | .chSend _ a b => [(0, a.toNat), (0, b.toNat)]
  | .chRecv _ d a => [(0, d.toNat), (0, a.toNat)]
  | .chOffer _ d a => [(0, d.toNat), (0, a.toNat)]
  | .chSelect _ a b => [(0, a.toNat), (0, b.toNat)]
  | .chDeleg _ a b => [(0, a.toNat), (0, b.toNat)]
  | .chAccept _ d a => [(0, d.toNat), (0, a.toNat)]
  | .chClose _ a => [(0, a.toNat)]
  | .chStat _ d a => [(0, d.toNat), (0, a.toNat)]
  | .chSync _ a => [(0, a.toNat)]
  | .chFree _ a => [(0, a.toNat)]
  | .spawn _ a b => [(0, a.toNat), (0, b.toNat)]
  | .bind _ d a b => [(0, d.toNat), (0, a.toNat), (0, b.toNat)]
  | .unbind _ a => [(0, a.toNat)]
  | .launch _ d a => [(0, d.toNat), (0, a.toNat)]
  | .jobq _ d a => [(0, d.toNat), (0, a.toNat)]
  | .ipGive _ a b => [(0, a.toNat), (0, b.toNat)]
  | .ipTake _ d a => [(0, d.toNat), (0, a.toNat)]
  | .am _ d a b n => (List.range n.toNat).map (fun i => (0, d.toNat + i)) ++ [(0, a.toNat), (0, b.toNat)]
  | .engW _ d _ _ => [(0, d.toNat)]
  | .engR _ d _ _ => [(0, d.toNat)]
  | .engGo _ _ => []
  | .engWait _ _ => []
  | .engineSwap _ => []
  | .engineCompletion _ => []
  | .engineFault _ => []
  | .engineBusError _ => []
  | .engineUe _ => []
  | .exchangeJoin _ _ => []
  | .exchangeNote _ _ => []
  | .tret _ => []
  | .sret _ => []
  | .brk _ => []
  | .tlbi _ a _ => [(0, a.toNat)]
  | .compose _ _ a b => [(0, a.toNat), (0, b.toNat)]
  | .towerForm _ => []
  | .composeTimeout _ => []
  | .release _ => []
  | .govPin _ => []
  | .govUnpin _ => []
  | .trap _ _ => []
  | .mfs _ d _ => [(0, d.toNat)]
  | .mts _ a _ => [(0, a.toNat)]
  | .trcMark _ a _ => [(0, a.toNat)]
  | .asyncTrapEntry _ => []
  | .handlerBudget _ => []
  | .postedAtomicUe _ => []
  | .pageFaultPark _ => []
  | .fbStatWrite _ _ => []
  | .replayAll _ => []
  | .replayRerun _ => []
  | .migrationShip _ => []
  | .migrationArrival _ => []
  | .taskMessageArrival _ => []
  | .taskAdmission _ => []
  | .quantumExpiry _ => []
  | .spireLaunchRequest => []
  | .jobDealStart => []
  | .groupDelivery _ _ => []
  | .freeCountReport _ => []
  | .lqTailWrite _ => []
  | .hostLaunchRecord => []
  | .jobCtlNone _ => []
  | .jobPreempt _ => []
  | .jobResume _ => []
  | .jobKill _ => []
  | .preemptArrival _ _ => []
  | .preemptDeadline _ => []
  | .sendQueueInject _ => []
  | .slotReturnSend _ _ => []
  | .channelMessageArrival _ => []
  | .connectArrival _ => []
  | .connectAnswer _ => []
  | .slotReturn _ => []
  | .resyncWord _ => []
  | .resyncTimeout _ _ => []
  | .closeMessageArrival _ => []
  | .closeAckArrival _ => []
  | .failureNotification _ => []
  | .movedArrival _ => []
  | .markArrivalOld _ => []
  | .markArrivalNew _ => []
  | .replySinkRelease _ => []
  | .podPortDiscard _ => []
  | .podErrorReply _ => []
  | .podArrival _ _ => []
  | .linkReplay _ => []
  | .linkDown _ => []
  | .alogEnable _ => []
  | .alogReplayStart _ => []
  | .replayReinject => []
  | .ctEntryWrite _ _ => []
  | .circuitUp _ => []
  | .twAdopt _ _ => []
  | .tilePeerRequest _ _ => []
  | .tilePeerSend _ _ => []
  | .tilePeerWrite _ _ => []
  | .rdmaWrite _ => []
  | .rdmaRead _ => []
  | .rdmaUnsupported _ => []
  | .pfcPause _ _ _ => []
  | .qpContextWrite _ _ _ _ => []
  | .dbgCmdNone _ => []
  | .dbgStop _ => []
  | .dbgResume _ => []
  | .dbgStep _ => []
  | .slogEnable _ => []
  | .slogDisable _ => []
  | .rampSlotBoundary => []
  | .powerOnReset => []
  | .bootPhaseAdvance _ => []
  | .hbmTrainingDone => []
  | .fullServiceStart => []
  | .recoveryImage _ => []
  | .attestIdentityRequest _ => []
  | .attestReportRequest _ => []
  | .thermalThrottle _ => []
  | .thermalRestore => []
  | .thermalClockStop _ => []
  | .controlRegisterWrite _ _ _ _ _ => []
  | .vectorQueueExecute _ => []
  | .writeAcknowledgement _ => []
  | .ethernetLinkChange _ _ => []
  | .pfcPauseExpiry _ => []
  | .powerLoss => []
  | .packageReset => []

/-- The registers whose value an instruction reads. -/
def readsOf : Instr → List (Nat × Nat)
  | .add _ _ a b => [(0, a.toNat), (0, b.toNat)]
  | .sub _ _ a b => [(0, a.toNat), (0, b.toNat)]
  | .mul _ _ a b => [(0, a.toNat), (0, b.toNat)]
  | .mulh _ _ a b => [(0, a.toNat), (0, b.toNat)]
  | .mulhu _ _ a b => [(0, a.toNat), (0, b.toNat)]
  | .div _ _ a b => [(0, a.toNat), (0, b.toNat)]
  | .divu _ _ a b => [(0, a.toNat), (0, b.toNat)]
  | .rem _ _ a b => [(0, a.toNat), (0, b.toNat)]
  | .remu _ _ a b => [(0, a.toNat), (0, b.toNat)]
  | .and _ _ a b => [(0, a.toNat), (0, b.toNat)]
  | .or _ _ a b => [(0, a.toNat), (0, b.toNat)]
  | .xor _ _ a b => [(0, a.toNat), (0, b.toNat)]
  | .andn _ _ a b => [(0, a.toNat), (0, b.toNat)]
  | .shl _ _ a b => [(0, a.toNat), (0, b.toNat)]
  | .shr _ _ a b => [(0, a.toNat), (0, b.toNat)]
  | .sar _ _ a b => [(0, a.toNat), (0, b.toNat)]
  | .min _ _ a b => [(0, a.toNat), (0, b.toNat)]
  | .max _ _ a b => [(0, a.toNat), (0, b.toNat)]
  | .minu _ _ a b => [(0, a.toNat), (0, b.toNat)]
  | .maxu _ _ a b => [(0, a.toNat), (0, b.toNat)]
  | .clz _ _ a => [(0, a.toNat)]
  | .ctz _ _ a => [(0, a.toNat)]
  | .popc _ _ a => [(0, a.toNat)]
  | .brev _ _ a => [(0, a.toNat)]
  | .sext _ _ a _ => [(0, a.toNat)]
  | .zext _ _ a _ => [(0, a.toNat)]
  | .addi _ _ a _ => [(0, a.toNat)]
  | .andi _ _ a _ => [(0, a.toNat)]
  | .ori _ _ a _ => [(0, a.toNat)]
  | .xori _ _ a _ => [(0, a.toNat)]
  | .shli _ _ a _ => [(0, a.toNat)]
  | .shri _ _ a _ => [(0, a.toNat)]
  | .sari _ _ a _ => [(0, a.toNat)]
  | .lit _ _ _ => []
  | .lith _ d _ _ => [(0, d.toNat)]
  | .cmp _ _ a b _ => [(0, a.toNat), (0, b.toNat)]
  | .cmpiEq _ _ a _ => [(0, a.toNat)]
  | .cmpiNe _ _ a _ => [(0, a.toNat)]
  | .cmpiLt _ _ a _ => [(0, a.toNat)]
  | .cmpiLe _ _ a _ => [(0, a.toNat)]
  | .cmpiLtu _ _ a _ => [(0, a.toNat)]
  | .cmpiLeu _ _ a _ => [(0, a.toNat)]
  | .pand _ _ _ _ => []
  | .por _ _ _ _ => []
  | .pxor _ _ _ _ => []
  | .pnot _ _ _ => []
  | .pset _ _ _ => []
  | .mov _ _ a => [(0, a.toNat)]
  | .sel _ _ a b _ => [(0, a.toNat), (0, b.toNat)]
  | .csetb _ _ a b => [(0, a.toNat), (0, b.toNat)]
  | .crestr _ _ a b => [(0, a.toNat), (0, b.toNat)]
  | .cadd _ _ a b => [(0, a.toNat), (0, b.toNat)]
  | .cget _ _ a _ => [(0, a.toNat)]
  | .cclr _ _ a => [(0, a.toNat)]
  | .cseal _ _ a _ => [(0, a.toNat)]
  | .ctest _ _ a b => [(0, a.toNat), (0, b.toNat)]
  | .ld _ _ a _ _ => [(0, a.toNat)]
  | .st _ d a _ _ => [(0, d.toNat), (0, a.toNat)]
  | .ldc _ _ a _ => [(0, a.toNat)]
  | .stc _ d a _ => [(0, d.toNat), (0, a.toNat)]
  | .lda _ _ a _ _ => [(0, a.toNat)]
  | .stl _ d a _ _ => [(0, d.toNat), (0, a.toNat)]
  | .pf _ _ a _ => [(0, a.toNat)]
  | .fence _ _ => []
  | .fenceLb _ => []
  | .amo _ _ a b _ _ => [(0, a.toNat), (0, b.toNat)]
  | .cas _ d a b _ => [(0, d.toNat), (0, a.toNat), (0, b.toNat)]
  | .stm _ d a b _ => [(0, d.toNat), (0, a.toNat), (0, b.toNat)]
  | .stred _ d a b _ _ => [(0, d.toNat), (0, a.toNat), (0, b.toNat)]
  | .barArr _ _ => []
  | .barWait _ _ => []
  | .barSync _ _ => []
  | .cntSet _ a _ => [(0, a.toNat)]
  | .cntAdd _ a _ => [(0, a.toNat)]
  | .cntWait _ a _ => [(0, a.toNat)]
  | .br _ _ => []
  | .call _ _ => []
  | .jr _ _ a => [(0, a.toNat)]
  | .endTask _ => []
  | .yield _ => []
  | .nop _ => []
  | .loop _ a _ _ => [(0, a.toNat)]
  | .loopi _ d a _ _ _ => [(0, d.toNat), (0, a.toNat)]
  | .safept _ _ _ _ => []
  | .vadd _ _ a b _ _ => [(1, a.toNat), (1, b.toNat)]
  | .vsub _ _ a b _ _ => [(1, a.toNat), (1, b.toNat)]
  | .vmul _ _ a b _ _ => [(1, a.toNat), (1, b.toNat)]
  | .vfma _ d a b _ _ => [(1, d.toNat), (1, a.toNat), (1, b.toNat)]
  | .vmax _ _ a b _ _ => [(1, a.toNat), (1, b.toNat)]
  | .vmin _ _ a b _ _ => [(1, a.toNat), (1, b.toNat)]
  | .vabs _ _ a _ _ => [(1, a.toNat)]
  | .vneg _ _ a _ _ => [(1, a.toNat)]
  | .vexp2 _ _ a _ _ => [(1, a.toNat)]
  | .vlog2 _ _ a _ _ => [(1, a.toNat)]
  | .vrcp _ _ a _ _ => [(1, a.toNat)]
  | .vrsq _ _ a _ _ => [(1, a.toNat)]
  | .vcvt _ _ a _ _ _ => [(1, a.toNat)]
  | .vsel _ _ a b _ _ => [(1, a.toNat), (1, b.toNat)]
  | .vshf _ _ a b _ _ => [(1, a.toNat), (1, b.toNat)]
  | .viota _ _ _ _ => []
  | .mand _ _ _ _ => []
  | .mor _ _ _ _ => []
  | .mnot _ _ _ => []
  | .vld _ _ a x _ _ => [(0, a.toNat), (0, x.toNat)]
  | .vst _ d a x _ _ _ => [(1, d.toNat), (0, a.toNat), (0, x.toNat)]
  | .vstSeed _ d a x _ _ _ _ => [(1, d.toNat), (0, a.toNat), (0, x.toNat)]
  | .vlds _ _ a x _ _ => [(0, a.toNat), (0, x.toNat)]
  | .vgath _ _ a v _ _ => [(0, a.toNat), (1, v.toNat)]
  | .vscat _ d a v _ _ _ => [(1, d.toNat), (0, a.toNat), (1, v.toNat)]
  | .vscatSeed _ d a v _ _ _ _ => [(1, d.toNat), (0, a.toNat), (1, v.toNat)]
  | .vbcst _ _ a _ _ => [(0, a.toNat)]
  | .vins _ d a b _ => [(1, d.toNat), (0, a.toNat), (0, b.toNat)]
  | .vext _ _ a b _ => [(1, a.toNat), (0, b.toNat)]
  | .vreds _ _ a _ _ => [(1, a.toNat)]
  | .vredm _ _ a _ _ => [(1, a.toNat)]
  | .vcmp _ _ a b _ _ _ => [(1, a.toNat), (1, b.toNat)]
  | .vectorLoadUe _ => []
  | .mxZero _ _ => []
  | .mxMma _ c _ a b d => [(2, c.toNat), (0, a.toNat), (0, b.toNat), (0, d.toNat)]
  | .mxRag _ c _ a b d => [(2, c.toNat), (0, a.toNat), (0, b.toNat), (0, d.toNat)]
  | .mxLda _ c a d => [(2, c.toNat), (0, a.toNat), (0, d.toNat)]
  | .mxSta _ c a d => [(2, c.toNat), (0, a.toNat), (0, d.toNat)]
  | .mxStaSeed _ c a d _ => [(2, c.toNat), (0, a.toNat), (0, d.toNat)]
  | .mxWait _ _ _ => []
  | .mxStat _ _ _ => []
  | .matrixOpStart _ => []
  | .matrixTripleBoundary _ => []
  | .matrixOpRetire _ => []
  | .matrixOperandUe _ => []
  | .laClr _ a => [(0, a.toNat)]
  | .laAdd _ _ a b => [(0, a.toNat), (0, b.toNat)]
  | .laAddv _ _ a v => [(0, a.toNat), (1, v.toNat)]
  | .laMrg _ a b => [(0, a.toNat), (0, b.toNat)]
  | .laRnd _ _ a _ => [(0, a.toNat)]
  | .chNew _ _ a b => [(0, a.toNat), (0, b.toNat)]
  | .chConn _ a b => [(0, a.toNat), (0, b.toNat)]
  | .chSend _ a b => [(0, a.toNat), (0, b.toNat)]
  | .chRecv _ _ a => [(0, a.toNat)]
  | .chOffer _ _ a => [(0, a.toNat)]
  | .chSelect _ a b => [(0, a.toNat), (0, b.toNat)]
  | .chDeleg _ a b => [(0, a.toNat), (0, b.toNat)]
  | .chAccept _ d a => [(0, d.toNat), (0, a.toNat)]
  | .chClose _ a => [(0, a.toNat)]
  | .chStat _ _ a => [(0, a.toNat)]
  | .chSync _ a => [(0, a.toNat)]
  | .chFree _ a => [(0, a.toNat)]
  | .spawn _ a b => [(0, a.toNat), (0, b.toNat)]
  | .bind _ d a b => [(0, d.toNat), (0, a.toNat), (0, b.toNat)]
  | .unbind _ a => [(0, a.toNat)]
  | .launch _ _ a => [(0, a.toNat)]
  | .jobq _ _ a => [(0, a.toNat)]
  | .ipGive _ a b => [(0, a.toNat), (0, b.toNat)]
  | .ipTake _ _ a => [(0, a.toNat)]
  | .am _ d a b n => (List.range n.toNat).map (fun i => (0, d.toNat + i)) ++ [(0, a.toNat), (0, b.toNat)]
  | .engW _ d _ _ => [(0, d.toNat)]
  | .engR _ _ _ _ => []
  | .engGo _ _ => []
  | .engWait _ _ => []
  | .engineSwap _ => []
  | .engineCompletion _ => []
  | .engineFault _ => []
  | .engineBusError _ => []
  | .engineUe _ => []
  | .exchangeJoin _ _ => []
  | .exchangeNote _ _ => []
  | .tret _ => []
  | .sret _ => []
  | .brk _ => []
  | .tlbi _ a _ => [(0, a.toNat)]
  | .compose _ _ a b => [(0, a.toNat), (0, b.toNat)]
  | .towerForm _ => []
  | .composeTimeout _ => []
  | .release _ => []
  | .govPin _ => []
  | .govUnpin _ => []
  | .trap _ _ => []
  | .mfs _ _ _ => []
  | .mts _ a _ => [(0, a.toNat)]
  | .trcMark _ a _ => [(0, a.toNat)]
  | .asyncTrapEntry _ => []
  | .handlerBudget _ => []
  | .postedAtomicUe _ => []
  | .pageFaultPark _ => []
  | .fbStatWrite _ _ => []
  | .replayAll _ => []
  | .replayRerun _ => []
  | .migrationShip _ => []
  | .migrationArrival _ => []
  | .taskMessageArrival _ => []
  | .taskAdmission _ => []
  | .quantumExpiry _ => []
  | .spireLaunchRequest => []
  | .jobDealStart => []
  | .groupDelivery _ _ => []
  | .freeCountReport _ => []
  | .lqTailWrite _ => []
  | .hostLaunchRecord => []
  | .jobCtlNone _ => []
  | .jobPreempt _ => []
  | .jobResume _ => []
  | .jobKill _ => []
  | .preemptArrival _ _ => []
  | .preemptDeadline _ => []
  | .sendQueueInject _ => []
  | .slotReturnSend _ _ => []
  | .channelMessageArrival _ => []
  | .connectArrival _ => []
  | .connectAnswer _ => []
  | .slotReturn _ => []
  | .resyncWord _ => []
  | .resyncTimeout _ _ => []
  | .closeMessageArrival _ => []
  | .closeAckArrival _ => []
  | .failureNotification _ => []
  | .movedArrival _ => []
  | .markArrivalOld _ => []
  | .markArrivalNew _ => []
  | .replySinkRelease _ => []
  | .podPortDiscard _ => []
  | .podErrorReply _ => []
  | .podArrival _ _ => []
  | .linkReplay _ => []
  | .linkDown _ => []
  | .alogEnable _ => []
  | .alogReplayStart _ => []
  | .replayReinject => []
  | .ctEntryWrite _ _ => []
  | .circuitUp _ => []
  | .twAdopt _ _ => []
  | .tilePeerRequest _ _ => []
  | .tilePeerSend _ _ => []
  | .tilePeerWrite _ _ => []
  | .rdmaWrite _ => []
  | .rdmaRead _ => []
  | .rdmaUnsupported _ => []
  | .pfcPause _ _ _ => []
  | .qpContextWrite _ _ _ _ => []
  | .dbgCmdNone _ => []
  | .dbgStop _ => []
  | .dbgResume _ => []
  | .dbgStep _ => []
  | .slogEnable _ => []
  | .slogDisable _ => []
  | .rampSlotBoundary => []
  | .powerOnReset => []
  | .bootPhaseAdvance _ => []
  | .hbmTrainingDone => []
  | .fullServiceStart => []
  | .recoveryImage _ => []
  | .attestIdentityRequest _ => []
  | .attestReportRequest _ => []
  | .thermalThrottle _ => []
  | .thermalRestore => []
  | .thermalClockStop _ => []
  | .controlRegisterWrite _ _ _ _ _ => []
  | .vectorQueueExecute _ => []
  | .writeAcknowledgement _ => []
  | .ethernetLinkChange _ _ => []
  | .pfcPauseExpiry _ => []
  | .powerLoss => []
  | .packageReset => []

/-- The registers an instruction writes. -/
def writesOf : Instr → List (Nat × Nat)
  | .add _ d _ _ => [(0, d.toNat)]
  | .sub _ d _ _ => [(0, d.toNat)]
  | .mul _ d _ _ => [(0, d.toNat)]
  | .mulh _ d _ _ => [(0, d.toNat)]
  | .mulhu _ d _ _ => [(0, d.toNat)]
  | .div _ d _ _ => [(0, d.toNat)]
  | .divu _ d _ _ => [(0, d.toNat)]
  | .rem _ d _ _ => [(0, d.toNat)]
  | .remu _ d _ _ => [(0, d.toNat)]
  | .and _ d _ _ => [(0, d.toNat)]
  | .or _ d _ _ => [(0, d.toNat)]
  | .xor _ d _ _ => [(0, d.toNat)]
  | .andn _ d _ _ => [(0, d.toNat)]
  | .shl _ d _ _ => [(0, d.toNat)]
  | .shr _ d _ _ => [(0, d.toNat)]
  | .sar _ d _ _ => [(0, d.toNat)]
  | .min _ d _ _ => [(0, d.toNat)]
  | .max _ d _ _ => [(0, d.toNat)]
  | .minu _ d _ _ => [(0, d.toNat)]
  | .maxu _ d _ _ => [(0, d.toNat)]
  | .clz _ d _ => [(0, d.toNat)]
  | .ctz _ d _ => [(0, d.toNat)]
  | .popc _ d _ => [(0, d.toNat)]
  | .brev _ d _ => [(0, d.toNat)]
  | .sext _ d _ _ => [(0, d.toNat)]
  | .zext _ d _ _ => [(0, d.toNat)]
  | .addi _ d _ _ => [(0, d.toNat)]
  | .andi _ d _ _ => [(0, d.toNat)]
  | .ori _ d _ _ => [(0, d.toNat)]
  | .xori _ d _ _ => [(0, d.toNat)]
  | .shli _ d _ _ => [(0, d.toNat)]
  | .shri _ d _ _ => [(0, d.toNat)]
  | .sari _ d _ _ => [(0, d.toNat)]
  | .lit _ d _ => [(0, d.toNat)]
  | .lith _ d _ _ => [(0, d.toNat)]
  | .cmp _ _ _ _ _ => []
  | .cmpiEq _ _ _ _ => []
  | .cmpiNe _ _ _ _ => []
  | .cmpiLt _ _ _ _ => []
  | .cmpiLe _ _ _ _ => []
  | .cmpiLtu _ _ _ _ => []
  | .cmpiLeu _ _ _ _ => []
  | .pand _ _ _ _ => []
  | .por _ _ _ _ => []
  | .pxor _ _ _ _ => []
  | .pnot _ _ _ => []
  | .pset _ _ _ => []
  | .mov _ d _ => [(0, d.toNat)]
  | .sel _ d _ _ _ => [(0, d.toNat)]
  | .csetb _ d _ _ => [(0, d.toNat)]
  | .crestr _ d _ _ => [(0, d.toNat)]
  | .cadd _ d _ _ => [(0, d.toNat)]
  | .cget _ d _ _ => [(0, d.toNat)]
  | .cclr _ d _ => [(0, d.toNat)]
  | .cseal _ d _ _ => [(0, d.toNat)]
  | .ctest _ _ _ _ => []
  | .ld _ d _ _ _ => [(0, d.toNat)]
  | .st _ _ _ _ _ => []
  | .ldc _ d _ _ => [(0, d.toNat)]
  | .stc _ _ _ _ => []
  | .lda _ d _ _ _ => [(0, d.toNat)]
  | .stl _ _ _ _ _ => []
  | .pf _ _ _ _ => []
  | .fence _ _ => []
  | .fenceLb _ => []
  | .amo _ d _ _ _ _ => [(0, d.toNat)]
  | .cas _ d _ _ _ => [(0, d.toNat)]
  | .stm _ _ _ _ _ => []
  | .stred _ _ _ _ _ _ => []
  | .barArr _ _ => []
  | .barWait _ _ => []
  | .barSync _ _ => []
  | .cntSet _ _ _ => []
  | .cntAdd _ _ _ => []
  | .cntWait _ _ _ => []
  | .br _ _ => []
  | .call _ _ => [(0, 31)]
  | .jr _ d _ => [(0, d.toNat)]
  | .endTask _ => []
  | .yield _ => []
  | .nop _ => []
  | .loop _ _ _ _ => []
  | .loopi _ _ _ _ _ _ => []
  | .safept _ _ _ _ => []
  | .vadd _ d _ _ _ _ => [(1, d.toNat)]
  | .vsub _ d _ _ _ _ => [(1, d.toNat)]
  | .vmul _ d _ _ _ _ => [(1, d.toNat)]
  | .vfma _ d _ _ _ _ => [(1, d.toNat)]
  | .vmax _ d _ _ _ _ => [(1, d.toNat)]
  | .vmin _ d _ _ _ _ => [(1, d.toNat)]
  | .vabs _ d _ _ _ => [(1, d.toNat)]
  | .vneg _ d _ _ _ => [(1, d.toNat)]
  | .vexp2 _ d _ _ _ => [(1, d.toNat)]
  | .vlog2 _ d _ _ _ => [(1, d.toNat)]
  | .vrcp _ d _ _ _ => [(1, d.toNat)]
  | .vrsq _ d _ _ _ => [(1, d.toNat)]
  | .vcvt _ d _ _ _ _ => [(1, d.toNat)]
  | .vsel _ d _ _ _ _ => [(1, d.toNat)]
  | .vshf _ d _ _ _ _ => [(1, d.toNat)]
  | .viota _ d _ _ => [(1, d.toNat)]
  | .mand _ _ _ _ => []
  | .mor _ _ _ _ => []
  | .mnot _ _ _ => []
  | .vld _ d _ _ _ _ => [(1, d.toNat)]
  | .vst _ _ _ _ _ _ _ => []
  | .vstSeed _ _ _ _ _ _ _ _ => []
  | .vlds _ d _ _ _ _ => [(1, d.toNat)]
  | .vgath _ d _ _ _ _ => [(1, d.toNat)]
  | .vscat _ _ _ _ _ _ _ => []
  | .vscatSeed _ _ _ _ _ _ _ _ => []
  | .vbcst _ d _ _ _ => [(1, d.toNat)]
  | .vins _ d _ _ _ => [(1, d.toNat)]
  | .vext _ d _ _ _ => [(0, d.toNat)]
  | .vreds _ d _ _ _ => [(0, d.toNat)]
  | .vredm _ d _ _ _ => [(0, d.toNat)]
  | .vcmp _ _ _ _ _ _ _ => []
  | .vectorLoadUe _ => []
  | .mxZero _ c => [(2, c.toNat)]
  | .mxMma _ c _ _ _ _ => [(2, c.toNat)]
  | .mxRag _ c _ _ _ _ => [(2, c.toNat)]
  | .mxLda _ c _ _ => [(2, c.toNat)]
  | .mxSta _ _ _ _ => []
  | .mxStaSeed _ _ _ _ _ => []
  | .mxWait _ _ _ => []
  | .mxStat _ _ a => [(0, a.toNat)]
  | .matrixOpStart _ => []
  | .matrixTripleBoundary _ => []
  | .matrixOpRetire _ => []
  | .matrixOperandUe _ => []
  | .laClr _ _ => []
  | .laAdd _ _ _ _ => []
  | .laAddv _ _ _ _ => []
  | .laMrg _ _ _ => []
  | .laRnd _ d _ _ => [(0, d.toNat)]
  | .chNew _ d _ _ => [(0, d.toNat)]
  | .chConn _ _ _ => []
  | .chSend _ _ _ => []
  | .chRecv _ d _ => [(0, d.toNat)]
  | .chOffer _ d _ => [(0, d.toNat)]
  | .chSelect _ _ _ => []
  | .chDeleg _ _ _ => []
  | .chAccept _ d _ => [(0, d.toNat)]
  | .chClose _ _ => []
  | .chStat _ d _ => [(0, d.toNat)]
  | .chSync _ _ => []
  | .chFree _ _ => []
  | .spawn _ _ _ => []
  | .bind _ _ _ _ => []
  | .unbind _ _ => []
  | .launch _ d _ => [(0, d.toNat)]
  | .jobq _ d _ => [(0, d.toNat)]
  | .ipGive _ _ _ => []
  | .ipTake _ d _ => [(0, d.toNat)]
  | .am _ _ _ _ _ => []
  | .engW _ _ _ _ => []
  | .engR _ d _ _ => [(0, d.toNat)]
  | .engGo _ _ => []
  | .engWait _ _ => []
  | .engineSwap _ => []
  | .engineCompletion _ => []
  | .engineFault _ => []
  | .engineBusError _ => []
  | .engineUe _ => []
  | .exchangeJoin _ _ => []
  | .exchangeNote _ _ => []
  | .tret _ => []
  | .sret _ => []
  | .brk _ => []
  | .tlbi _ _ _ => []
  | .compose _ _ _ _ => []
  | .towerForm _ => []
  | .composeTimeout _ => []
  | .release _ => []
  | .govPin _ => []
  | .govUnpin _ => []
  | .trap _ _ => []
  | .mfs _ d _ => [(0, d.toNat)]
  | .mts _ _ _ => []
  | .trcMark _ _ _ => []
  | .asyncTrapEntry _ => []
  | .handlerBudget _ => []
  | .postedAtomicUe _ => []
  | .pageFaultPark _ => []
  | .fbStatWrite _ _ => []
  | .replayAll _ => []
  | .replayRerun _ => []
  | .migrationShip _ => []
  | .migrationArrival _ => []
  | .taskMessageArrival _ => []
  | .taskAdmission _ => []
  | .quantumExpiry _ => []
  | .spireLaunchRequest => []
  | .jobDealStart => []
  | .groupDelivery _ _ => []
  | .freeCountReport _ => []
  | .lqTailWrite _ => []
  | .hostLaunchRecord => []
  | .jobCtlNone _ => []
  | .jobPreempt _ => []
  | .jobResume _ => []
  | .jobKill _ => []
  | .preemptArrival _ _ => []
  | .preemptDeadline _ => []
  | .sendQueueInject _ => []
  | .slotReturnSend _ _ => []
  | .channelMessageArrival _ => []
  | .connectArrival _ => []
  | .connectAnswer _ => []
  | .slotReturn _ => []
  | .resyncWord _ => []
  | .resyncTimeout _ _ => []
  | .closeMessageArrival _ => []
  | .closeAckArrival _ => []
  | .failureNotification _ => []
  | .movedArrival _ => []
  | .markArrivalOld _ => []
  | .markArrivalNew _ => []
  | .replySinkRelease _ => []
  | .podPortDiscard _ => []
  | .podErrorReply _ => []
  | .podArrival _ _ => []
  | .linkReplay _ => []
  | .linkDown _ => []
  | .alogEnable _ => []
  | .alogReplayStart _ => []
  | .replayReinject => []
  | .ctEntryWrite _ _ => []
  | .circuitUp _ => []
  | .twAdopt _ _ => []
  | .tilePeerRequest _ _ => []
  | .tilePeerSend _ _ => []
  | .tilePeerWrite _ _ => []
  | .rdmaWrite _ => []
  | .rdmaRead _ => []
  | .rdmaUnsupported _ => []
  | .pfcPause _ _ _ => []
  | .qpContextWrite _ _ _ _ => []
  | .dbgCmdNone _ => []
  | .dbgStop _ => []
  | .dbgResume _ => []
  | .dbgStep _ => []
  | .slogEnable _ => []
  | .slogDisable _ => []
  | .rampSlotBoundary => []
  | .powerOnReset => []
  | .bootPhaseAdvance _ => []
  | .hbmTrainingDone => []
  | .fullServiceStart => []
  | .recoveryImage _ => []
  | .attestIdentityRequest _ => []
  | .attestReportRequest _ => []
  | .thermalThrottle _ => []
  | .thermalRestore => []
  | .thermalClockStop _ => []
  | .controlRegisterWrite _ _ _ _ _ => []
  | .vectorQueueExecute _ => []
  | .writeAcknowledgement _ => []
  | .ethernetLinkChange _ _ => []
  | .pfcPauseExpiry _ => []
  | .powerLoss => []
  | .packageReset => []

/-- The first register outside the task's declared resources (R44, R88). -/
def illegalReg (x : Task) (i : Instr) : Option (Nat × Nat) :=
  (regsOf i).find? fun r =>
    match r.1 with
    | 0 => r.2 ≠ 0 && x.gregs ≤ r.2
    | 1 => x.vregs ≤ r.2 || 16 ≤ r.2
    | _ => x.accs ≤ r.2

/-- The information word of ILLEGAL_REG (R89). -/
def illegalRegInfo (i : Instr) (r : Nat × Nat) : W64 := headInfo i ||| BitVec.ofNat 64 (r.1 * 2 ^ 32 + r.2 * 2 ^ 34)

/-- The access size of a size code (R97). -/
def szBytes (z : BitVec 3) : Nat :=
  match z.toNat with
  | 0 => 1 | 1 => 1 | 2 => 2 | 3 => 2 | 4 => 4 | 5 => 4 | 6 => 8 | _ => 16

/-- Sign-extending loads (R97). -/
def szSigned (z : BitVec 3) : Bool := z = 1 || z = 3 || z = 5

/-- Effective address of the M form (R148). -/
def eaM (c : GVal) (o : BitVec 8) (size : Nat) : W64 := cursor c.bits + (o.signExtend 64) * BitVec.ofNat 64 size
/-- Effective address of LDC and STC (R148). -/
def eaC (c : GVal) (i : BitVec 11) : W64 := cursor c.bits + (i.signExtend 64) * 16
/-- Effective address of PF (R148). -/
def eaI (c : GVal) (i : BitVec 11) : W64 := cursor c.bits + i.signExtend 64

/-- Target of a B-form instruction (R94). -/
def branchTarget (pc : W64) (x : BitVec 21) : W64 := pc + (x.signExtend 64) * 4

/-- A signed immediate as a 64-bit operand (R119, R124). -/
def imm64 (i : BitVec 11) : W64 := i.signExtend 64

end Sys2Proof.Machine
end

