-- ==== Sys2Proof/Machine/Mem.lean ====
section
/-! DEFINITION. Forming, checking and placing an access (R148 to R151, R174, R201, R231, R444): capability, window,
alignment, range lock, watch, translation (R337 to R344), target. -/

namespace Sys2Proof.Machine

/-- How an access uses its page (R342). -/
inductive Use
  | load | store | atomic | fetch
  deriving DecidableEq, Repr

def Use.writes : Use → Bool
  | .store | .atomic => true
  | _ => false
def Use.reads : Use → Bool
  | .load | .atomic => true
  | _ => false

/-- The access kinds of FB_ENTRY.acc: read, write, fetch, supervisor level (R351). -/
def Use.acc (u : Use) (sup : Bool) : BitVec 4 :=
  BitVec.ofNat 4 (bit u.reads 0 + bit u.writes 1 + bit (u = .fetch) 2 + bit sup 3)

/-- The outcome of a translation (R342, R356). -/
inductive Found
  | leaf (level : Nat) (e : W64)
  | fault (kind level : Nat)
  | bus
  | ue
  deriving DecidableEq, Repr

/-- An 8-byte read of a walk or of the address-space table (R339, R342, R356). -/
def State.tableRead (s : State) (a : Nat) : Except Found W64 :=
  if !s.backed a 8 then .error .bus
  else if (s.firstBad a 8).isSome then .error .ue
  else .ok (BitVec.ofNat 64 (s.readNat a 8))

/-- Root table of an ASID (R339). -/
def State.rootOf (s : State) (asid : W16) : Except Found Nat := do
  let lsize := min 12 (s.astab.extractLsb' 0 4).toNat
  if 2 ^ (lsize + 4) ≤ asid.toNat then throw .bus
  let e ← s.tableRead ((s.astab.extractLsb' 12 34).toNat * 2 ^ 12 + 8 * asid.toNat)
  if e.getLsbD 0 = false || e.extractLsb' 1 15 ≠ 0 || e.extractLsb' 46 18 ≠ 0 then throw .bus
  pure ((e.extractLsb' 16 30).toNat * 2 ^ 16)

/-- Index of a level and size of the page of a leaf there, in address bits (R340). -/
def tableIndex (level : Nat) (va : Nat) : Nat :=
  match level with
  | 1 => bits va 51 39 | 2 => bits va 38 30 | 3 => bits va 29 21 | _ => bits va 20 16
def pageBits (level : Nat) : Nat :=
  match level with
  | 2 => 30 | 3 => 21 | _ => 16

/-- A table entry that is neither well-formed pointer nor leaf at its level (R341, R342). -/
def malformed (e : W64) (level : Nat) : Bool :=
  if e.getLsbD 1 then
    level = 1 || e.getLsbD 6 || e.getLsbD 15 || e.extractLsb' 46 18 ≠ 0 || 79 < (e.extractLsb' 8 7).toNat
      || (e.extractLsb' 0 46).toNat % 2 ^ pageBits level / 2 ^ 16 ≠ 0
  else
    level = 4 || e.extractLsb' 2 6 ≠ 0 || e.extractLsb' 46 18 ≠ 0 || (level ≠ 3 && e.extractLsb' 8 4 ≠ 0)

/-- The walk from a table down (R342). -/
def State.walkFrom (s : State) (va : Nat) : Nat → Nat → Nat → Found
  | 0, level, _ => .fault 2 level
  | fuel + 1, level, t =>
    match s.tableRead (t + 8 * tableIndex level va) with
    | .error f => f
    | .ok e =>
      if e.getLsbD 0 = false then .fault 0 level
      else if malformed e level then .fault 2 level
      else if e.getLsbD 1 then .leaf level e
      else s.walkFrom va fuel (level + 1) ((e.extractLsb' 8 38).toNat * 2 ^ 8)

/-- Where a translation is looked for: TLB of a core (true: instruction), cluster L2 TLB, die translation cache. -/
structure Path where
  core : Option (Nat × Bool)
  cl : Option Nat
  die : Nat
  deriving DecidableEq, Repr

/-- The roots that the walker of a path keeps (R344): one of the cluster's two, or the exchange engine's own. -/
def State.rootsAt (s : State) (p : Path) : List (W16 × W64) :=
  match p.cl with
  | some c => if Config.walker s.tick then (s.cluster c).roots1 else (s.cluster c).roots
  | none => (s.die p.die).roots

/-- A walk (R339, R342), with the root it used; a root held by the walker is used as held (R344). -/
def State.walk (s : State) (p : Path) (asid : W16) (va : Nat) : Found × Option Nat :=
  match ((s.rootsAt p).find? fun r => r.1 = asid).map fun r => r.2.toNat with
  | some t => (s.walkFrom va 4 1 t, some t)
  | none =>
    match s.rootOf asid with
    | .error f => (f, none)
    | .ok t => (s.walkFrom va 4 1 t, some t)

/-- A cached translation covers an address (R343). -/
def TlbEntry.covers (x : TlbEntry) (asid : W16) (va : Nat) : Bool :=
  x.asid = asid && x.va.toNat / 2 ^ pageBits x.level = va / 2 ^ pageBits x.level

def tlbFind (l : List TlbEntry) (asid : W16) (va : Nat) : Option TlbEntry := l.find? fun x => x.covers asid va

/-- Fills an entry; in a full structure it replaces a free choice (log entry 10). -/
def tlbFill (l : List TlbEntry) (cap tick : Nat) (x : TlbEntry) : List TlbEntry :=
  if (tlbFind l x.asid x.va.toNat).isSome then l
  else if l.length < cap then l ++ [x]
  else l.set (Config.victim tick % cap) x

/-- A translation with what it took: a miss in the core's TLB, a walk, the root of that walk. -/
structure Lookup where
  found : Found
  missed : Bool
  walked : Bool
  root : Option Nat
  deriving DecidableEq, Repr

def coreTlb (c : Core) (instr : Bool) : List TlbEntry := if instr then c.itlb else c.dtlb

/-- Looks a translation up along a path (R343). -/
def State.lookup (s : State) (p : Path) (asid : W16) (va : Nat) : Lookup :=
  let inCore := match p.core with | some (k, i) => tlbFind (coreTlb (s.core k) i) asid va | none => none
  match inCore with
  | some x => ⟨.leaf x.level x.leaf, false, false, none⟩
  | none =>
    let inL2 := match p.cl with | some c => tlbFind (s.cluster c).l2 asid va | none => none
    match inL2 with
    | some x => ⟨.leaf x.level x.leaf, true, false, none⟩
    | none =>
      match tlbFind (s.die p.die).dtc asid va with
      | some x => ⟨.leaf x.level x.leaf, true, false, none⟩
      | none =>
        let (f, r) := s.walk p asid va
        ⟨f, true, true, r⟩

/-- Fills a leaf into the structures of a path; the die translation cache is filled from a walk only (R343). -/
def State.fillPath (s : State) (p : Path) (asid : W16) (va : Nat) (level : Nat) (leaf : W64) (walked : Bool) : State :=
  let x : TlbEntry := ⟨asid, BitVec.ofNat 64 va, level, leaf⟩
  let s := if walked then s.onDie p.die fun d => { d with dtc := tlbFill d.dtc 4096 s.tick x } else s
  let s := match p.cl with
    | some c => s.onCluster c fun y => { y with l2 := tlbFill y.l2 2048 s.tick x }
    | none => s
  match p.core with
  | some (k, true) => s.onCore k fun c => { c with itlb := tlbFill c.itlb 32 s.tick x }
  | some (k, false) => s.onCore k fun c => { c with dtlb := tlbFill c.dtlb 64 s.tick x }
  | none => s

/-- The last 4 ASIDs a walker used, with their roots (R344). -/
def usedRoot (l : List (W16 × W64)) (asid : W16) (t : Nat) : List (W16 × W64) :=
  ((asid, BitVec.ofNat 64 t) :: l.filter fun r => r.1 ≠ asid).take 4

/-- The walker of a path keeps the root it used (R344; log entry 19). -/
def State.keepRoot (s : State) (p : Path) (asid : W16) (root : Option Nat) : State :=
  match root, p.cl with
  | some t, some c =>
    s.onCluster c fun y =>
      if Config.walker s.tick then { y with roots1 := usedRoot y.roots1 asid t } else { y with roots := usedRoot y.roots asid t }
  | some t, none => s.onDie p.die fun d => { d with roots := usedRoot d.roots asid t }
  | none, _ => s

/-- The leaf grants the use at the level (R342). -/
def leafGrants (e : W64) (u : Use) (sup : Bool) : Bool :=
  (match u with
   | .load => e.getLsbD 2 | .store => e.getLsbD 3 | .atomic => e.getLsbD 2 && e.getLsbD 3 | .fetch => e.getLsbD 4)
  && (sup || !e.getLsbD 5)

/-- Physical address under a leaf (R342). -/
def leafPa (e : W64) (level va : Nat) : Nat := (e.extractLsb' 16 30).toNat * 2 ^ 16 + va % 2 ^ pageBits level

/-- The outcome of a translation with its permission test: the physical address and the leaf, or why not. -/
inductive Xl
  | ok (pa : Nat) (leaf : W64)
  | fault (kind level : Nat)
  | bus
  | ue
  deriving DecidableEq, Repr

/-- Translation of an address along a path, with the fills and roots it leaves (R342 to R344). A cached leaf that forbids
the use is a fault of kind 1. -/
def State.translate (s : State) (p : Path) (asid : W16) (va : Nat) (u : Use) (sup : Bool) : State × Lookup × Xl :=
  let l := s.lookup p asid va
  match l.found with
  | .bus => (s, l, .bus)
  | .ue => (s, l, .ue)
  | .fault k lv => (s.keepRoot p asid l.root, l, .fault k lv)
  | .leaf lv e =>
    let s := s.keepRoot p asid l.root
    if leafGrants e u sup then ((if l.missed then s.fillPath p asid va lv e l.walked else s), l, .ok (leafPa e lv va) e)
    else (s, l, .fault 1 lv)

/-- Window of an address in the private alias (R149, R151). -/
def aliasWin (a : W64) : Option Nat := if a.toNat < 0x1000000 then some (a.toNat / 0x100000) else none

/-- Plane window of an address (R68). -/
def planeWin (a : W64) : Option Nat :=
  match aliasWin a with
  | some w => if 1 ≤ w && w ≤ 11 then some w else none
  | none => none

/-- Granule base of an address in window w (R70). -/
def granule (w : Nat) (a : W64) : W64 := BitVec.ofNat 64 (a.toNat / (winOf w).slot * (winOf w).slot)

def failIf (b : Bool) (st : Stop) : Eff Unit := if b then .error st else .ok ()

/-- Check 1 of R149: the capability, over the granule's footprint for an element access (R70). -/
def check1 (c : GVal) (perm : Byte) (a : W64) (n : Nat) (elem : Bool) : Eff Unit :=
  let r := match planeWin a, elem with
    | some w, true => capCheck c perm (granule w a) (winOf w).foot
    | _, _ => capCheck c perm a n
  match r with
  | some t => .error (.trap t a)
  | none => .ok ()

/-- Check 2 of R149, for every byte of an access in W0 (R220). -/
def check2 (a : W64) (n : Nat) : Eff Unit :=
  match aliasWin a with
  | some w =>
    failIf (12 ≤ w || 0x80000 ≤ a.toNat % 0x100000 || (decide (w = 0) && decide (0x80000 < a.toNat % 0x100000 + n))) (.trap .window a)
  | none => .ok ()

/-- Check 3 of R149, with the rules of R70 and R150 in the plane windows. -/
def check3 (a : W64) (n al : Nat) (elem : Bool) : Eff Unit :=
  match planeWin a with
  | some w => failIf (!elem || a.toNat % (winOf w).step ≠ 0 || n ≠ (if w = 11 then 8 else 4)) (.trap .align a)
  | none => failIf (a.toNat % al ≠ 0) (.trap .align a)

/-- What a range lock does to an access (R174, R201, R231). -/
inductive LockRes
  | free | wait (mx : Bool) | locked
  deriving DecidableEq, Repr

def overlap (lo hi lo' hi' : Nat) : Bool := decide (lo < hi') && decide (lo' < hi) && decide (lo < hi) && decide (lo' < hi')

/-- The table's answer for a registered range it overlaps. -/
def Lock.answer (l : Lock) (t : BitVec 48) (write : Bool) : LockRes :=
  if l.read && !write then .free else if l.task = t then .wait l.matrix else .locked

/-- The answer of the endpoint buffers of a core (R231). -/
def bufferAnswer (c : Core) (t : BitVec 48) (lo hi : Nat) (write : Bool) : LockRes :=
  if c.eps.any fun e => e.2.status ≠ .free && overlap lo hi e.2.bufBase.toNat (e.2.bufBase.toNat + e.2.bufSize.toNat)
      && (write || e.2.owner ≠ some t) then .locked else .free

def LockRes.join : LockRes → LockRes → LockRes
  | .locked, _ => .locked
  | _, .locked => .locked
  | .wait a, .wait b => .wait (a || b)
  | .wait a, .free => .wait a
  | .free, x => x

/-- A test against the table of a core, with the answer each overlapped range gives: scratchpad offsets, or virtual addresses
of an ASID (R174). -/
def lockTestBy (c : Core) (t : BitVec 48) (spad : Bool) (asid : W16) (lo hi : Nat) (write : Bool) (ans : Lock → LockRes) : LockRes :=
  let r := (c.locks.filter fun l => l.spad = spad && (spad || l.asid = asid) && overlap lo hi l.lo l.hi).foldl
    (fun r l => r.join (ans l)) .free
  if spad then r.join (bufferAnswer c t lo hi write) else r

/-- Check 4 of R149 (R174, R201). -/
def lockTest (c : Core) (t : BitVec 48) (spad : Bool) (asid : W16) (lo hi : Nat) (write : Bool) : LockRes :=
  lockTestBy c t spad asid lo hi write fun l => l.answer t write

def lockStop (a : W64) : LockRes → Eff Unit
  | .free => .ok ()
  | .wait mx => .error (.wait (.lock mx))
  | .locked => .error (.trap .rangeLocked a)

/-- The range of an access as the issuing core compares it (R174). -/
def lockRange (a : W64) (n : Nat) : Bool × Nat × Nat :=
  match aliasWin a with
  | some w =>
    let o := a.toNat % 0x100000
    if 1 ≤ w && w ≤ 11 then
      let g := o / (winOf w).slot * (winOf w).slot
      (true, g, g + (winOf w).foot)
    else (true, o, o + n)
  | none => (false, a.toNat, a.toNat + n)

/-- Check 4 of R149. -/
def check4 (s : State) (a : W64) (n : Nat) (write : Bool) : Eff Unit :=
  let (sp, lo, hi) := lockRange a n
  lockStop a (lockTest s.me s.curTid sp s.curTask.asid lo hi write)

/-- A watch entry that matches a data access of a task (R443, R444): its number. -/
def watchMatch (s : State) (x : Task) (a : W64) (n : Nat) (reads writes : Bool) : Option Nat :=
  (List.range 8).find? fun e =>
    let ctl := sget 0 s.dbg.bp (4 * e)
    let kind := (ctl.extractLsb' 1 2).toNat
    let lo := sget 0 s.dbg.bp (4 * e + 2)
    let len := max 1 (ctl.extractLsb' 4 28).toNat
    ctl.getLsbD 0 && (if ctl.getLsbD 3 then ctl.extractLsb' 32 32 = x.job else (sget 0 s.dbg.bp (4 * e + 1)).extractLsb' 0 48 = x.gtid)
      && ((kind = 1 && reads) || (kind = 2 && writes) || (kind = 3 && (reads || writes)))
      && overlap a.toNat (a.toNat + n) lo.toNat (lo.toNat + len)

/-- The BREAK information word of a watch entry (R446). -/
def watchInfo (e : Nat) (a : W64) : W64 := BitVec.ofNat 64 (e + 8 + bits a.toNat 51 0 * 2 ^ 8)

/-- Watch entries, between checks 4 and 5 (R444). -/
def checkWatch (s : State) (a : W64) (n : Nat) (u : Use) : Eff Unit :=
  match watchMatch s s.curTask a n u.reads u.writes with
  | some e => .error (.brk (watchInfo e a))
  | none => .ok ()

/-- Where a placed access goes; a control register with whether the mapping has the supervisor bit (R330). -/
inductive Target
  | mem (pa : Nat)
  | ctl (die off : Nat) (sup : Bool)
  deriving DecidableEq, Repr

/-- A task that may be shipped to a home-execute page (R320). -/
def shippable (s : State) (t : BitVec 48) : Bool :=
  let x := s.task t
  let c := s.core x.core
  let ops := ((s.clusters.map fun p => p.2.eng) ++ (s.dies.map fun p => p.2.eng)).any fun e =>
    match e with | some o => o.task = t | none => false
  x.tiles = [] && !(c.eps.any fun e => e.2.status ≠ .free && e.2.owner = some t) && x.barriers = 0
    && !ops && !(c.sh0.ready && c.sh0.owner = some t) && !(c.sh1.ready && c.sh1.owner = some t) && x.tower = [] && !x.high

/-- Counts a lookup at the issuing task (R359). -/
def countLookup (s : State) (l : Lookup) (u : Use) : State :=
  s.onCur fun x => { x with counts := { x.counts with
    dmiss := if l.missed && u ≠ .fetch then x.counts.dmiss + 1 else x.counts.dmiss,
    walks := if l.walked then x.counts.walks + 1 else x.counts.walks } }

/-- Check 6 for a physical address, with the range locks of a core reached through its global scratchpad address (R149,
R174, R231). -/
def checkTarget (s : State) (a : W64) (n pa : Nat) (u : Use) (sup : Bool) : Eff Target :=
  match s.paKind pa with
  | .bad => .error (.trap .busError a)
  | .control d o => .ok (.ctl d o sup)
  | .memory =>
    let o := pa % 2 ^ 43
    if 0x060000000000 ≤ o && u ≠ .fetch then do
      let k := pa / 2 ^ 43 * 320 + (o - 0x060000000000) / 0x80000
      let off := (o - 0x060000000000) % 0x80000
      lockStop a (lockTest (s.core k) s.curTid true 0 off (off + n) u.writes)
      .ok (.mem pa)
    else .ok (.mem pa)

/-- Check 5 of R149 for an address at or above 16 MiB: the physical address, the supervisor bit of its leaf, and the state
with what translation left. An address that check 6 refuses ships no task (R328: the access never leaves the core). -/
def translate5 (s : State) (a : W64) (u : Use) : Eff (State × Nat × Bool) :=
  if a.extractLsb' 52 12 ≠ 0 then .error (.trap .busError a)
  else
    let x := s.curTask
    let (s1, l, r) := s.translate ⟨some (s.cur, u = .fetch), some (clusterOf s.cur), dieOf s.cur⟩ x.asid a.toNat u x.sup.priv
    let s1 := countLookup s1 l u
    match r with
    | .bus => .error (.after s1 (.trap .busError a))
    | .ue => .error (.after s1 (.trap .memUe a))
    | .fault k lv =>
      .error (.after s1 (.park ⟨x.asid, a.extractLsb' 16 36, BitVec.ofNat 2 k, BitVec.ofNat 2 (lv - 1), u.acc x.sup.priv⟩))
    | .ok pa e =>
      if e.getLsbD 7 && u ≠ .fetch && pa / 2 ^ 43 ≠ dieOf s.cur && s1.paKind pa ≠ .bad && shippable s1 s.curTid then
        .error (.after s1 (.ship (pa / 2 ^ 43) (e.extractLsb' 8 7).toNat))
      else .ok (s1, pa, e.getLsbD 5)

/-- Check 6 of R149, after a translation. -/
def target6 (s : State) (a : W64) (n pa : Nat) (u : Use) (sup : Bool) : Eff (State × Target) :=
  match checkTarget s a n pa u sup with
  | .ok t => .ok (s, t)
  | .error st => .error (.after s st)

/-- Checks 5 and 6 of R149: the target, and the state with what translation left. The private alias and the global scratchpad
address of a byte are one location (R336, R360). -/
def place (s : State) (a : W64) (n : Nat) (u : Use) : Eff (State × Target) :=
  if a.toNat < 0x1000000 then .ok (s, .mem (spadPa s.cur + a.toNat % 0x100000))
  else
    match translate5 s a u with
    | .ok (s1, pa, sup) => target6 s1 a n pa u sup
    | .error st => .error st

/-- All checks of R149 for an access of n bytes aligned to al. -/
def resolve (s : State) (c : GVal) (perm : Byte) (a : W64) (n al : Nat) (u : Use) (elem : Bool) : Eff (State × Target) := do
  check1 c perm a n elem
  check2 a n
  check3 a n al elem
  check4 s a n u.writes
  checkWatch s a n u
  place s a n u

/-- A target that must be memory; control space answers with the cause given (R151). -/
def memTarget (r : State × Target) (a : W64) (c : Cause) : Eff (State × Nat) :=
  match r.2 with
  | .mem pa => .ok (r.1, pa)
  | .ctl _ _ _ => .error (.after r.1 (.trap c a))

/-- A read of memory that meets no uncorrectable codeword (R153, R356). -/
def readable (s : State) (a : W64) (pa n : Nat) : Eff Unit :=
  failIf (s.firstBad pa n).isSome (.after s (.trap .memUe a))

/-- Energy of a flit that leaves the die of a core, in eighths of a picojoule (R422, class 6). -/
def flitEnergy : Nat := 1280

/-- Flits that an access of the executing core sends out of its die: a header, and the payload of a write (R388, R422). -/
def flitsOut (s : State) (pa payload : Nat) : Nat := if pa / 2 ^ 43 = dieOf s.cur then 0 else 1 + ceilDiv payload 64

/-- The energy of a read at the issuing core (R422). -/
def State.chargeCur (s : State) (pa n : Nat) : State := s.charge s.cur (moveEnergy pa n + flitEnergy * flitsOut s pa 0)
/-- The energy of a write or atomic at the issuing core (R422). -/
def State.chargeOut (s : State) (pa n : Nat) : State := s.charge s.cur (moveEnergy pa n + flitEnergy * flitsOut s pa n)

/-! Loop-back accesses (R367): a core's own scratchpad through its global address and through the private alias -/

/-- Offset in the executing core's scratchpad that a physical address names. -/
def ownOffset (s : State) (pa : Nat) : Option Nat :=
  if spadPa s.cur ≤ pa && pa < spadPa s.cur + 0x80000 then some (pa - spadPa s.cur) else none

/-- An address names its scratchpad through the global address, not the private alias. -/
def viaGlobal (a : W64) : Bool := 0x1000000 ≤ a.toNat

/-- The stores of the executing task between whose two paths nothing has yet brought order (R367; log entry 30). -/
def State.loopMine (s : State) : List LoopStore := s.me.loop.filter fun e => e.task = s.curTid

/-- What a cell is in the list: before and after each store that holds it, with the store's path. -/
def byteCells (es : List LoopStore) (o : Nat) : List (Bool × Byte × Byte) :=
  es.filterMap fun e => (e.bytes.find? fun b => b.1 = o).map fun b => (e.glob, b.2)
def tagCells (es : List LoopStore) (g : Nat) : List (Bool × Tag × Tag) :=
  es.filterMap fun e => (e.tags.find? fun b => b.1 = g).map fun b => (e.glob, b.2)

/-- What the stores that a load may miss make of one cell: as it was before them, but for what the load's own path wrote last.
Without such a store the cell is as memory holds it. -/
def missed {α : Type} (now : α) (glob : Bool) (es : List (Bool × α × α)) : α :=
  match es with
  | [] => now
  | e :: _ => match (es.filter fun x => x.1 = glob).getLast? with | some x => x.2.2 | none => e.2.1

/-- What a cell was before the first of some stores. -/
def behind {α : Type} (now : α) (es : List (Bool × α × α)) : α := match es with | [] => now | e :: _ => e.2.1

/-- A byte as a load through the path of address a sees it (R367): stores of the other path are missed. -/
def State.seenByte (s : State) (a : W64) (pa : Nat) : Byte :=
  (ownOffset s pa).elim (s.byte pa) fun o => missed (s.byte pa) (viaGlobal a) (byteCells s.loopMine o)

/-- The tag of a granule as a load through the path of address a sees it (R46, R367). -/
def State.seenTag (s : State) (a : W64) (pa : Nat) : Tag :=
  (ownOffset s pa).elim (s.tagAt pa) fun o => missed (s.tagAt pa) (viaGlobal a) (tagCells s.loopMine (o / 16))

/-- n bytes as a load through the path of address a sees them. -/
def State.seen (s : State) (a : W64) (pa n : Nat) : List Byte := (List.range n).map fun k => s.seenByte a (pa + k)
def State.seenNat (s : State) (a : W64) (pa n : Nat) : Nat := leNat (s.seen a pa n)

/-- The stores of the other path that one through this path does not overtake: those that stand behind the last of its own
(R367). -/
def State.ahead (s : State) (glob : Bool) : List LoopStore := (s.loopMine.reverse.takeWhile fun e => e.glob ≠ glob).reverse

/-- A byte that a store through the path of address a finds, and whether that store comes to lie under one of the other path, which
then keeps what memory holds (R367). -/
def State.foundByte (s : State) (a : W64) (pa : Nat) : Byte :=
  (ownOffset s pa).elim (s.byte pa) fun o => behind (s.byte pa) (byteCells (s.ahead (viaGlobal a)) o)
def State.foundTag (s : State) (a : W64) (pa : Nat) : Tag :=
  (ownOffset s pa).elim (s.tagAt pa) fun o => behind (s.tagAt pa) (tagCells (s.ahead (viaGlobal a)) (o / 16))
def State.foundNat (s : State) (a : W64) (pa n : Nat) : Nat := leNat ((List.range n).map fun k => s.foundByte a (pa + k))
def State.under (s : State) (a : W64) (pa : Nat) : Bool :=
  (ownOffset s pa).elim false fun o => byteCells (s.ahead (viaGlobal a)) o ≠ []
def State.tagUnder (s : State) (a : W64) (pa : Nat) : Bool :=
  (ownOffset s pa).elim false fun o => tagCells (s.ahead (viaGlobal a)) (o / 16) ≠ []

/-- Cells with what stood before them taken from a new store that lies under them. -/
def settleOn {α : Type} (n cs : List (Nat × α × α)) : List (Nat × α × α) :=
  cs.map fun c => match n.find? fun x => x.1 = c.1 with | some x => (c.1, x.2.2, c.2.2) | none => c

/-- A store without the cells that another holds. -/
def LoopStore.less (n e : LoopStore) : LoopStore :=
  { n with bytes := n.bytes.filter (fun b => !(e.bytes.any fun x => x.1 = b.1)), tags := n.tags.filter fun b => !(e.tags.any fun x => x.1 = b.1) }

/-- A new store comes to lie under others: each cell of it under the first that holds that cell. -/
def layUnder (n : LoopStore) : List LoopStore → List LoopStore
  | [] => []
  | e :: es => { e with bytes := settleOn n.bytes e.bytes, tags := settleOn n.tags e.tags } :: layUnder (n.less e) es

/-- The first store of a path is performed for the other path too: what came before it in its cells is history. -/
def performFirst (glob : Bool) (es : List LoopStore) : List LoopStore :=
  match es.dropWhile fun e => e.glob ≠ glob with
  | e :: post => ((es.takeWhile fun e => e.glob ≠ glob).map fun x => x.less e) ++ post
  | [] => es

def performStores (glob : Bool) : Nat → List LoopStore → List LoopStore
  | 0, es => es
  | n + 1, es => performStores glob n (performFirst glob es)

/-- The executing task's list becomes another. -/
def State.setLoop (s : State) (es : List LoopStore) : State :=
  s.onCore s.cur fun c => { c with loop := c.loop.filter (fun e => e.task ≠ s.curTid) ++ es }

/-- Memory as a store through a path finds it at its addresses. -/
def State.found (s : State) (a : W64) (pas : List Nat) : State :=
  pas.foldl (fun t pa => (t.putByte pa (s.foundByte a pa)).setTag pa (s.foundTag a pa)) s

/-- Of the addresses of an access, those in the executing core's own scratchpad. -/
def State.ownCells (s : State) (pas : List Nat) : List Nat := pas.filter fun pa => (ownOffset s pa).isSome

/-- The cells of a store that lie under a store of the other path, given back what memory held (R367). -/
def State.giveBack (s : State) (a : W64) (pas : List Nat) (t : State) : State :=
  pas.foldl (fun t pa =>
    let t := if s.under a pa then t.putByte pa (s.byte pa) else t
    if s.tagUnder a pa then t.setTag pa (s.tagAt pa) else t) t

/-- A store through the path of address a (R47, R367): f writes the bytes at the addresses. It lies under the stores of the other
path that it does not overtake, whose bytes and tags memory keeps, and the other path may miss it. -/
def State.through (s : State) (a : W64) (pas : List Nat) (f : State → State) : State :=
  let ps := s.ownCells pas
  if ps = [] then f s
  else
    let base := spadPa s.cur
    let b := if s.me.loop = [] then s else s.found a ps
    let t := f b
    let e : LoopStore := ⟨s.curTid, viaGlobal a, ps.map fun pa => (pa - base, b.byte pa, t.byte pa),
      (ps.map fun pa => (pa - base) / 16).eraseDups.map fun o => (o, b.tagAt (base + 16 * o), t.tagAt (base + 16 * o))⟩
    let es := s.ahead (viaGlobal a)
    let t := if es = [] then t else s.giveBack a ps t
    t.setLoop (s.loopMine.take (s.loopMine.length - es.length) ++ e :: layUnder e es)

/-- Every store of the executing task is performed on both paths (R159, R367). -/
def State.settleLoop (s : State) : State := if s.me.loop = [] then s else s.setLoop []

/-- What the executing task stored through one path is performed for the other path too. -/
def State.performPath (s : State) (glob : Bool) : State :=
  if s.me.loop = [] then s else s.setLoop (performStores glob s.loopMine.length s.loopMine)

/-- The stores of a list without the cells that another agent has written since. -/
def liveLoop (s : State) (es : List LoopStore) : List LoopStore :=
  let base := spadPa s.cur
  let last := fun (o : Nat) => (byteCells es o).getLast?.map fun c => c.2.2
  let lastTag := fun (g : Nat) => (tagCells es g).getLast?.map fun c => c.2.2
  (es.map fun e => { e with
    bytes := e.bytes.filter (fun b => last b.1 = some (s.byte (base + b.1))),
    tags := e.tags.filter fun b => lastTag b.1 = some (s.tagAt (base + 16 * b.1)) }).filter fun e => e.bytes ≠ [] || e.tags ≠ []

/-- Before an instruction issues: some stores of each path, oldest first, are performed for the other too (R367; log entry 30). -/
def State.stepLoop (s : State) : State :=
  if s.me.loop = [] then s
  else
    let es := liveLoop s s.loopMine
    s.setLoop (performStores true (Config.loopBack s.tick true) (performStores false (Config.loopBack s.tick false) es))

/-- A store of bytes at a placed address (R47, R356, R367). -/
def State.store (s : State) (a : W64) (pa : Nat) (bs : List Byte) : State :=
  s.through a ((List.range bs.length).map (pa + ·)) fun s => s.write pa bs

/-- A write performed and not yet acknowledged (R157, R158; log entry 8). -/
def State.owe (s : State) (scope : Nat) : State := s.onCur fun x => { x with unacked := x.unacked ++ [⟨scope⟩] }

/-- Reader of memory bytes at an offset from a base, for planes. -/
def State.rd (s : State) (base : Nat) : Nat → Byte := fun o => s.byte (base + o)

/-- Reader of the executing core's scratchpad as a load through the private alias sees it (R367). -/
def State.rdSeen (s : State) : Nat → Byte := fun o => s.seenByte 0 (spadPa s.cur + o)

/-- Sets one bit of memory and clears the tag of its granule (R73). -/
def putBit (s : State) (pa b : Nat) (v : Bool) : State :=
  let old := s.byte pa
  s.storeByte pa (if v then old ||| (1#8 <<< b) else old &&& ~~~(1#8 <<< b))

def putBits (s : State) (base : Nat) (ws : List BitWrite) : State :=
  ws.foldl (fun s w => putBit s (base + w.1) w.2.1 w.2.2) s

/-- Granule offset from the scratchpad's start and element index of an element address (R70). -/
def elemAt (w : Nat) (a : W64) : Nat × Nat :=
  let o := a.toNat % 0x100000
  (o / (winOf w).slot * (winOf w).slot, o % (winOf w).slot / (winOf w).step)

/-- The bytes of a granule that hold element e: one of each data plane, its scale in that granule and the element type (R69, R71, R72). -/
def elemBytes (w e : Nat) : List Nat :=
  (List.range ((winOf w).sgn + (winOf w).exp + (winOf w).sig)).map (fun p => 32 * p + e / 8)
    ++ (match w with
        | 5 => [160 + 2 * (e / 16) + e % 16 / 8]
        | 6 => [160 + e / 16]
        | 7 => [288 + e / 16, 304]
        | _ => [])

/-- An element load meets an uncorrectable codeword in a byte it reads (R153, R356). -/
def elemBad (s : State) (base w g e : Nat) : Bool := (elemBytes w e).any fun o => s.badByte (base + g + o)

/-- An element load from the private alias (R73). -/
def loadElem (s : State) (w : Nat) (a : W64) : Nat × Flags :=
  let (g, e) := elemAt w a
  elemLoad s.rdSeen s.curTask.sat w g e

/-- An element store to the private alias (R67, R73): the leading plane and the scale are those that it finds. -/
def storeElem (s : State) (sat : Bool) (md : Rounding) (w : Nat) (a : W64) (v : Nat) : State × Flags :=
  let (g, e) := elemAt w a
  let base := spadPa s.cur
  let rd : Nat → Byte := fun o => s.foundByte 0 (base + o)
  let (c, fl) := storeCode rd sat md w g e v
  (s.through 0 ((elemBytes w e).map (base + g + ·)) fun s => putBits s base (codeWrites w (mx8Type rd g) g e c), fl)

/-- The word a fetch reads (R86): window W0 alone holds instructions in the private alias, and a fetch in another window traps
WINDOW after the alignment test (log entry 28). Any address that TRET, SRET, STVEC or a loop put into the pc with bits [1:0]
set traps ALIGN here (log entry 28). The word is what memory holds now, also where code was just written (R91; log entry
8). -/
def fetchWord (s : State) (a : W64) : Eff (State × W32) := do
  match capCheck s.curTask.pcc permEx a 4 with
  | some c => throw (.trap c a)
  | none => pure ()
  failIf (a.toNat % 4 ≠ 0) (.trap .align a)
  failIf (match aliasWin a with | some w => w ≠ 0 || 0x80000 ≤ a.toNat % 0x100000 | none => false) (.trap .window a)
  let (s, pa) ← memTarget (← place s a 4 .fetch) a .align
  readable s a pa 4
  pure (s.chargeCur pa 4, BitVec.ofNat 32 (s.readNat pa 4))

end Sys2Proof.Machine
end

