-- ==== Sys2Proof/Machine/FaultBuf.lean ====
section
/-! DEFINITION. Parking, coalescing, the cluster fault buffer and replay (R346 to R353). -/

namespace Sys2Proof.Machine

/-- Removes the entries of a page from the caches an access went through (R346, step 1). -/
def dropPage (s : State) (core : Option Nat) (c : Nat) (asid : W16) (va : Nat) : State :=
  let keep := fun (l : List TlbEntry) => l.filter fun x => !x.covers asid va
  let s := match core with
    | some k => s.onCore k fun y => { y with itlb := keep y.itlb, dtlb := keep y.dtlb }
    | none => s
  (s.onCluster c fun y => { y with l2 := keep y.l2 }).onDie (dieOfCluster c) fun d => { d with dtc := keep d.dtc }

/-- Low word of a fault-buffer entry (R351). -/
def PendEntry.low (e : PendEntry) : W64 :=
  BitVec.ofNat 64 (e.vpn.toNat + e.asid.toNat * 2 ^ 36 + e.kind.toNat * 2 ^ 52 + e.level.toNat * 2 ^ 54 + e.acc.toNat * 2 ^ 56)

def FbEntry.free : FbEntry := ⟨0, 0, false⟩

/-- The lowest free entry of a fault buffer (R348). -/
def freeEntry (y : Cluster) : Option Nat := (List.range 8).find? fun e => !(y.fb.any fun p => p.1 = e)

/-- Whether the memory supervisor is told of a change of a buffer (R349). -/
def notifySupervisor (s : State) (c : Nat) : State := notify s (s.cluster c).fbNotify

/-- Allocates a pending entry and posts it (R348, R349). -/
def postEntry (s : State) (c : Nat) (e : PendEntry) : State :=
  match freeEntry (s.cluster c) with
  | some n =>
    notifySupervisor (s.onCluster c fun y =>
      { y with pend := y.pend ++ [{ e with posted := some n }], fb := sset .free y.fb n ⟨e.low, e.gtid, e.pf⟩ }) c
  | none =>
    let was := (s.cluster c).dropped
    let s := s.onCluster c fun y => { y with pend := y.pend ++ [{ e with posted := none }], dropped := true }
    if was then s else notifySupervisor s c

/-- A fault joins the pending entry of its page or makes one (R346, step 3). -/
def joinFault (s : State) (c : Nat) (f : WalkFault) (gtid : BitVec 48) : State :=
  let y := s.cluster c
  let same := fun (e : PendEntry) => e.asid = f.asid && e.vpn = f.vpn
  if y.pend.any same then
    let pend := y.pend.map fun e => if same e then { e with waiters := e.waiters + 1, acc := e.acc ||| f.acc } else e
    let fb := match pend.find? same with
      | some e =>
        (match e.posted with
         | some n => if n < 8 then sset .free y.fb n { sget .free y.fb n with low := e.low } else y.fb
         | none => y.fb)
      | none => y.fb
    s.setCluster c { y with pend := pend, fb := fb }
  else postEntry s c ⟨f.asid, f.vpn, f.kind, f.level, f.acc, gtid, 1, false, none⟩

/-- The steps of a task whose access faulted, at its cluster (R346). -/
def parkTask (s : State) (t : BitVec 48) : State :=
  let x := s.task t
  match x.fault with
  | none => s
  | some f =>
    let c := clusterOf x.core
    let s := dropPage s (some x.core) c f.asid (f.vpn.toNat * 2 ^ 16)
    let s := (s.onCluster c fun y => { y with parked := y.parked ++ [.task t] }).onTask t fun x =>
      { x with fault := none, parkedPage := some f, counts := { x.counts with parks := x.counts.parks + 1 } }
    joinFault (s.onTask t fun x => { x with wait := none }) c f t

/-- The owner of memory peers (R402). -/
def peerOwner : BitVec 48 := BitVec.allOnes 48

/-- The tile-walk engine of a cluster parks, in an access of the memory peer at a slot of a core (R407). -/
def parkWalker (s : State) (core ep : Nat) (f : WalkFault) : State :=
  let c := clusterOf core
  let s := dropPage s none c f.asid (f.vpn.toNat * 2 ^ 16)
  joinFault (s.onCluster c fun y => { y with parked := y.parked ++ [.walker core ep], walkFault := some f }) c f peerOwner

/-- A fault that PF posts: fewer than 16 pending entries and a free buffer entry, else nothing; an existing entry is
joined unchanged (R160, R347, R348). -/
def postPf (s : State) (c : Nat) (asid : W16) (vpn : BitVec 36) (level : Nat) : State :=
  let y := s.cluster c
  if y.pend.any (fun e => e.asid = asid && e.vpn = vpn) || 16 ≤ y.pend.length || (freeEntry y).isNone then s
  else postEntry s c ⟨asid, vpn, 0, BitVec.ofNat 2 (level - 1), 0, 0, 0, true, none⟩

/-- A parked access leaves its pending entry (R353). -/
def leavePending (s : State) (c : Nat) (asid : W16) (vpn : BitVec 36) : State :=
  s.onCluster c fun y =>
    { y with pend := (y.pend.map fun e =>
                if e.asid = asid && e.vpn = vpn then { e with waiters := e.waiters - 1 } else e).filter
              fun e => !(e.asid = asid && e.vpn = vpn && e.waiters = 0 && !e.pf) }

/-- Entries 1 in the low byte free their postings, bit 8 clears dropped (R350, R351). -/
def fbStatWrite (s : State) (c : Nat) (v : W64) : State :=
  s.onCluster c fun y =>
    { y with fb := y.fb.filter (fun p => !v.getLsbD p.1),
             pend := y.pend.map (fun e => match e.posted with
               | some n => if n < 8 && v.getLsbD n then { e with posted := some 8 } else e
               | none => e),
             dropped := y.dropped && !v.getLsbD 8 }

/-- FB_STAT (R351). -/
def fbStat (y : Cluster) : W64 :=
  BitVec.ofNat 64 ((y.fb.map fun p => 2 ^ p.1).sum + bit y.dropped 8 + y.pend.length * 2 ^ 16
    + (y.pend.filter fun e => e.posted = none).length * 2 ^ 24 + bit (y.replaying ≠ []) 31)

/-- High word of buffer entry e (R351). -/
def fbHigh (y : Cluster) (e : Nat) : W64 :=
  if y.fb.any fun p => p.1 = e then
    let x := sget FbEntry.free y.fb e
    let w := match y.pend.find? fun p => p.posted = some e with | some p => p.waiters | none => 0
    BitVec.ofNat 64 (x.gtid.toNat + w * 2 ^ 48 + bit x.pf 56)
  else 0

/-- REPLAY_ALL (R352). -/
def replayAll (s : State) (c : Nat) : State :=
  s.onCluster c fun y => { y with pend := [], fb := [], replaying := y.replaying ++ y.parked, parked := [] }

/-- The next access of a replay comes up, in parking order, and runs again in the next step; a task that has stopped in the meantime
runs its instruction when it goes on (R352, R447; log entry 31). -/
def replayNext (s : State) (c : Nat) : State :=
  match (s.cluster c).replaying with
  | [] => s
  | p :: ps =>
    let s := s.onCluster c fun y => { y with replaying := ps }
    match p with
    | .task t => if (s.task t).status = .waitMem then { s with again := some p } else s.onTask t fun x => { x with parkedPage := none }
    | .walker _ _ => { s.onCluster c (fun y => { y with walkFault := none }) with again := some p }

/-- A parked task leaves its cluster's fault handling without another access: its pending entry has one waiter less (R353). -/
def unpark (s : State) (t : BitVec 48) : State :=
  let x := s.task t
  let c := clusterOf x.core
  let s := match x.parkedPage, (s.cluster c).parked.contains (.task t) with
    | some f, true => leavePending s c f.asid f.vpn
    | _, _ => s
  let s := if x.parkedPage.isSome then s.onCluster c fun y =>
      { y with parked := y.parked.filter (· ≠ .task t), replaying := y.replaying.filter (· ≠ .task t) }
    else s
  s.onTask t fun x => { x.countWait s.timebase with fault := none, parkedPage := none }

/-- A task that was stopped while it was parked goes on: its instruction runs anew, and no replay runs it (log entry 31). -/
def leavePark (s : State) (t : BitVec 48) : State :=
  let x := s.task t
  if x.parkedPage.isNone then s
  else (s.onCluster (clusterOf x.core) fun y =>
      { y with parked := y.parked.filter (· ≠ .task t), replaying := y.replaying.filter (· ≠ .task t) }).onTask t fun x => { x with parkedPage := none }

end Sys2Proof.Machine
end

