-- ==== Sys2Proof/Machine/Chan.lean ====
section
/-! DEFINITION. Channels: protocol images (R223 to R229), endpoint slots (R222), posting and placing messages (R231, R239,
R378), closing (R234, R235, R255), slot returns (R244, R399), the count exchange (R254, R400, R401), delegation (R250, R251),
bindings that an arrival meets (R260, R261). -/

namespace Sys2Proof.Machine

/-! Transition words (R224) -/

def tDir (w : W32) : Bool := w.getLsbD 1
def tKind (w : W32) : Nat := (w.extractLsb' 2 2).toNat
def tType (w : W32) : BitVec 6 := w.extractLsb' 4 6
def tShape (w : W32) : BitVec 4 := w.extractLsb' 10 4
def tNext (w : W32) : BitVec 5 := w.extractLsb' 14 5
def tLop (w : W32) : Nat := (w.extractLsb' 19 2).toNat
def tLk (w : W32) : Bool := w.getLsbD 21
def tExit (w : W32) : BitVec 5 := w.extractLsb' 22 5

/-- A transition other than a close within R226. DESIGN CHOICE: lop = 3, which R224 reserves and R226 does not name, makes the image invalid
(log entry 21). -/
def transOk (nstates : Nat) (w : W32) : Bool :=
  w.extractLsb' 27 5 = 0 && (tNext w).toNat < nstates && (tExit w).toNat < nstates && tLop w ≠ 3
    && (tKind w = 0 || tShape w = 0) && (tExit w = 0 || tLop w = 2)
    && (tLop w ≠ 1 || tKind w = 1 || (tKind w = 0 && (tShape w = 0 || 12 ≤ (tShape w).toNat)))

/-- The valid transitions of a state entry, when they stand first and the rest are zero (R226). -/
def validPrefix : List W32 → Option (List W32)
  | [] => some []
  | w :: ws =>
    if w.getLsbD 0 then (validPrefix ws).map (w :: ·)
    else if (w :: ws).all (· = 0) then some [] else none

/-- No value stands twice. -/
def noRepeat (l : List Nat) : Bool := match l with | [] => true | x :: xs => !xs.contains x && noRepeat xs

/-- The transitions of one state meet R226. -/
def stateOk (nstates : Nat) (ws : List W32) : Bool :=
  let cl := ws.filter fun w => tKind w = 3
  let ot := ws.filter fun w => tKind w ≠ 3
  decide (cl.length ≤ 1) && cl.all (· = 0xD) && ot.all (transOk nstates) && noRepeat (ws.map fun w => (tType w).toNat)
    && (match ot with
        | [] => true
        | w :: _ => ot.all (fun x => tDir x = tDir w && tKind x = tKind w)
            && (tDir w || tKind w = 1 || decide (ot.length ≤ 1)))

/-- A character of a state name (R226). -/
def nameChar (b : Byte) : Bool :=
  let n := b.toNat
  (48 ≤ n && n ≤ 57) || (65 ≤ n && n ≤ 90) || n = 95 || (97 ≤ n && n ≤ 122)

/-- A zero-padded name of 1 to 16 characters (R226). -/
def nameOf (bs : List Byte) : Option (List Byte) :=
  let nm := bs.takeWhile (· ≠ 0)
  if nm ≠ [] && nm.all nameChar && (bs.drop nm.length).all (· = 0) then some nm else none

/-- One 32-byte state entry (R223, R226). -/
def parseState (nstates : Nat) (bs : List Byte) : Option PState :=
  match validPrefix ([0, 1, 2, 3].map fun i => BitVec.ofNat 32 (leNat ((bs.drop (4 * i)).take 4))), nameOf (bs.drop 16) with
  | some ws, some nm => if stateOk nstates ws then some ⟨ws, nm⟩ else none
  | _, _ => none

/-- The states of an image from an index on, or the first invalid one. -/
def parseStates (nstates : Nat) (bs : List Byte) : Nat → Nat → Except Nat (List PState)
  | 0, _ => .ok []
  | n + 1, i =>
    match parseState nstates ((bs.drop (32 * i)).take 32) with
    | none => .error i
    | some p => (parseStates nstates bs n (i + 1)).map (p :: ·)

/-- An image read from its bytes, or the first invalid state, 31 for the header (R226, R237). -/
def parseImage (bs : List Byte) : Except Nat Image :=
  let ns := (bs.getD 2 0).toNat
  let la := (bs.getD 3 0).toNat
  if bs.take 2 ≠ [0x49, 0x50] || ns = 0 || 32 < ns || la = 0 || 8 < la || !((bs.drop 4).take 12).all (· = 0) then .error 31
  else (parseStates ns (bs.drop 16) ns 0).map fun st => ⟨la, st⟩

/-- Duality (R228): none, or state and reason of the mismatch. -/
def dualFrom (a b : List PState) : Nat → Option (Nat × Nat)
  | s =>
    match a, b with
    | [], [] => none
    | x :: xs, y :: ys =>
      if x.trans.length ≠ y.trans.length then some (s, 1)
      else if x.trans.all fun t => y.trans.contains (if tKind t = 3 then t else t ^^^ 2) then dualFrom xs ys (s + 1)
      else some (s, 1)
    | _, _ => some (0, 0)

def dual (a b : Image) : Option (Nat × Nat) :=
  if a.states.length ≠ b.states.length then some (0, 0) else dualFrom a.states b.states 0

/-- Frame of a shape (R225). -/
def shapeFrame (sh : BitVec 4) : Nat :=
  match sh.toNat with
  | 0 => 64 | 12 => 64 | 13 => 512 | 14 => 4096 | 15 => 32768
  | w => (winOf w).slot

/-- Frame size Z of an image (R229). -/
def frameSize (i : Image) : Nat :=
  (i.states.flatMap fun p => p.trans).foldl
    (fun z w => if tDir w && tKind w ≠ 3 then max z (if tKind w = 0 then shapeFrame (tShape w) else 64) else z) 0

/-! Endpoint slots -/

def Core.ep (c : Core) (n : Nat) : Endp := sget Endp.zero c.eps n
def State.ep (s : State) (k n : Nat) : Endp := (s.core k).ep n
def State.onEp (s : State) (k n : Nat) (f : Endp → Endp) : State :=
  s.onCore k fun c => { c with eps := sset Endp.zero c.eps n (f (c.ep n)) }

/-- The location of a slot under its current generation (R21). -/
def State.epLoc (s : State) (k n : Nat) : EpLoc := ⟨s.here k, n, (s.ep k n).gen⟩

/-- A slot is live under a location. -/
def slotLive (s : State) (l : EpLoc) : Bool := (s.ep l.at_.core l.ep).status ≠ .free && (s.ep l.at_.core l.ep).gen = l.gen

/-- Status codes (R222). -/
def EpStatus.code : EpStatus → Nat
  | .free => 0 | .bound => 1 | .connected => 2 | .resync => 3 | .closing => 4 | .closed => 5

def EpStatus.live : EpStatus → Bool
  | .connected | .resync => true
  | _ => false

/-- The transitions of the current state. -/
def Endp.trans (e : Endp) : List W32 := match e.image.states[e.state.toNat]? with | some p => p.trans | none => []

/-- A transition of the current state by direction, kind and type. -/
def Endp.find (e : Endp) (dir : Bool) (kind : Nat) (type : Option (BitVec 6)) : Option W32 :=
  e.trans.find? fun w => tDir w = dir && tKind w = kind && (match type with | some t => tType w = t | none => true)

def Endp.hasClose (e : Endp) : Bool := e.trans.any fun w => tKind w = 3

def Endp.loop (e : Endp) (k : Bool) : BitVec 17 := if k then e.loop1 else e.loop0
def Endp.setLoop (e : Endp) (k : Bool) (v : BitVec 17) : Endp := if k then { e with loop1 := v } else { e with loop0 := v }

/-- take(t) (R227). -/
def Endp.take (e : Endp) (w : W32) (count : BitVec 17) : Endp :=
  if tLop w = 1 then { e.setLoop (tLk w) count with state := tNext w }
  else if tLop w = 2 then
    if 1 < (e.loop (tLk w)).toNat then { e.setLoop (tLk w) (e.loop (tLk w) - 1) with state := tNext w }
    else { e.setLoop (tLk w) 0 with state := tExit w }
  else { e with state := tNext w }

/-- The close word (R234). -/
def Endp.word (e : Endp) (reason cause : Nat) : W64 :=
  BitVec.ofNat 64 (e.state.toNat + reason * 2 ^ 5 + e.loop0.toNat * 2 ^ 8 + e.loop1.toNat * 2 ^ 25 + cause * 2 ^ 42)

/-- Reason of a close word (R234). -/
def wordReason (w : W64) : Nat := (w.extractLsb' 5 3).toNat

def isFlow : ChBody → Bool
  | .close _ _ => false
  | _ => true

/-- Messages buffered and not consumed (R251, R252). -/
def Endp.buffered (e : Endp) : Nat := (e.buf.filter fun b => isFlow b.body).length

/-- Slots of the buffer that hold a message, the frame in hand and frames whose return is due included (R401). -/
def Endp.occ (e : Endp) : Nat := e.buffered + (if e.inHand.isSome then 1 else 0) + e.retDue.length

/-- The oldest buffered message, when it is consumable (R251): none before the mark, with which the forwarded ones come (R481,
R484). -/
def Endp.head (e : Endp) : Option BufMsg :=
  if e.oldSlot.isSome then none else match e.buf with | b :: _ => if b.held then none else some b | [] => none

/-- Permits left (R239, R252). -/
def Endp.permits (e : Endp) : Nat := e.peerL - (e.sent - e.returned).toNat

/-- Whether the buffers of a core leave a range free (R230). -/
def bufferFree (c : Core) (lo hi : Nat) : Bool :=
  !(c.eps.any fun p => p.2.status ≠ .free && overlap lo hi p.2.bufBase.toNat (p.2.bufBase.toNat + p.2.bufSize.toNat))

/-- R230 of a buffer capability, without its permissions' trap. -/
def bufferOk (c : Core) (v : GVal) (i : Image) : Bool :=
  let z := frameSize i
  let a := (cursor v.bits).toNat
  z = 0 || (a < 0x100000 && a % z = 0 && a + i.la * z ≤ 0x80000 && bufferFree c a (a + i.la * z))

/-! Posting -/

/-- The pod fibre that reaches a chip, when it is routed and its link is up (R394, R418). -/
def podFibre (s : State) (chip : Byte) : Option Nat :=
  let r := sget 0 s.fabric.route chip.toNat
  let f := (r.extractLsb' 0 4).toNat
  if r.getLsbD 4 && !s.fabric.down.getLsbD f then some f else none

/-- Bytes padded with zeros to 16. -/
def pad16 (l : List Byte) : List Byte := l ++ leBytes (16 - l.length) 0

/-- The bytes of an image (R223). -/
def imageBytes (i : Image) : List Byte :=
  leBytes 2 0x5049 ++ leBytes 1 i.states.length ++ leBytes 1 i.la ++ leBytes 12 0
    ++ i.states.flatMap fun p => pad16 (p.trans.flatMap fun w => leBytes 4 w.toNat) ++ pad16 p.name

/-- The bytes of a delegation record (R246): the image copy and 32 bytes with the rest (log entry 21). -/
def recordBytes (r : DelegRec) : List Byte :=
  imageBytes r.image ++ leBytes 8 (r.state + r.loop0.toNat * 2 ^ 5 + r.loop1.toNat * 2 ^ 22 + r.peerL * 2 ^ 39)
    ++ leBytes 4 r.sent.toNat ++ leBytes 4 r.returned.toNat ++ leBytes 4 r.consumed.toNat
    ++ leBytes 8 ((endpCap false false false false r.peer).bits.extractLsb' 38 58).toNat ++ leBytes 4 0

/-- The payload of a message, beside what its header holds (R388, R400). -/
def wirePayload : Body → List Byte
  | .chan _ _ _ (.data _ _ _ _ p) => p
  | .chan _ _ _ (.deleg _ r) => recordBytes r
  | .connect _ _ i => imageBytes i
  | .resync _ w => leBytes 16 w.toNat
  | _ => []

/-- Flits of a message (R388). -/
def flits (b : Body) : Nat := 1 + ceilDiv (wirePayload b).length 64

/-- Hops between two clusters of a die: rows of 8 (R357, R388). -/
def hops (a b : Nat) : Nat :=
  let x := fun c => c % 80 % 8
  let y := fun c => c % 80 / 8
  (max (x a) (x b) - min (x a) (x b)) + (max (y a) (y b) - min (y a) (y b))

/-- The model's own notice to a delegated slot, which is no message of the fabric (log entry 21). -/
def notice : Body → Bool
  | .successor _ _ => true
  | _ => false

/-- Sends a message on its way: within the package, or out of a pod port (R389, R418). A replay absorbs outgoing pod
traffic (R421); a SPAWN or AM for an unreachable chip stays for its pod port to discard. -/
def State.route (s : State) (m : Msg) : State :=
  let s := if (m.dst.chip = s.chip && dieOf m.dst.core = dieOf m.src.core) || notice m.body then s
    else s.charge m.src.core (flitEnergy * flits m.body)
  if m.dst.chip = s.chip then s.post m
  else if s.fabric.alogCtl.getLsbD 3 then s
  else match podFibre s m.dst.chip, m.body with
    | some _, _ => { s with sent := s.sent ++ [.pod m] }
    | none, .task _ _ => s.post m
    | none, _ => s

/-- No pod port takes a message for a chip (R394, R418); a replay absorbs what leaves (R421). -/
def noWay (s : State) (chip : Byte) : Bool := chip ≠ s.chip && !s.fabric.alogCtl.getLsbD 3 && (podFibre s chip).isNone

/-- Sends a body from a core to a place. -/
def State.emit (s : State) (k : Nat) (reply : Bool) (dst : Place) (b : Body) : State :=
  s.route { src := s.here k, dst := dst, reply := reply, header := 0, body := b }

/-- Tasks that wait on a slot test again. -/
def wakeEp (s : State) (k n : Nat) : State := wakeWhere s k fun w => w = .chan n

/-- Records a close of a memory peer's channel and notifies (R406, R408). -/
def peerRecord (s : State) (k n : Nat) (word : W64) (gtid : BitVec 48) : State :=
  if (s.ep k n).owner ≠ some peerOwner then s
  else
    let c := clusterOf k
    let s := s.onCluster c fun y => { y with
      twCloseLo := word, twCloseHi := BitVec.ofNat 64 (gtid.toNat + k % 4 * 2 ^ 48 + n * 2 ^ 50), twCloseCnt := y.twCloseCnt + 1 }
    notify s (s.cluster c).twNotify

/-- A slot becomes FREE: its generation advances, its buffer range and bindings go (R22, R222, R256). -/
def freeSlot (s : State) (k n : Nat) : State :=
  let s := s.onEp k n fun e => { Endp.zero with gen := e.gen + 1 }
  let s := s.onCluster (clusterOf k) fun y => { y with peers := y.peers.filter fun p => !(p.slot = k % 4 && p.ep = n) }
  wakeEp s k n

/-- Sends a failure notification to the peer of a slot (R235). -/
def notifyPeer (s : State) (k n : Nat) (word : W64) (gtid : BitVec 48) : State :=
  match (s.ep k n).peer with
  | some p => s.emit k true p.at_ (.failure p word gtid)
  | none => s

/-- Delegated slots whose records stand in a list of messages. -/
def delegated (l : List ChBody) : List EpLoc := l.filterMap fun b => match b with | .deleg _ r => some r.old | _ => none

/-- Messages of the channel among bodies. -/
def chanBodies (l : List Body) : List ChBody := l.filterMap fun b => match b with | .chan _ _ _ b => some b | _ => none

/-- A delegation record is discarded before CH.ACCEPT: the delegated slot tells its peer and becomes FREE (R222, R235). DESIGN CHOICE: the
notification carries GTID 0, since the slot has no holder (log entry 21). -/
def loseRecord : Nat → State → EpLoc → State
  | 0, s, _ => s
  | fuel + 1, s, l =>
    let k := l.at_.core
    let e := s.ep k l.ep
    if l.at_.chip = s.chip && e.gen = l.gen && e.forwarding then
      let more := delegated (chanBodies (e.fwdQueue ++ e.fwdHeld))
      let s := freeSlot (notifyPeer s k l.ep (e.word 1 0x0C) 0) k l.ep
      more.foldl (loseRecord fuel) s
    else s

def loseRecords (s : State) (l : List EpLoc) : State := l.foldl (loseRecord 64) s

/-- The slot becomes CLOSED with a word; its buffered messages are discarded (R235). -/
def closeNow (s : State) (k n : Nat) (word : W64) (gtid : BitVec 48) : State :=
  let e := s.ep k n
  let s := s.onEp k n fun e => { e with
    status := .closed, closeWord := word, closeGtid := gtid, buf := [], retDue := [], rsPeer := none, syncing := false,
    forwarding := false }
  wakeEp (loseRecords s (delegated (e.buf.map fun b => b.body))) k n

/-! Slot returns -/

/-- The word of a slot return (R399). -/
def returnWord (ret gen : W32) : W64 :=
  let w : BitVec 48 := gen.setWidth 16 ++ ret
  crc16 (leBytes 6 w.toNat) ++ w

/-- The CRC of a slot return's word holds (R399). -/
def returnIntact (w : W64) : Bool := crc16 (leBytes 6 w.toNat) = w.extractLsb' 48 16

/-- A slot return from a generation that is not the peer's (R399), nor that of a slot it moved away from (R251, R481). -/
def returnForeign (e : Endp) (w : W64) : Bool :=
  match e.peer with
  | some p => returnIntact w && !((p.gen :: e.former).any fun g => w.extractLsb' 32 16 = g.setWidth 16)
  | none => false

/-- One slot is returned: consumed rises and the peer is told (R244, R399). A closed channel returns none. -/
def giveBack (s : State) (k n : Nat) : State :=
  let e := s.ep k n
  match e.peer with
  | some p =>
    if e.status.live || e.status = .closing then
      (s.onEp k n fun e => { e with consumed := e.consumed + 1 }).emit k true p.at_ (.slotReturn p (returnWord (e.consumed + 1) e.gen))
    else s
  | none => s

/-- Nothing of the holder, or of the task that delegated the slot, still reads a returned frame (R244). -/
def frameIdle (s : State) (k n : Nat) (f : Nat × Nat × Nat) : Bool :=
  !((s.core k).locks.any fun l =>
    l.spad && ((s.ep k n).owner = some l.task || (s.ep k n).reader = some l.task) && overlap f.2.1 f.2.2 l.lo l.hi)

/-- The holder of a slot is pre-empted in place: the slot receives and returns nothing (R268). -/
def holderAway (s : State) (e : Endp) : Bool := match e.owner with | some t => (s.task t).inPlace | none => false

/-- A returned frame that nothing reads any more goes back (R244). -/
def sendReturn (s : State) (k n : Nat) (f : Nat × Nat × Nat) : State :=
  giveBack (s.onEp k n fun e => { e with retDue := e.retDue.erase f }) k n

/-- Returns that are due leave before the slot closes: the notification follows them (R378, R481). -/
def sendReturns (s : State) (k n : Nat) : State :=
  if holderAway s (s.ep k n) then s else ((s.ep k n).retDue.filter (frameIdle s k n)).foldl (fun s f => sendReturn s k n f) s

/-- A local failure closes a slot at its named state and tells the peer at once (R235). A CLOSED slot keeps its first
word. -/
def failClose (s : State) (k n reason cause : Nat) (gtid : BitVec 48) : State :=
  let e := s.ep k n
  match e.status with
  | .free | .closed => s
  | .bound => closeNow s k n (e.word reason cause) gtid
  | _ =>
    let w := e.word reason cause
    let s := notifyPeer (sendReturns s k n) k n w gtid
    let s := if e.status.live then peerRecord s k n w gtid else s
    closeNow s k n w gtid

/-- An orderly close at the head closes the slot, which acknowledges (R255). -/
def headClose (s : State) (k n : Nat) : State :=
  let e := s.ep k n
  match e.head with
  | some ⟨.close w g, _, _⟩ =>
    if e.status.live then
      let s := peerRecord s k n w g
      let s := closeNow s k n w g
      match e.peer with
      | some p => s.emit k true p.at_ (.closeAck p)
      | none => s
    else s
  | _ => s

/-! Returned frames and the count exchange -/

/-- The frame in hand is given up; its return waits for the accesses that read it (R244). -/
def returnFrame (s : State) (k n : Nat) : State :=
  s.onEp k n fun e =>
    match e.inHand with
    | some f => { e with inHand := none, retDue := if e.status.live then e.retDue ++ [f] else e.retDue }
    | none => e

/-- An uncorrectable error that an access of a task meets in one of its frames in hand on core k closes the channel with reason 2
(R235, R356). -/
def closeFramesOf (s : State) (k : Nat) (t : BitVec 48) (pa n : Nat) : State :=
  let o := spadPa k
  let hit := (s.core k).eps.filter fun p => p.2.owner = some t && p.2.status.live
    && match p.2.inHand with | some f => overlap (o + f.2.1) (o + f.2.2) pa (pa + n) | none => false
  hit.foldl (fun s p => failClose s k p.1 2 0 t) s

/-- The same for the executing task. -/
def closeFrames (s : State) (pa n : Nat) : State := closeFramesOf s s.cur s.curTid pa n

/-- The same for pieces that a task's access reads. -/
def closePieces (s : State) (k : Nat) (t : BitVec 48) (ps : List (Nat × Nat)) : State :=
  ps.foldl (fun s p => match s.firstBad p.1 p.2 with | some b => closeFramesOf s k t b 1 | none => s) s

/-- A data read of memory that meets no uncorrectable codeword (R153, R235, R356). -/
def loadable (s : State) (a : W64) (pa n : Nat) : Eff Unit :=
  failIf (s.firstBad pa n).isSome (.after (closeFrames s pa n) (.trap .memUe a))

/-- Flow-controlled messages of a slot among bodies. -/
def flowOf (l : EpLoc) (bs : List Body) : Nat :=
  (bs.filter fun b => match b with | .chan _ src _ c => src = l && isFlow c | _ => false).length

/-- Messages a slot has sent and that are not placed: in its send queue, on the way, or at a forwarding slot (R400). -/
def unplaced (s : State) (l : EpLoc) : Nat :=
  flowOf l (s.net.map fun m => m.body)
    + (s.cores.map fun c => flowOf l (c.2.sendq.map fun x => x.msg.body)
        + (c.2.eps.map fun e => flowOf l (e.2.fwdQueue ++ e.2.fwdHeld)).sum).sum

/-- The expect field (R400): towards another chip, what still stands on this one, and a free number of messages beyond, as far as the
peer's buffer has slots. -/
def expectOf (s : State) (k n : Nat) : BitVec 4 :=
  match (s.ep k n).peer with
  | some p =>
    let here := unplaced s (s.epLoc k n)
    BitVec.ofNat 4 (if p.at_.chip = s.chip then here else max here (min 8 (Config.podUnplaced s.tick).toNat))
  | none => 0

/-- The resync word (R400). -/
def resyncWordOf (e : Endp) (expect : BitVec 4) : W128 :=
  let w : BitVec 96 := 0#22 ++ e.rsSeq ++ expect ++ BitVec.ofNat 4 e.occ ++ e.consumed ++ e.sent
  crc32c (leBytes 12 w.toNat) ++ w

/-- Sends the own resync word and starts its timer (R400, R401). -/
def sendResync (s : State) (k n : Nat) : State :=
  let s := s.onEp k n fun e => { e with rsSince := s.timebase }
  match (s.ep k n).peer with
  | some p => s.emit k true p.at_ (.resync p (resyncWordOf (s.ep k n) (expectOf s k n)))
  | none => s

/-- Messages that a replay holds for a slot and may deliver now (R452): slot returns not above the sent count, and resync
words once the slot is in RESYNC; a FREE slot of that generation is still to be taken. One of a generation that does not match goes on, and
is discarded there (R450). -/
def heldReady (s : State) (m : Msg) : Bool :=
  match m.body with
  | .slotReturn d w =>
    let e := s.ep d.at_.core d.ep
    let d' := ((w.extractLsb' 0 32) - e.sent).toNat
    e.gen ≠ d.gen || (e.status ≠ .free && (returnForeign e w || decide (d' = 0 ∨ 2 ^ 31 ≤ d')))
  | .resync d _ => (s.ep d.at_.core d.ep).gen ≠ d.gen || (s.ep d.at_.core d.ep).status = .resync
  | _ => true

def releaseReturns (s : State) : State :=
  if s.fabric.heldBack = [] then s
  else { s with net := s.net ++ s.fabric.heldBack.filter (heldReady s),
                fabric := { s.fabric with heldBack := s.fabric.heldBack.filter fun m => !heldReady s m } }

/-- Entry into RESYNC with an exchange number (R222, R254). -/
def enterResync (s : State) (k n : Nat) (seq : BitVec 2) : State :=
  if (s.ep k n).status ≠ .connected then s
  else
    let s := s.onEp k n fun e => { e with status := .resync, rsSeq := seq, rsFails := 0, rsPeer := none }
    releaseReturns (sendResync s k n)

/-- The balance of one end (R401): none while it is awaited, `some none` when it cannot be made, else the count to take as
returned. -/
def balanceOf (e : Endp) : Option (Option W32) :=
  match e.status, e.rsPeer with
  | .resync, some w =>
    let d := (w.sent - (e.consumed + BitVec.ofNat 32 e.occ)).toNat
    if 2 ^ 31 ≤ d || w.expect.toNat < d then some none
    else if d ≠ 0 then none
    else if 2 ^ 31 ≤ (e.sent - w.consumed).toNat then some none
    else some (some w.consumed)
  | _, _ => none

/-- An exchange is complete at a slot (R401). -/
def endResync (s : State) (k n : Nat) (ret : W32) : State :=
  wakeEp (s.onEp k n fun e => { e with status := .connected, returned := ret, rsPeer := none }) k n

/-- The balance (R401), made again after every message that is placed. The ends of a channel within the chip return to CONNECTED
together (R254); an end on another chip does so for itself. -/
def balance (s : State) (k n : Nat) : State :=
  let e := s.ep k n
  match balanceOf e, e.peer with
  | some none, _ => failClose s k n 3 0 (e.owner.getD 0)
  | some (some r), some p =>
    if p.at_.chip ≠ s.chip then endResync s k n r
    else match slotLive s p, balanceOf (s.ep p.at_.core p.ep) with
      | true, some (some q) => endResync (endResync s k n r) p.at_.core p.ep q
      | _, _ => s
  | _, _ => s

/-! What an arrival brings about -/

/-- A counter link consumes one matching message at the head (R261). -/
def linkStep (s : State) (k n : Nat) : Option State :=
  let e := s.ep k n
  match e.link, e.head with
  | some c, some ⟨.data ty 0 word count _, _, _⟩ =>
    match e.find true 0 (some ty) with
    | some t =>
      if tShape t = 0 && e.status.live && !holderAway s e then
        let s := s.onEp k n fun e => { e.take t count with buf := e.buf.drop 1, lastType := ty }
        some (slotAdd (giveBack s k n) k c (word.setWidth 32))
      else none
    | none => none
  | _, _ => none

def linkAll : Nat → State → Nat → Nat → State
  | 0, s, _, _ => s
  | fuel + 1, s, k, n =>
    match linkStep s k n with
    | some s' => linkAll fuel s' k n
    | none => s

/-- An endpoint trigger whose condition holds fires once and disarms (R260). -/
def testEpTrigger (s : State) (k n : Nat) : State :=
  let e := s.ep k n
  match e.trig with
  | some g =>
    if g.armed && e.status.live && g.f ≤ e.buffered then
      let s := s.onEp k n fun e => { e with trig := some { g with armed := false } }
      (jobRaise s g.job).post (triggerDesc s k g [g.sel, data64 (BitVec.ofNat 64 e.buffered)] (n + 128 * g.id))
    else s
  | none => s

/-- After every change of a slot's buffer: link, balance, head close, trigger, waiters. -/
def pump (s : State) (k n : Nat) : State :=
  let s := linkAll 9 s k n
  let s := balance s k n
  let s := headClose s k n
  wakeEp (testEpTrigger s k n) k n

/-- The buffer slots that hold nothing (R229, R244). -/
def freeFrames (e : Endp) : List Nat :=
  let used := (e.buf.filter fun b => isFlow b.body).map (fun b => b.slot)
    ++ (match e.inHand with | some f => [f.1] | none => []) ++ e.retDue.map fun f => f.1
  (List.range e.image.la).filter fun i => !used.contains i

/-- Behind the consumable messages, before held ones. -/
def insertUnheld (b : BufMsg) : List BufMsg → List BufMsg
  | [] => [b]
  | x :: xs => if x.held then b :: x :: xs else x :: insertUnheld b xs

def putMsg (b : BufMsg) (l : List BufMsg) : List BufMsg := if b.held then l ++ [b] else insertUnheld b l

/-- The payload of a message. -/
def payloadOf : ChBody → List Byte
  | .data _ _ _ _ p => p
  | _ => []

/-- A flow-controlled message is written into buffer slot i (R231). -/
def writeFrame (s : State) (k n i : Nat) (b : ChBody) : State :=
  let e := s.ep k n
  if payloadOf b = [] then s
  else (s.write (spadPa k + e.bufBase.toNat + i * frameSize e.image) (payloadOf b)).charge k (moveEnergy (spadPa k) (payloadOf b).length)

/-- The buffer slot that an arriving message takes, when one is free. -/
def nextFrame (s : State) (e : Endp) : Option Nat :=
  let fs := freeFrames e
  fs[Config.frameSlot s.tick % fs.length]?

/-- A message reaches its slot: a close queues, a flow-controlled message takes a free buffer slot; without one it is
discarded and the slot enters RESYNC (R231, R255, R399). -/
def placeMsg (s : State) (k n : Nat) (b : ChBody) (held : Bool) : State :=
  let e := s.ep k n
  if !isFlow b then pump (s.onEp k n fun e => { e with buf := putMsg ⟨b, 0, held⟩ e.buf }) k n
  else match nextFrame s e with
    | none => loseRecords (enterResync s k n (e.rsSeq + 1)) (delegated [b])
    | some i => pump (writeFrame (s.onEp k n fun e => { e with buf := putMsg ⟨b, i, held⟩ e.buf }) k n i b) k n

/-! Forwarding by a delegated slot (R251) -/

/-- A body addressed to another slot, marked as forwarded. -/
def forwardBody (b : Body) (new via : EpLoc) : Body :=
  match b with
  | .chan _ src _ c => .chan new src (some via) c
  | .slotReturn _ w => .slotReturn new w
  | .resync _ w => .resync new w
  | .closeAck _ => .closeAck new
  | .failure _ w g => .failure new w g
  | .moved _ l => .moved new l
  | .mark _ l => .mark new l
  | b => b

/-- What a delegated slot sends on before its mark, once it knows its successor: a MOVED, which the other end's mark awaits when
both ends delegate, and a failure (R235, R250). -/
def urgent : Body → Bool
  | .moved _ _ | .failure _ _ _ => true
  | _ => false

/-- The network a body travels on (R389). -/
def onReply : Body → Bool
  | .slotReturn _ _ | .resync _ _ | .closeAck _ | .failure _ _ _ => true
  | _ => false

/-- The new slot that a mark or a MOVED names. -/
def markNames : Body → Option EpLoc
  | .mark _ l => some l
  | _ => none

/-- Where a delegated slot sends on, how many of its messages go now, and whether the mark is the last of them (R251): all of
them to the slot that an arrived mark names, once the slot's own returns are sent (R244); before that those up to the last
urgent one (log entry 21). -/
def forwardPlan (e : Endp) : Option (EpLoc × Nat × Bool) :=
  match e.fwdQueue.filterMap markNames, e.fwdTo with
  | l :: _, _ => if e.retDue.isEmpty then some (l, e.fwdQueue.length, true) else none
  | [], some l => some (l, e.fwdQueue.length - (e.fwdQueue.reverse.takeWhile fun b => !urgent b).length, false)
  | [], none => none

/-- Sends one message on; a delegation record for a chip that no port reaches is discarded there (R235). -/
def forwardOne (s : State) (k : Nat) (me new : EpLoc) (b : Body) : State :=
  let s := s.emit k (onReply b) new.at_ (forwardBody b new me)
  if noWay s new.at_.chip then loseRecords s (delegated (chanBodies [b])) else s

/-- An uncorrectable error in the payload of a buffered message of a slot of core k (R235, reason 2; R356). -/
def frameBad (s : State) (k n : Nat) (m : BufMsg) : Bool :=
  let e := s.ep k n
  (s.firstBad (spadPa k + e.bufBase.toNat + m.slot * frameSize e.image) (payloadOf m.body).length).isSome

/-- A message to send on that the slot keeps in a frame with an uncorrectable error. -/
def keptBad (s : State) (k n : Nat) (b : Body) : Bool :=
  match b with
  | .chan _ _ _ c => match (s.ep k n).buf.find? fun m => m.body = c with | some m => frameBad s k n m | none => false
  | _ => false

/-- A delegated slot fails with reason 2 (R235, R356). DESIGN CHOICE: it tells both its peer and the slot that it forwards to, under GTID 0,
loses the records it still keeps and becomes FREE, as when its own record is lost (log entry 21). -/
def failForward (s : State) (k n : Nat) (l : EpLoc) : State :=
  let e := s.ep k n
  let w := e.word 2 0
  let s := (notifyPeer s k n w 0).emit k true l.at_ (.failure l w 0)
  loseRecords (freeSlot s k n) (delegated (chanBodies (e.fwdQueue ++ e.fwdHeld)))

/-- Sends on what a delegated slot may, which leaves its buffer; with the mark it becomes FREE (R251). A message that cannot be read in its
frame is never sent on: the slot fails there (R356). -/
def flushForward (s : State) (k n : Nat) : State :=
  let e := s.ep k n
  match forwardPlan e with
  | none => s
  | some (l, c, last) =>
    let me := s.epLoc k n
    let go := (e.fwdQueue.take c).takeWhile fun b => !keptBad s k n b
    let gone := chanBodies go
    let s1 := go.foldl (fun s b => forwardOne s k me l b)
      (s.onEp k n fun e => { e with
        fwdQueue := e.fwdQueue.drop go.length, buf := gone.foldl (fun l b => l.eraseP fun m => m.body = b) e.buf })
    if go.length < (e.fwdQueue.take c).length then failForward s1 k n l
    else if last then freeSlot s1 k n else s1

/-- A message of the channel that a delegated slot keeps in its buffer until it is sent on (R481). -/
def keepFrame (s : State) (k n : Nat) (b : Body) : State :=
  match b, nextFrame s (s.ep k n) with
  | .chan _ _ _ c, some i => if isFlow c then writeFrame (s.onEp k n fun e => { e with buf := e.buf ++ [⟨c, i, true⟩] }) k n i c else s
  | _, _ => s

/-- An arrival at a delegated slot (R251): behind an own mark still to come when it came directly. -/
def forwardArrival (s : State) (k n : Nat) (b : Body) (direct : Bool) : State :=
  let e := s.ep k n
  let s := keepFrame s k n b
  if e.oldSlot.isSome && direct && !onReply b then s.onEp k n fun e => { e with fwdHeld := e.fwdHeld ++ [b] }
  else flushForward (s.onEp k n fun e => { e with fwdQueue := e.fwdQueue ++ [b] }) k n

/-- The forwarded mark: held messages become consumable, or follow the forwarded ones (R251). -/
def ownMark (s : State) (k n : Nat) : State :=
  let s := s.onEp k n fun e => { e with oldSlot := none, buf := e.buf.map (fun b => { b with held := false }),
                                        fwdQueue := e.fwdQueue ++ e.fwdHeld, fwdHeld := [] }
  if (s.ep k n).forwarding then flushForward s k n else pump s k n

/-! The checks of R232 -/

/-- The endpoint slot that a capability names on the executing core, after steps 1 and 2 of R232. -/
def epStep2 (s : State) (v : GVal) : Eff Nat := do
  let w := v.bits.extractLsb' 0 64
  failIf (v.tag ≠ .endp || !endpValid v.bits) (.trap .capTag w)
  let l := endpLoc v.bits
  failIf (l.at_ ≠ s.here s.cur) (.trap .capPerm w)
  let e := s.ep s.cur l.ep
  failIf (e.status ≠ .free && e.gen = l.gen && e.owner.isSome && e.owner ≠ some s.curTid && !s.curTask.sup.priv) (.trap .capPerm w)
  pure l.ep

/-- A slot that is live under the generation of a capability. -/
def epLive (s : State) (v : GVal) : Bool :=
  let l := endpLoc v.bits
  let e := s.ep l.at_.core l.ep
  e.status ≠ .free && e.gen = l.gen

/-- Steps 1 to 3 of R232. -/
def epStep3 (s : State) (v : GVal) : Eff Nat := do
  let n ← epStep2 s v
  failIf (!epLive s v) (.trap .chClosed (BitVec.ofNat 64 (7 * 2 ^ 5)))
  pure n

/-- Bits of the permissions of an ENDP (R21). -/
def endpSend : Nat := 120
def endpRecv : Nat := 121
def endpDeleg : Nat := 122

/-- Steps 1 to 5 of R232, with the permission bit that the instruction needs. -/
def epStep5 (s : State) (v : GVal) (need : Option Nat) : Eff Nat := do
  let n ← epStep3 s v
  failIf (match need with | some b => !v.bits.getLsbD b | none => false) (.trap .capPerm (v.bits.extractLsb' 0 64))
  let e := s.ep s.cur n
  failIf (e.status = .closed) (.trap .chClosed e.closeWord)
  failIf (e.status = .closing) (.trap .chClosed (e.word 7 0))
  pure n

/-- A refusal PROTO (R233). -/
def proto (e : Endp) (reason : Nat) (type : BitVec 6) : Stop :=
  .trap .proto (BitVec.ofNat 64 (e.state.toNat + reason * 2 ^ 5 + type.toNat * 2 ^ 8))

/-- Steps 1 to 5 of R232 and the refusal of a BOUND slot (R233, reason 4). -/
def epConnected (s : State) (v : GVal) (need : Option Nat) : Eff Nat := do
  let n ← epStep5 s v need
  failIf ((s.ep s.cur n).status = .bound) (proto (s.ep s.cur n) 4 0)
  pure n

/-- A full send queue traps (R236). -/
def sendqRoom (s : State) (i : Instr) : Eff Unit := failIf (16 ≤ (s.me.sendq.filter fun e => e.arrive.isNone).length) (.trap .sendqFull (headInfo i))

/-- Enters a message of the executing task into the send queue (R236). -/
def enqueue (s : State) (reply : Bool) (dst : Place) (b : Body) (op : Nat) (src : List (Nat × Nat)) : State :=
  s.onCore s.cur fun c => { c with
    sendq := c.sendq ++ [⟨{ src := s.here s.cur, dst := dst, reply := reply, header := 0, body := b }, s.curTid, op, src, none⟩] }

/-- A flow-controlled send needs CONNECTED and a permit; until then it waits (R239). -/
def permitWait (e : Endp) (n : Nat) : Eff Unit := failIf (e.status = .resync || e.permits = 0) (.wait (.chan n))

/-- The sent count rises; a replay's returns that waited for it are delivered (R240, R452). -/
def raiseSent (s : State) (k n : Nat) : State := releaseReturns (s.onEp k n fun e => { e with sent := e.sent + 1 })

/-- Sends a flow-controlled message of the executing task through the send queue. -/
def sendFlow (s : State) (n : Nat) (b : ChBody) (op : Nat) (src : List (Nat × Nat)) : State :=
  let e := s.ep s.cur n
  match e.peer with
  | some p => raiseSent (enqueue s false p.at_ (.chan p (s.epLoc s.cur n) none b) op src) s.cur n
  | none => s

end Sys2Proof.Machine
end

