-- ==== Sys2Proof/Machine/Flags.lean ====
section
/-! DEFINITION. Conditions of compares (R124) and the sticky flags that instructions set (R40, R63, R116). -/

namespace Sys2Proof.Machine

/-- cond(a, b) by condition code: EQ 0, NE 1, LT 2, LE 3, LTU 4, LEU 5 (R124). -/
def cond (cc : Nat) (a b : W64) : Bool :=
  match cc with
  | 0 => a = b
  | 1 => a ≠ b
  | 2 => a.slt b
  | 3 => a.sle b
  | 4 => a.ult b
  | _ => a.ule b

/-- The flag a division sets: divzero for a zero divisor (R116). -/
def divFlag (b : W64) : Flags := if b = 0 then flDivzero else 0

/-- FFLAGS gains flags; it never loses one but by MTS (R40, R63). -/
def mergeFlags (s : State) (t : BitVec 48) (fl : Flags) : State := s.onTask t fun x => x.addFlags fl

end Sys2Proof.Machine
end

