-- ==== Sys2Proof/Machine/Scalar.lean ====
section
/-! DEFINITION. Scalar integer, literal, bit, compare, predicate, select and move instructions (R115 to R126). -/

namespace Sys2Proof.Machine

/-- SHL, SHR and SAR by an unsigned count (R118). -/
def shl64 (a n : W64) : W64 := if 64 ≤ n.toNat then 0 else a <<< n.toNat
def shr64 (a n : W64) : W64 := if 64 ≤ n.toNat then 0 else a >>> n.toNat
def sar64 (a n : W64) : W64 := a.sshiftRight (Nat.min n.toNat 63)

/-- Division (R116). -/
def div64 (a b : W64) : W64 := if b = 0 then BitVec.allOnes 64 else a.sdiv b
def divu64 (a b : W64) : W64 := if b = 0 then BitVec.allOnes 64 else a / b
def rem64 (a b : W64) : W64 := if b = 0 then a else a.srem b
def remu64 (a b : W64) : W64 := if b = 0 then a else a % b

/-- Bit counts (R122). -/
def clz64 (a : W64) : W64 := if a = 0 then 64 else BitVec.ofNat 64 (63 - Nat.log2 a.toNat)
def ctz64 (a : W64) : W64 := BitVec.ofNat 64 (((List.range 64).find? fun i => a.getLsbD i).getD 64)
def popc64 (a : W64) : W64 := BitVec.ofNat 64 ((List.range 64).filter fun i => a.getLsbD i).length

/-- Width of SEXT and ZEXT (R123). -/
def extWidth (w : BitVec 2) : Nat := 8 * 2 ^ w.toNat

/-- A DATA value of 128 bits. -/
def data128 (v : W128) : GVal := ⟨v, .data⟩

/-- ADD (R115). -/
def execAdd (g : Guard) (d a b : BitVec 5) (s : State) : Out :=
  alu g 4 s fun x => x.setR64 d (x.r64 a + x.r64 b)

/-- SUB (R115). -/
def execSub (g : Guard) (d a b : BitVec 5) (s : State) : Out :=
  alu g 4 s fun x => x.setR64 d (x.r64 a - x.r64 b)

/-- MUL (R115). -/
def execMul (g : Guard) (d a b : BitVec 5) (s : State) : Out :=
  alu g 4 s fun x => x.setR64 d (x.r64 a * x.r64 b)

/-- MULH (R115). -/
def execMulh (g : Guard) (d a b : BitVec 5) (s : State) : Out :=
  alu g 4 s fun x => x.setR64 d (((x.r64 a).signExtend 128 * (x.r64 b).signExtend 128).extractLsb' 64 64)

/-- MULHU (R115). -/
def execMulhu (g : Guard) (d a b : BitVec 5) (s : State) : Out :=
  alu g 4 s fun x => x.setR64 d (((x.r64 a).setWidth 128 * (x.r64 b).setWidth 128).extractLsb' 64 64)

/-- DIV (R116). -/
def execDiv (g : Guard) (d a b : BitVec 5) (s : State) : Out :=
  alu g 4 s fun x => (x.setR64 d (div64 (x.r64 a) (x.r64 b))).addFlags (divFlag (x.r64 b))

/-- DIVU (R116). -/
def execDivu (g : Guard) (d a b : BitVec 5) (s : State) : Out :=
  alu g 4 s fun x => (x.setR64 d (divu64 (x.r64 a) (x.r64 b))).addFlags (divFlag (x.r64 b))

/-- REM (R116). -/
def execRem (g : Guard) (d a b : BitVec 5) (s : State) : Out :=
  alu g 4 s fun x => (x.setR64 d (rem64 (x.r64 a) (x.r64 b))).addFlags (divFlag (x.r64 b))

/-- REMU (R116). -/
def execRemu (g : Guard) (d a b : BitVec 5) (s : State) : Out :=
  alu g 4 s fun x => (x.setR64 d (remu64 (x.r64 a) (x.r64 b))).addFlags (divFlag (x.r64 b))

/-- AND, all 128 bits (R117). -/
def execAnd (g : Guard) (d a b : BitVec 5) (s : State) : Out :=
  alu g 4 s fun x => x.setReg d (data128 ((x.reg a).bits &&& (x.reg b).bits))

/-- OR, all 128 bits (R117). -/
def execOr (g : Guard) (d a b : BitVec 5) (s : State) : Out :=
  alu g 4 s fun x => x.setReg d (data128 ((x.reg a).bits ||| (x.reg b).bits))

/-- XOR, all 128 bits (R117). -/
def execXor (g : Guard) (d a b : BitVec 5) (s : State) : Out :=
  alu g 4 s fun x => x.setReg d (data128 ((x.reg a).bits ^^^ (x.reg b).bits))

/-- ANDN, all 128 bits (R117). -/
def execAndn (g : Guard) (d a b : BitVec 5) (s : State) : Out :=
  alu g 4 s fun x => x.setReg d (data128 ((x.reg a).bits &&& ~~~(x.reg b).bits))

/-- SHL (R118). -/
def execShl (g : Guard) (d a b : BitVec 5) (s : State) : Out :=
  alu g 4 s fun x => x.setR64 d (shl64 (x.r64 a) (x.r64 b))

/-- SHR (R118). -/
def execShr (g : Guard) (d a b : BitVec 5) (s : State) : Out :=
  alu g 4 s fun x => x.setR64 d (shr64 (x.r64 a) (x.r64 b))

/-- SAR (R118). -/
def execSar (g : Guard) (d a b : BitVec 5) (s : State) : Out :=
  alu g 4 s fun x => x.setR64 d (sar64 (x.r64 a) (x.r64 b))

/-- MIN (R115). -/
def execMin (g : Guard) (d a b : BitVec 5) (s : State) : Out :=
  alu g 4 s fun x => x.setR64 d (if (x.r64 a).sle (x.r64 b) then x.r64 a else x.r64 b)

/-- MAX (R115). -/
def execMax (g : Guard) (d a b : BitVec 5) (s : State) : Out :=
  alu g 4 s fun x => x.setR64 d (if (x.r64 b).sle (x.r64 a) then x.r64 a else x.r64 b)

/-- MINU (R115). -/
def execMinu (g : Guard) (d a b : BitVec 5) (s : State) : Out :=
  alu g 4 s fun x => x.setR64 d (if (x.r64 a).ule (x.r64 b) then x.r64 a else x.r64 b)

/-- MAXU (R115). -/
def execMaxu (g : Guard) (d a b : BitVec 5) (s : State) : Out :=
  alu g 4 s fun x => x.setR64 d (if (x.r64 b).ule (x.r64 a) then x.r64 a else x.r64 b)

/-- CLZ (R122). -/
def execClz (g : Guard) (d a : BitVec 5) (s : State) : Out :=
  alu g 4 s fun x => x.setR64 d (clz64 (x.r64 a))

/-- CTZ (R122). -/
def execCtz (g : Guard) (d a : BitVec 5) (s : State) : Out :=
  alu g 4 s fun x => x.setR64 d (ctz64 (x.r64 a))

/-- POPC (R122). -/
def execPopc (g : Guard) (d a : BitVec 5) (s : State) : Out :=
  alu g 4 s fun x => x.setR64 d (popc64 (x.r64 a))

/-- BREV (R122). -/
def execBrev (g : Guard) (d a : BitVec 5) (s : State) : Out :=
  alu g 4 s fun x => x.setR64 d ((x.r64 a).reverse)

/-- SEXT into all 128 bits (R123). -/
def execSext (g : Guard) (d a : BitVec 5) (w : BitVec 2) (s : State) : Out :=
  alu g 4 s fun x => x.setReg d (data128 (((x.r64 a).setWidth (extWidth w)).signExtend 128))

/-- ZEXT into all 128 bits (R123). -/
def execZext (g : Guard) (d a : BitVec 5) (w : BitVec 2) (s : State) : Out :=
  alu g 4 s fun x => x.setReg d (data128 (((x.r64 a).setWidth (extWidth w)).setWidth 128))

/-- ADDI (R119). -/
def execAddi (g : Guard) (d a : BitVec 5) (i : BitVec 11) (s : State) : Out :=
  alu g 4 s fun x => x.setR64 d (x.r64 a + imm64 i)

/-- ANDI, all 128 bits (R119). -/
def execAndi (g : Guard) (d a : BitVec 5) (i : BitVec 11) (s : State) : Out :=
  alu g 4 s fun x => x.setReg d (data128 ((x.reg a).bits &&& i.signExtend 128))

/-- ORI, all 128 bits (R119). -/
def execOri (g : Guard) (d a : BitVec 5) (i : BitVec 11) (s : State) : Out :=
  alu g 4 s fun x => x.setReg d (data128 ((x.reg a).bits ||| i.signExtend 128))

/-- XORI, all 128 bits (R119). -/
def execXori (g : Guard) (d a : BitVec 5) (i : BitVec 11) (s : State) : Out :=
  alu g 4 s fun x => x.setReg d (data128 ((x.reg a).bits ^^^ i.signExtend 128))

/-- SHLI (R119). -/
def execShli (g : Guard) (d a : BitVec 5) (n : BitVec 7) (s : State) : Out :=
  alu g 4 s fun x => x.setR64 d (shl64 (x.r64 a) (n.setWidth 64))

/-- SHRI (R119). -/
def execShri (g : Guard) (d a : BitVec 5) (n : BitVec 7) (s : State) : Out :=
  alu g 4 s fun x => x.setR64 d (shr64 (x.r64 a) (n.setWidth 64))

/-- SARI (R119). -/
def execSari (g : Guard) (d a : BitVec 5) (n : BitVec 7) (s : State) : Out :=
  alu g 4 s fun x => x.setR64 d (sar64 (x.r64 a) (n.setWidth 64))

/-- LIT (R120). -/
def execLit (g : Guard) (d : BitVec 5) (lit : BitVec 32) (s : State) : Out :=
  alu g 8 s fun x => x.setReg d (data128 (lit.signExtend 128))

/-- A 128-bit value with 32-bit quarter q replaced (R121). -/
def putQuarter (v : W128) (q : BitVec 2) (lit : W32) : W128 :=
  v &&& ~~~(0xFFFFFFFF#128 <<< (32 * q.toNat)) ||| (lit.setWidth 128 <<< (32 * q.toNat))

/-- LITH (R121). -/
def execLith (g : Guard) (d : BitVec 5) (q : BitVec 2) (lit : BitVec 32) (s : State) : Out :=
  alu g 8 s fun x => x.setReg d (data128 (putQuarter (x.reg d).bits q lit))

/-- CMP.cc (R124). -/
def execCmp (g : Guard) (p : BitVec 3) (a b : BitVec 5) (c : BitVec 3) (s : State) : Out :=
  alu g 4 s fun x => x.setPred p (cond c.toNat (x.r64 a) (x.r64 b))

/-- CMPI.EQ (R124). -/
def execCmpiEq (g : Guard) (p : BitVec 3) (a : BitVec 5) (i : BitVec 11) (s : State) : Out :=
  alu g 4 s fun x => x.setPred p (cond 0 (x.r64 a) (imm64 i))

/-- CMPI.NE (R124). -/
def execCmpiNe (g : Guard) (p : BitVec 3) (a : BitVec 5) (i : BitVec 11) (s : State) : Out :=
  alu g 4 s fun x => x.setPred p (cond 1 (x.r64 a) (imm64 i))

/-- CMPI.LT (R124). -/
def execCmpiLt (g : Guard) (p : BitVec 3) (a : BitVec 5) (i : BitVec 11) (s : State) : Out :=
  alu g 4 s fun x => x.setPred p (cond 2 (x.r64 a) (imm64 i))

/-- CMPI.LE (R124). -/
def execCmpiLe (g : Guard) (p : BitVec 3) (a : BitVec 5) (i : BitVec 11) (s : State) : Out :=
  alu g 4 s fun x => x.setPred p (cond 3 (x.r64 a) (imm64 i))

/-- CMPI.LTU (R124). -/
def execCmpiLtu (g : Guard) (p : BitVec 3) (a : BitVec 5) (i : BitVec 11) (s : State) : Out :=
  alu g 4 s fun x => x.setPred p (cond 4 (x.r64 a) (imm64 i))

/-- CMPI.LEU (R124). -/
def execCmpiLeu (g : Guard) (p : BitVec 3) (a : BitVec 5) (i : BitVec 11) (s : State) : Out :=
  alu g 4 s fun x => x.setPred p (cond 5 (x.r64 a) (imm64 i))

/-- PAND (R125). -/
def execPand (g : Guard) (p q r : BitVec 3) (s : State) : Out :=
  alu g 4 s fun x => x.setPred p (x.pred q && x.pred r)

/-- POR (R125). -/
def execPor (g : Guard) (p q r : BitVec 3) (s : State) : Out :=
  alu g 4 s fun x => x.setPred p (x.pred q || x.pred r)

/-- PXOR (R125). -/
def execPxor (g : Guard) (p q r : BitVec 3) (s : State) : Out :=
  alu g 4 s fun x => x.setPred p (x.pred q != x.pred r)

/-- PNOT (R125). -/
def execPnot (g : Guard) (p q : BitVec 3) (s : State) : Out :=
  alu g 4 s fun x => x.setPred p (!x.pred q)

/-- PSET (R125). -/
def execPset (g : Guard) (p : BitVec 3) (b : BitVec 1) (s : State) : Out :=
  alu g 4 s fun x => x.setPred p (b = 1)

/-- MOV with its tag (R126). -/
def execMov (g : Guard) (d a : BitVec 5) (s : State) : Out :=
  alu g 4 s fun x => x.setReg d (x.reg a)

/-- SEL with its tag (R126). -/
def execSel (g : Guard) (d a b : BitVec 5) (c : BitVec 3) (s : State) : Out :=
  alu g 4 s fun x => x.setReg d (if x.pred c then x.reg a else x.reg b)

end Sys2Proof.Machine
end

