-- ==== Sys2Proof/Machine/MemInstr.lean ====
section
/-! DEFINITION. Tagged, ordered and atomic memory instructions, multi-destination stores, prefetch, fences, barriers and
counters (R156 to R173). LD and ST, which also reach control registers, are in LoadStore. -/

namespace Sys2Proof.Machine

/-- A checked read of n bytes of memory, control space answering with ALIGN (R149, R151). -/
def readChecked (s : State) (c : GVal) (a : W64) (n : Nat) : Eff (State × Nat) := do
  let (s, pa) ← memTarget (← resolve s c permLd a n n .load false) a .align
  loadable s a pa n
  pure (s.chargeCur pa n, pa)

/-- LDC (R156). -/
def execLdc (g : Guard) (d a : BitVec 5) (i : BitVec 11) (s : State) : Out :=
  guarded g 4 s fun s => do
    let c := s.curTask.reg a
    let (s, pa) ← readChecked s c (eaC c i) 16
    let tag := if capPerm c.bits &&& permLdcap = 0 then Tag.data else s.seenTag (eaC c i) pa
    pure (s.onCur fun x => (x.setReg d ⟨BitVec.ofNat 128 (s.seenNat (eaC c i) pa 16), tag⟩).advance 4)

/-- The checks of STC between checks 1 and 2 of R149 (R17, R46, R156). -/
def stcCheck (c v : GVal) (a : W64) : Eff Unit :=
  if v.tag = .data then .ok ()
  else failIf (capPerm c.bits &&& permStcap = 0 || (!isGlobal v && 0x1000000 ≤ a.toNat) || (planeWin a).isSome)
    (.trap .capPerm a)

/-- Writes 16 bytes with a tag in one step (R48). -/
def writeCap (s : State) (pa : Nat) (v : GVal) : State := (s.write pa (leBytes 16 v.bits.toNat)).setTag pa v.tag

/-- STC's write through the path of address a (R48, R367). -/
def storeCap (s : State) (a : W64) (pa : Nat) (v : GVal) : State :=
  s.through a ((List.range 16).map (pa + ·)) fun s => writeCap s pa v

/-- STC (R156). -/
def execStc (g : Guard) (d a : BitVec 5) (i : BitVec 11) (s : State) : Out :=
  guarded g 4 s fun s => do
    let c := s.curTask.reg a
    let v := s.curTask.reg d
    let e := eaC c i
    check1 c permSt e 16 false
    stcCheck c v e
    let (s, pa) ← memTarget (← resolve s c permSt e 16 16 .store false) e .align
    pure (retire (((storeCap s e pa v).chargeOut pa 16).owe 4) 4)

/-- LDA (R157): loads are performed in program order here, so its acquire adds nothing. -/
def execLda (g : Guard) (d a : BitVec 5) (o : BitVec 8) (z : BitVec 3) (s : State) : Out :=
  guarded g 4 s fun s => do
    let c := s.curTask.reg a
    let n := szBytes z
    let (s, pa) ← readChecked s c (eaM c o n) n
    pure (s.onCur fun x => (x.setReg d ⟨BitVec.ofNat 128 (s.seenNat (eaM c o n) pa n), .data⟩).advance 4)

/-- Every write and atomic of the task is acknowledged, and with `pod` every send to another chip accepted (R158). -/
def Task.acked (x : Task) (pod : Bool) : Bool := !(x.unacked.any fun p => p.scope ≤ 4 || pod)

/-- Every earlier load of the executing task has returned: nothing of it waits in the vector queue (R157, R158, R177). -/
def State.loadsBack (s : State) : Bool := !(s.me.vecq.any fun e => e.task = s.curTid)

/-- Nothing of the executing task waits in the send queue, its loads have returned, and no posted atomic of it is still to report an
uncorrectable error (R157, R158, R163, R236). -/
def State.sendsGone (s : State) : Bool :=
  !(s.me.sendq.any fun e => e.task = s.curTid) && s.loadsBack && !(s.me.postedUe.any fun p => p.1 = s.curTid)

/-- STL: performed only when every earlier load has returned and every earlier write is acknowledged (R157, R372); until then it
stalls. -/
def execStl (g : Guard) (d a : BitVec 5) (o : BitVec 8) (z : BitVec 3) (s : State) : Out :=
  guarded g 4 s fun s => do
    let c := s.curTask.reg a
    let n := szBytes z
    let e := eaM c o n
    let (s, pa) ← memTarget (← resolve s c permSt e n n .store false) e .align
    failIf (!s.curTask.acked false || !s.sendsGone) (.after s .stall)
    pure (retire (((s.store e pa (leBytes n (s.curTask.reg d).bits.toNat)).chargeOut pa n).owe 4) 4)

/-- FENCE (R158): scope 0 is the task's own view, which is always in order here, so that it waits for earlier loads alone. -/
def execFence (g : Guard) (sc : BitVec 5) (s : State) : Out :=
  guarded g 4 s fun s => do
    failIf (!s.loadsBack || (sc ≠ 0 && (!s.curTask.acked (sc = 5) || !s.sendsGone))) .stall
    pure (retire s 4)

/-- FENCE.LB (R159, R367). -/
def execFenceLb (g : Guard) (s : State) : Out := guarded g 4 s fun s => .ok (retireOf s.settleLoop s.curTid 4)

/-- What PF does with an address it may act on (R160). -/
def prefetch (s : State) (h : Nat) (a : W64) : State :=
  let x := s.curTask
  let cl := clusterOf s.cur
  let p : Path := ⟨if h = 0 || h = 3 then some (s.cur, false) else none, some cl, dieOf s.cur⟩
  let l := s.lookup p x.asid a.toNat
  match l.found with
  | .leaf lv e => (s.keepRoot p x.asid l.root).fillPath p x.asid a.toNat lv e l.walked
  | .fault k lv =>
    let s := s.keepRoot p x.asid l.root
    if k = 0 && 2 ≤ h then postPf s cl x.asid (a.extractLsb' 16 36) lv else s
  | .bus => s
  | .ue => s

/-- The range-lock test of PF, on the address before translation (R160). -/
def pfLocked (s : State) (e : W64) : Bool := lockTest s.me s.curTid false s.curTask.asid e.toNat (e.toNat + 1) true ≠ .free

/-- The address lies in the bounds of the capability. -/
def inBounds (c : GVal) (e : W64) : Bool := let (lo, hi) := memBounds c.bits; decide (lo ≤ e.toNat) && decide (e.toNat < hi)

/-- PF (R160). -/
def execPf (g : Guard) (h : BitVec 2) (a : BitVec 5) (i : BitVec 11) (s : State) : Out :=
  guarded g 4 s fun s =>
    let c := s.curTask.reg a
    let e := eaI c i
    let acts := c.tag = .mem && inBounds c e && 0x1000000 ≤ e.toNat && e.extractLsb' 52 12 = 0 && !pfLocked s e
    .ok (retireOf (if acts then prefetch s h.toNat e else s) s.curTid 4)

/-- The value an AMO stores for operation op at width w bits, with its flags (R161, R162). -/
def amoResult (op w m b : Nat) : Nat × Flags :=
  let lt := decide (sxInt m w ≤ sxInt b w)
  match op with
  | 0 => ((m + b) % 2 ^ w, 0)
  | 1 => (Nat.land m b, 0)
  | 2 => (Nat.lor m b, 0)
  | 3 => (Nat.xor m b, 0)
  | 4 => (if lt then m else b, 0)
  | 5 => (if lt then b else m, 0)
  | 6 => (Nat.min m b, 0)
  | 7 => (Nat.max m b, 0)
  | 8 => (b, 0)
  | 9 => fsum fp32 m b
  | _ =>
    let (lo, f1) := fsum bf16 (m % 2 ^ 16) (b % 2 ^ 16)
    let (hi, f2) := fsum bf16 (m / 2 ^ 16) (b / 2 ^ 16)
    (lo + hi * 2 ^ 16, f1 ||| f2)
where
  fsum (f : Fmt) (x y : Nat) : Nat × Flags :=
    let (v, fl) := fadd (fdecode f x) (fdecode f y)
    let (c, fl2) := fconv f false .rne v
    (c, fl ||| fl2)

/-- A posted atomic met an uncorrectable error: reported later, nothing written (R153, R356). -/
def postedUe (s : State) (a : W64) : State :=
  s.onCore s.cur fun c => { c with postedUe := c.postedUe ++ [(s.curTid, a)] }

/-- An atomic update of n bytes at a placed address, as one step at the owner (R152, R161, R163): it reads what stands before its own
write there (R362, R367). -/
def atomicAt (s : State) (a : W64) (pa n : Nat) (f : Nat → Option Nat × Flags) : State :=
  let (r, fl) := f (s.foundNat a pa n)
  let s := match r with
    | some v => s.store a pa (leBytes n v)
    | none => s
  (mergeFlags s s.curTid fl).chargeOut pa n |>.owe 4

/-- AMO and CAS: the checks, the error rules of R153, the update, the old value in g[rd]. -/
def atomicInstr (s : State) (d a : BitVec 5) (n : Nat) (f : Nat → Option Nat × Flags) : Eff State := do
  let c := s.curTask.reg a
  let e := cursor c.bits
  let (s, pa) ← memTarget (← resolve s c permAtom e n n .atomic false) e .busError
  if (s.firstBad pa n).isSome && d = 0 then pure (retire (postedUe s e) 4)
  else
    loadable s e pa n
    let m := s.foundNat e pa n
    pure ((atomicAt s e pa n f).onCur fun x => (x.setReg d ⟨BitVec.ofNat 128 m, .data⟩).advance 4)

/-- Bytes of an atomic's width code (R97). -/
def atomBytes (w : BitVec 2) : Nat := if w = 0 then 4 else if w = 1 then 8 else 16

/-- AMO.op.w (R161 to R163). -/
def execAmo (g : Guard) (d a b : BitVec 5) (w : BitVec 2) (o : BitVec 4) (s : State) : Out :=
  guarded g 4 s fun s =>
    let n := atomBytes w
    let v := (s.curTask.reg b).bits.toNat % 2 ^ (8 * n)
    atomicInstr s d a n fun m => let (r, fl) := amoResult o.toNat (8 * n) m v; (some r, fl)

/-- CAS.w (R164). -/
def execCas (g : Guard) (d a b : BitVec 5) (w : BitVec 2) (s : State) : Out :=
  guarded g 4 s fun s =>
    let n := atomBytes w
    let ev := (s.curTask.reg d).bits.toNat % 2 ^ (8 * n)
    let v := (s.curTask.reg b).bits.toNat % 2 ^ (8 * n)
    atomicInstr s d a n fun m => (if m = ev then some v else none, 0)

/-- The destinations of STM and STRED (R165). -/
def destinations (a desc : W64) : List W64 :=
  (List.range ((desc.extractLsb' 0 6).toNat + 1)).map fun k =>
    a + BitVec.ofNat 64 k * (desc.extractLsb' 16 48).signExtend 64

/-- Checks 1 to 4 of R149 and the watch test on each address, in order. -/
def checkEach (s : State) (c : GVal) (perm : Byte) (n al : Nat) (u : Use) (elem : Bool) : List W64 → Eff Unit
  | [] => .ok ()
  | a :: as => do
    check1 c perm a n elem
    check2 a n
    check3 a n al elem
    check4 s a n u.writes
    checkEach s c perm n al u elem as

def watchEach (s : State) (n : Nat) (u : Use) : List W64 → Eff Unit
  | [] => .ok ()
  | a :: as => do checkWatch s a n u; watchEach s n u as

/-- Inserts an address by its page, keeping the lowest address of each page (R166, R196). -/
def pageInsert (a : W64) : List W64 → List W64
  | [] => [a]
  | b :: bs =>
    if a.toNat / 65536 = b.toNat / 65536 then (if a.toNat < b.toNat then a :: bs else b :: bs)
    else if a.toNat < b.toNat then a :: b :: bs else b :: pageInsert a bs

/-- The lowest address of each page touched, in increasing address order. -/
def pagesOf (as : List W64) : List W64 :=
  (as.filter fun a => 0x1000000 ≤ a.toNat).foldl (fun l a => pageInsert a l) []

/-- Check 5 on each page (R166, R196). -/
def translateEach (s : State) (u : Use) : List W64 → Eff State
  | [] => .ok s
  | a :: as =>
    match translate5 s a u with
    | .ok (s, _) => translateEach s u as
    | .error st => .error (.after s st)

/-- Check 6 on each address, control space answering as given, and the physical addresses in order. -/
def targetEach (s : State) (n : Nat) (u : Use) (ctl : Cause) : List W64 → Eff (State × List Nat)
  | [] => .ok (s, [])
  | a :: as => do
    let (s, pa) ← memTarget (← place s a n u) a ctl
    let (s, pas) ← targetEach s n u ctl as
    pure (s, pa :: pas)

/-- The check phase of STM and STRED (R166): the physical addresses of the destinations. -/
def checkMulti (s : State) (c : GVal) (perm : Byte) (n : Nat) (u : Use) (ds : List W64) : Eff (State × List Nat) := do
  checkEach s c perm n n u false ds
  watchEach s n u ds
  let s ← translateEach s u (pagesOf ds)
  targetEach s n u .busError ds

/-- STM (R165 to R167). -/
def execStm (g : Guard) (d a b : BitVec 5) (z : BitVec 3) (s : State) : Out :=
  guarded g 4 s fun s => do
    let c := s.curTask.reg a
    let n := szBytes z
    let v := leBytes n (s.curTask.reg d).bits.toNat
    let ds := destinations (cursor c.bits) (s.curTask.r64 b)
    let (s, pas) ← checkMulti s c permSt n .store ds
    pure (retire ((ds.zip pas).foldl (fun s (p : W64 × Nat) => ((s.store p.1 p.2 v).chargeOut p.2 n).owe 4) s) 4)

/-- The AMO operation of a STRED operation (R165). -/
def stredOp (o : BitVec 3) : Nat :=
  match o.toNat with
  | 0 => 0 | 1 => 9 | 2 => 4 | 3 => 5 | 4 => 6 | _ => 7

/-- STRED (R165 to R167): each destination as a posted AMO. -/
def execStred (g : Guard) (d a b : BitVec 5) (o z : BitVec 3) (s : State) : Out :=
  guarded g 4 s fun s => do
    let c := s.curTask.reg a
    let n := szBytes z
    let v := (s.curTask.reg d).bits.toNat % 2 ^ (8 * n)
    let ds := destinations (cursor c.bits) (s.curTask.r64 b)
    let (s, pas) ← checkMulti s c permAtom n .atomic ds
    let f := fun m => let (r, fl) := amoResult (stredOp o) (8 * n) m v; (some r, fl)
    pure (retire ((ds.zip pas).foldl (fun s (p : W64 × Nat) =>
      if (s.firstBad p.2 n).isSome then postedUe s p.1 else atomicAt s p.1 p.2 n f) s) 4)

/-- The physical slot that a slot number names, or BARRIER_ID (R28, R168). DESIGN CHOICE: a number below the task's own count but beyond the
slots that its core group reserved at its first task traps BARRIER_ID as well (log entry 31). -/
def barrierSlot (s : State) (n : BitVec 4) : Eff Nat :=
  if s.curTask.barriers ≤ n.toNat then .error (.trap .barrierId (n.setWidth 64))
  else
    match physSlot s.me s.curTask.job n.toNat with
    | some k => .ok k
    | none => .error (.trap .barrierId (n.setWidth 64))

/-- No send of the executing task waits in the send queue. -/
def State.sendqClear (s : State) : Bool := !(s.me.sendq.any fun e => e.task = s.curTid)

/-- The arrival of the executing task, performed behind its earlier sends (R171): at once where none waits in the send queue,
else in its turn there. -/
def postArrival (s : State) (n : BitVec 4) (k : Nat) : State :=
  if s.sendqClear then arrive s s.curTid n.toNat k
  else
    let m : Msg := { src := s.here s.cur, dst := s.here s.cur, reply := false, header := 0, body := .sinkRelease }
    s.onCore s.cur fun c => { c with sendq := c.sendq ++ [⟨m, s.curTid, 0, [], some (n.toNat, k)⟩] }

/-- An arrival of the executing task at a slot is still to be performed (R171). -/
def arrivalDue (s : State) (k : Nat) : Bool :=
  s.me.sendq.any fun e => e.task = s.curTid && (match e.arrive with | some p => p.2 = k | none => false)

/-- BAR.ARR (R171): it does not hold the task. -/
def execBarArr (g : Guard) (n : BitVec 4) (s : State) : Out :=
  guarded g 4 s fun s => do
    let k ← barrierSlot s n
    pure (retireOf (postArrival s n k) s.curTid 4)

/-- The end of a barrier wait (R171). -/
def leaveBarrier (s : State) (t : BitVec 48) (n : BitVec 4) : State :=
  s.onTask t fun x => ({ x with arrived := x.arrived &&& ~~~(1#16 <<< n.toNat), barWait := false, released := false, barSync := x.barSync.filter (· ≠ (x.pc, x.trapLevel)) }).advance 4

/-- The wait of BAR.WAIT and BAR.SYNC: it ends when a completion released it, or when the phase differs (R170, R171). -/
def barrierWait (s : State) (t : BitVec 48) (n : BitVec 4) (k : Nat) : State :=
  let x := s.task t
  if x.released then leaveBarrier s t n
  else if (s.me.counter k).phase ≠ x.rec_.getLsbD n.toNat then leaveBarrier s t n
  else blockTask (s.onTask t fun x => { x with barWait := true }) t (.counter k)

/-- BAR.WAIT (R171). -/
def execBarWait (g : Guard) (n : BitVec 4) (s : State) : Out :=
  guarded g 4 s fun s => do
    let k ← barrierSlot s n
    failIf (arrivalDue s k) (.wait (.arrival k))
    let x := s.curTask
    let s' := if x.arrived.getLsbD n.toNat || x.barWait then s
      else s.onCur fun x => x.recordPhase n.toNat (s.me.counter k).phase
    pure (barrierWait s' s.curTid n k)

/-- BAR.SYNC (R171, R173): after its arrival it is a wait, also where a trap was taken in that wait and the handler returns to it; the
handler's own BAR.SYNC arrives for itself, at the same address too (R272; log entry 31). -/
def execBarSync (g : Guard) (n : BitVec 4) (s : State) : Out :=
  guarded g 4 s fun s => do
    let k ← barrierSlot s n
    failIf (arrivalDue s k) (.wait (.arrival k))
    if s.curTask.barSync.contains (s.curTask.pc, s.curTask.trapLevel) then pure (barrierWait s s.curTid n k)
    else
      let t := s.curTid
      let now := s.sendqClear
      let s := (postArrival s n k).onTask t fun x => { x with barSync := (x.pc, x.trapLevel) :: x.barSync }
      pure (if now then barrierWait s t n k else blockTask s t (.arrival k))

/-- CNT.SET (R172). -/
def execCntSet (g : Guard) (a : BitVec 5) (n : BitVec 4) (s : State) : Out :=
  guarded g 4 s fun s => do
    let k ← barrierSlot s n
    let v := s.curTask.r64 a
    pure (slotUpdate (retire s 4) s.cur k fun c => { c with count := v.setWidth 32, target := v.extractLsb' 32 32 })

/-- CNT.ADD (R172). -/
def execCntAdd (g : Guard) (a : BitVec 5) (n : BitVec 4) (s : State) : Out :=
  guarded g 4 s fun s => do
    let k ← barrierSlot s n
    pure (slotAdd (retire s 4) s.cur k ((s.curTask.r64 a).setWidth 32))

/-- CNT.WAIT (R172). -/
def execCntWait (g : Guard) (a : BitVec 5) (n : BitVec 4) (s : State) : Out :=
  guarded g 4 s fun s => do
    let k ← barrierSlot s n
    let v : W32 := (s.curTask.r64 a).setWidth 32
    if countReached (s.me.counter k).count v then pure (retire s 4) else throw (.wait (.count k v))

end Sys2Proof.Machine
end

