-- ==== Sys2Proof/Machine/ChanInstr.lean ====
section
/-! DEFINITION. The channel instructions (R232 to R256) and bindings (R260 to R262). -/

namespace Sys2Proof.Machine

/-- The pieces of a range of addresses, cut at pages of 64 KiB. -/
def pieces : Nat → Nat → Nat → List (Nat × Nat)
  | 0, _, _ => []
  | fuel + 1, a, n =>
    let m := min n (65536 - a % 65536)
    if n = 0 then [] else (a, m) :: pieces fuel (a + m) (n - m)

/-- Checks 5 and 6 of each piece of a range outside the private alias, and the physical pieces. -/
def placePieces (s : State) (w : W64) : List (Nat × Nat) → Eff (State × List (Nat × Nat))
  | [] => .ok (s, [])
  | (a, n) :: ps => do
    let (s, pa) ← (match translate5 s (BitVec.ofNat 64 a) .load with
      | .ok (s1, pa, sup) => (match target6 s1 w n pa .load sup with | .ok r => memTarget r w .align | .error st => .error st)
      | .error st => .error st : Eff (State × Nat))
    let (s, l) ← placePieces s w ps
    pure (s, (pa, n) :: l)

/-- Checks 2 to 6 of R149 on a range of n bytes read as a whole: its physical pieces. -/
def rangePieces (s : State) (a : W64) (n : Nat) : Eff (State × List (Nat × Nat)) := do
  let sp := a.toNat < 0x1000000
  let o := a.toNat % 0x100000
  failIf (sp && (12 ≤ a.toNat / 0x100000 || 0x80000 < o + n)) (.trap .window a)
  let lo := if sp then o else a.toNat
  lockStop a (lockTest s.me s.curTid sp s.curTask.asid lo (lo + n) false)
  checkWatch s a n .load
  if sp then pure (s, [(spadPa s.cur + o, n)]) else placePieces s a (pieces (n / 65536 + 2) a.toNat n)

/-- The bytes of physical pieces. -/
def pieceBytes (s : State) (l : List (Nat × Nat)) : List Byte := l.flatMap fun p => s.readBytes p.1 p.2

/-- The bytes of physical pieces as a load through the path of address a sees them (R362, R367). -/
def seenPieces (s : State) (a : W64) (l : List (Nat × Nat)) : List Byte := l.flatMap fun p => s.seen a p.1 p.2

/-- The energy of the executing core's read of pieces (R422). -/
def chargeRead (s : State) (l : List (Nat × Nat)) : State := l.foldl (fun s p => s.chargeCur p.1 p.2) s

def piecesBad (s : State) (l : List (Nat × Nat)) : Bool := l.any fun p => (s.firstBad p.1 p.2).isSome

/-- Slots that a task holds (R237). -/
def heldSlots (c : Core) (t : BitVec 48) : Nat := (c.eps.filter fun p => p.2.status ≠ .free && p.2.owner = some t).length

/-- The lowest FREE slot of a core. -/
def freeEp (c : Core) : Option Nat := (List.range 64).find? fun n => (c.ep n).status = .free

/-- A new ENDP for a slot of the executing core (R237, R247). -/
def newEndp (s : State) (n : Nat) : GVal := endpCap true true true true (s.epLoc s.cur n)

/-- A slot taken by its holder with its image and buffer (R231, R237). -/
def takeSlot (s : State) (n : Nat) (st : EpStatus) (img : Image) (at_ : W64) (buf : W64) : State :=
  let z := frameSize img
  s.onEp s.cur n fun e =>
    { Endp.zero with status := st, gen := e.gen, image := img, imageAt := at_, owner := some s.curTid,
                     bufBase := if z = 0 then 0 else buf.setWidth 19, bufSize := BitVec.ofNat 20 (img.la * z) }

/-- The refusal code of CH.NEW (R237): 0 when it is taken. -/
def newRefusal (s : State) (img : Except Nat Image) (buf : GVal) : Nat :=
  let x := s.curTask
  if x.high then 5
  else if x.endpoints ≤ heldSlots s.me s.curTid then 1
  else if (freeEp s.me).isNone then 2
  else match img with
    | .error st => 3 + st * 2 ^ 8
    | .ok i => if bufferOk s.me buf i then 0 else 4

/-- CH.NEW (R237). An uncorrectable error in its image closes a channel in whose frame in hand it lies (R235). DESIGN CHOICE (log entry 21):
a header with nstates outside 1 to 32 gives no length, so step 1 checks its 16 bytes alone; an invalid image gives no L × Z, so step 2 checks
nothing. -/
def execChNew (g : Guard) (d a b : BitVec 5) (s : State) : Out :=
  guarded g 4 s fun s => do
    let c := s.curTask.reg a
    let at_ := cursor c.bits
    check1 c permLd at_ 16 false
    failIf (at_.toNat % 16 ≠ 0) (.trap .align at_)
    let (s, ps) ← rangePieces s at_ 16
    failIf (piecesBad s ps) (.after (closePieces s s.cur s.curTid ps) (.trap .memUe at_))
    let ns := ((seenPieces s at_ ps).getD 2 0).toNat
    let len := if 1 ≤ ns && ns ≤ 32 then 16 + 32 * ns else 16
    check1 c permLd at_ len false
    let (s, ps) ← rangePieces s at_ len
    failIf (piecesBad s ps) (.after (closePieces s s.cur s.curTid ps) (.trap .memUe at_))
    let img := parseImage (seenPieces s at_ ps)
    let s := chargeRead s ps
    let buf := s.curTask.reg b
    let z := match img with | .ok i => i.la * frameSize i | .error _ => 0
    if z ≠ 0 then check1 buf (permLd ||| permSt) (cursor buf.bits) z false
    match newRefusal s img buf, img, freeEp s.me with
    | 0, .ok i, some n =>
      let s := takeSlot s n .bound i at_ (cursor buf.bits)
      pure (s.onCur fun x => (x.setReg d (newEndp s n)).advance 4)
    | code, _, _ => pure (s.onCur fun x => (x.setR64 d (BitVec.ofNat 64 code)).advance 4)

/-- What an answered CH.CONN does (R238). -/
def connResult (s : State) (n : Nat) (r : ConnAns) : Eff State :=
  let s := s.onEp s.cur n fun e => { e with connTo := none, connBy := none, answer := none }
  match r with
  | .ok _ => pure (retire s 4)
  | .mismatch reason st => throw (.after s (.trap .protoMismatch (BitVec.ofNat 64 (st.toNat + reason.toNat * 2 ^ 5))))
  | .closed => throw (.after s (.trap .chClosed (BitVec.ofNat 64 (7 * 2 ^ 5))))

/-- CH.CONN (R238): one connect message, then the wait for its answer. -/
def execChConn (g : Guard) (a b : BitVec 5) (s : State) : Out :=
  guarded g 4 s fun s => do
    let v := s.curTask.reg a
    let l := endpLoc v.bits
    let e := s.ep s.cur l.ep
    if v.tag = .endp && endpValid v.bits && l = s.epLoc s.cur l.ep && e.connTo.isSome && e.connBy = some s.curTid then
      match e.answer with
      | some r => connResult s l.ep r
      | none => throw (.wait (.chan l.ep))
    else
      let n ← epStep5 s v none
      let e := s.ep s.cur n
      failIf (e.status ≠ .bound) (proto e 4 0)
      let p := s.curTask.reg b
      let w := p.bits.extractLsb' 0 64
      failIf (p.tag ≠ .endp || !endpValid p.bits) (.trap .capTag w)
      let pl := endpLoc p.bits
      failIf (pl.at_ ≠ s.here s.cur && !isGlobal p) (.trap .capPerm w)
      sendqRoom s (.chConn g a b)
      let s := enqueue s false pl.at_ (.connect pl (s.epLoc s.cur n) e.image) 0 []
      let s := s.onEp s.cur n fun e => { e with connTo := some pl, connBy := some s.curTid, answer := none }
      throw (.after s (.wait (.chan n)))

/-- Bytes of a class (R225). -/
def classBytes (sh : BitVec 4) : Nat := shapeFrame sh

/-- The length of a CH.SEND payload, or a refusal that it does not fit its shape (R240). -/
def payloadLen (e : Endp) (t : W32) (v : GVal) : Eff Nat :=
  let sh := tShape t
  let a := (cursor v.bits).toNat
  if 12 ≤ sh.toNat then
    let top := (memBounds v.bits).2
    let n := top - foldAddr top a
    if v.tag = .mem && (n = 0 || classBytes sh < n) then .error (proto e 2 (tType t)) else .ok n
  else
    let w := winOf sh.toNat
    let bad := match planeWin (cursor v.bits) with
      | some k => k ≠ sh.toNat || a % 0x100000 % w.slot ≠ 0
      | none => false
    if bad then .error (proto e 2 (tType t)) else .ok w.foot

/-- The first n bytes of pieces. -/
def firstBytes : Nat → List (Nat × Nat) → List (Nat × Nat)
  | _, [] => []
  | n, (a, m) :: ps => if n ≤ m then [(a, n)] else (a, m) :: firstBytes (n - m) ps

/-- The count of a begin action within its range (R227). -/
def countOk (e : Endp) (t : W32) (count : BitVec 17) : Eff Unit :=
  failIf (tLop t = 1 && (count.toNat = 0 || 0x10000 < count.toNat)) (proto e 3 (tType t))

/-- The count of a payload holds every earlier store of the task to it, as the payload does (R240): what the other path stored is performed for
this one, so that no later load goes back behind it (R362; log entry 30). -/
def readCount (s : State) (a : W64) (word : List (Nat × Nat)) : State :=
  chargeRead (if word.any fun p => (ownOffset s p.1).isSome then s.performPath (!viaGlobal a) else s) word

/-- Registers the source of a payload as a matrix read range of the task (R240). -/
def lockSource (s : State) (a : W64) (n op : Nat) : State :=
  let sp := a.toNat < 0x1000000
  let lo := if sp then a.toNat % 0x100000 else a.toNat
  s.onCore s.cur fun c => { c with
    locks := c.locks ++ [⟨op, s.curTid, true, true, sp, s.curTask.asid, lo, lo + n⟩], nextOp := op + 1 }

/-- CH.SEND (R239, R240). DESIGN CHOICE: the count of a begin that lies in an uncorrectable codeword traps MEM_UE at issue (R356; log entry
21). -/
def execChSend (g : Guard) (a b : BitVec 5) (s : State) : Out :=
  guarded g 4 s fun s => do
    let n ← epConnected s (s.curTask.reg a) (some endpSend)
    let e := s.ep s.cur n
    match e.find false 0 none with
    | none => throw (proto e 0 0)
    | some t =>
      let v := s.curTask.reg b
      if tShape t = 0 then
        let count := v.bits.extractLsb' 0 17
        countOk e t count
        permitWait e n
        sendqRoom s (.chSend g a b)
        let s := sendFlow s n (.data (tType t) 0 (v.bits.extractLsb' 0 64) (if tLop t = 1 then count else 0) []) 0 []
        pure (retire (s.onEp s.cur n fun e => e.take t count) 4)
      else
        let at_ := cursor v.bits
        let len ← payloadLen e t v
        check1 v permLd at_ len false
        let (s, ps) ← rangePieces s at_ len
        let word := firstBytes 4 ps
        failIf (tLop t = 1 && piecesBad s word) (.after (closePieces s s.cur s.curTid word) (.trap .memUe at_))
        let count := BitVec.ofNat 17 (leNat (pieceBytes s word))
        countOk e t count
        permitWait e n
        sendqRoom s (.chSend g a b)
        let s := if tLop t = 1 then readCount s at_ word else s
        let op := s.me.nextOp
        let s := lockSource s at_ len op
        let s := sendFlow s n (.data (tType t) (tShape t) 0 (if tLop t = 1 then count else 0) []) op ps
        pure (retire (s.onEp s.cur n fun e => e.take t count) 4)

/-- The kind of a buffered message: 0 data, 1 label, 2 endpoint; its type and count. -/
def msgKind (b : ChBody) : Nat × BitVec 6 × BitVec 17 :=
  match b with
  | .data t _ _ c _ => (0, t, c)
  | .label t c => (1, t, c)
  | .deleg t _ => (2, t, 0)
  | .close _ _ => (3, 0, 0)

/-- The transition that the head message takes for a receiving instruction of a kind; none while there is no message
(R241 to R243, R247). DEDUCED: where the head is of another kind the PROTO word's type, 'attempted' in R233, is that of the buffered message
(log entry 21). -/
def headTrans (e : Endp) (kind : Nat) : Eff (Option (BufMsg × W32 × BitVec 17)) := do
  failIf (e.find true kind none).isNone (proto e 0 0)
  match e.head with
  | none => pure none
  | some m =>
    let (k, ty, c) := msgKind m.body
    failIf (k ≠ kind) (proto e 0 ty)
    match e.find true kind (some ty) with
    | some t => pure (some (m, t, c))
    | none => throw (proto e 1 ty)

/-- The head message is consumed by its transition. -/
def consumeHead (s : State) (n : Nat) (t : W32) (c : BitVec 17) : State :=
  s.onEp s.cur n fun e => { e.take t c with buf := e.buf.drop 1, lastType := tType t }

/-- What CH.RECV writes for a data message (R241). -/
def recvValue (e : Endp) (m : BufMsg) : GVal :=
  match m.body with
  | .data _ sh word _ p =>
    if sh = 0 then data64 word
    else
      let o := e.bufBase.toNat + m.slot * frameSize e.image
      exactCap permLd o p.length (BitVec.ofNat 64 (if 12 ≤ sh.toNat then o else o + sh.toNat * 2 ^ 20))
  | _ => .zero

/-- CH.RECV (R241, R243 to R245). -/
def execChRecv (g : Guard) (d a : BitVec 5) (s : State) : Out :=
  guarded g 4 s fun s => do
    let n ← epConnected s (s.curTask.reg a) (some endpRecv)
    let e := s.ep s.cur n
    match ← headTrans e 0 with
    | none => throw (.after (returnFrame s s.cur n) (.wait (.chan n)))
    | some (m, t, c) =>
      if frameBad s s.cur n m then
        let w := e.word 2 0
        throw (.after (failClose s s.cur n 2 0 s.curTid) (.trap .chClosed w))
      else
        let s := consumeHead (returnFrame s s.cur n) n t c
        let o := e.bufBase.toNat + m.slot * frameSize e.image
        let s := s.onEp s.cur n fun e => { e with inHand := some (m.slot, o, o + frameSize e.image) }
        let s := s.onCur fun x => (x.setReg d (recvValue e m)).advance 4
        pure (pump s s.cur n)

/-- CH.OFFER (R242, R243). -/
def execChOffer (g : Guard) (d a : BitVec 5) (s : State) : Out :=
  guarded g 4 s fun s => do
    let n ← epConnected s (s.curTask.reg a) (some endpRecv)
    let e := s.ep s.cur n
    match ← headTrans e 1 with
    | none => throw (.after (returnFrame s s.cur n) (.wait (.chan n)))
    | some (_, t, c) =>
      let s := giveBack (consumeHead (returnFrame s s.cur n) n t c) s.cur n
      let s := s.onCur fun x => (x.setR64 d ((tType t).setWidth 64)).advance 4
      pure (pump s s.cur n)

/-- CH.SELECT (R242). -/
def execChSelect (g : Guard) (a b : BitVec 5) (s : State) : Out :=
  guarded g 4 s fun s => do
    let n ← epConnected s (s.curTask.reg a) (some endpSend)
    let e := s.ep s.cur n
    failIf (e.find false 1 none).isNone (proto e 0 0)
    let v := s.curTask.r64 b
    let ty : BitVec 6 := v.setWidth 6
    match e.find false 1 (some ty) with
    | none => throw (proto e 1 ty)
    | some t =>
      let count := v.extractLsb' 32 17
      countOk e t count
      permitWait e n
      sendqRoom s (.chSelect g a b)
      let s := sendFlow s n (.label ty (if tLop t = 1 then count else 0)) 0 []
      pure (retire (s.onEp s.cur n fun e => e.take t count) 4)

/-- CH.DELEG (R246, R249). -/
def execChDeleg (g : Guard) (a b : BitVec 5) (s : State) : Out :=
  guarded g 4 s fun s => do
    let n ← epConnected s (s.curTask.reg a) (some endpSend)
    let e := s.ep s.cur n
    match e.find false 2 none, e.peer with
    | some t, some p =>
      let v := s.curTask.reg b
      let m ← epStep5 s v (some endpDeleg)
      let x := s.ep s.cur m
      failIf (!isGlobal v && p.at_ ≠ s.here s.cur) (.trap .capPerm (v.bits.extractLsb' 0 64))
      failIf (m = n || x.status ≠ .connected || !x.buf.isEmpty) (.trap .delegBusy (BitVec.ofNat 64 (m + min x.buffered 15 * 2 ^ 6)))
      permitWait e n
      sendqRoom s (.chDeleg g a b)
      let s := returnFrame s s.cur m
      let x := s.ep s.cur m
      let r : DelegRec :=
        { image := x.image, state := x.state.toNat, loop0 := x.loop0, loop1 := x.loop1, sent := x.sent, returned := x.returned,
          consumed := x.consumed + BitVec.ofNat 32 x.retDue.length, peer := x.peer.getD p, peerL := x.peerL, old := s.epLoc s.cur m }
      let s := sendFlow s n (.deleg (tType t) r) 0 []
      let s := s.onEp s.cur n fun e => e.take t 0
      let s := s.onEp s.cur m fun e => { e with
        status := .closing, forwarding := true, owner := none, reader := x.owner, trig := none, link := none }
      pure (retire s 4)
    | _, _ => throw (proto e 0 0)

/-- The endpoint that CH.ACCEPT makes from a record (R247, R251); a replay's returns that its sent count waited for are delivered
(R452). DESIGN CHOICE: the record carries no image address, and the new slot holds 0 there (R30; log entry 21). -/
def acceptSlot (s : State) (m : Nat) (r : DelegRec) (buf : W64) : State :=
  releaseReturns ((takeSlot s m .connected r.image 0 buf).onEp s.cur m fun e =>
    { e with state := BitVec.ofNat 5 r.state, loop0 := r.loop0, loop1 := r.loop1, sent := r.sent, returned := r.returned,
             consumed := r.consumed, peer := some r.peer, peerL := r.peerL, oldSlot := some r.old })

/-- CH.ACCEPT (R247, R251): MOVED goes to the peer; the old slot gets the model's notice (log entry 21). -/
def execChAccept (g : Guard) (d a : BitVec 5) (s : State) : Out :=
  guarded g 4 s fun s => do
    let n ← epConnected s (s.curTask.reg a) (some endpRecv)
    let e := s.ep s.cur n
    match ← headTrans e 2 with
    | none => throw (.after (returnFrame s s.cur n) (.wait (.chan n)))
    | some (⟨.deleg _ r, _, _⟩, t, _) =>
      let buf := s.curTask.reg d
      let z := r.image.la * frameSize r.image
      let capOk := z = 0 || (capCheck buf (permLd ||| permSt) (cursor buf.bits) z).isNone
      match freeEp s.me with
      | some m =>
        failIf (s.curTask.endpoints ≤ heldSlots s.me s.curTid || !capOk || !bufferOk s.me buf r.image) (proto e 5 0)
        let s := giveBack (consumeHead (returnFrame s s.cur n) n t 0) s.cur n
        let s := acceptSlot s m r (cursor buf.bits)
        let l := s.epLoc s.cur m
        let s := s.emit s.cur false r.peer.at_ (.moved r.peer l)
        let s := s.emit s.cur false r.old.at_ (.successor r.old l)
        let s := s.onCur fun x => (x.setReg d (newEndp s m)).advance 4
        pure (pump s s.cur n)
      | none => throw (proto e 5 0)
    | some _ => throw (proto e 0 0)

/-- CH.CLOSE (R255): of an own slot in order, of another task's by a supervisor under reason 4. -/
def execChClose (g : Guard) (a : BitVec 5) (s : State) : Out :=
  guarded g 4 s fun s => do
    let n ← epStep3 s (s.curTask.reg a)
    let e := s.ep s.cur n
    match e.owner with
    | some o =>
      if o ≠ s.curTid then pure (retireOf (failClose s s.cur n 4 0 o) s.curTid 4)
      else if e.status = .closed then
        failIf (!(e.hasClose && !e.ownClose && wordReason e.closeWord = 0)) (.trap .chClosed e.closeWord)
        pure (retire s 4)
      else
        failIf (e.status = .closing) (.trap .chClosed (e.word 7 0))
        failIf (e.status = .bound) (proto e 4 0)
        failIf (!e.hasClose) (proto e 0 0)
        sendqRoom s (.chClose g a)
        let s := returnFrame s s.cur n
        let w := e.word 0 0
        let s := match e.peer with
          | some p => enqueue s false p.at_ (.chan p (s.epLoc s.cur n) none (.close w s.curTid)) 0 []
          | none => s
        pure (retire (s.onEp s.cur n fun e => { e with status := .closing, ownClose := true, closeWord := w }) 4)
    | none => throw (if e.status = .closed then .trap .chClosed e.closeWord else .trap .chClosed (e.word 7 0))

/-- The status value (R252). -/
def chStatValue (e : Endp) : W128 :=
  BitVec.ofNat 128 (e.status.code + e.state.toNat * 2 ^ 3 + e.lastType.toNat * 2 ^ 8 + bit e.inHand.isSome 14
    + e.buffered * 2 ^ 15 + e.permits * 2 ^ 19 + bit e.connRefused 23 + e.loop0.toNat * 2 ^ 24 + e.loop1.toNat * 2 ^ 41
    + (if e.status = .closed then e.closeWord.toNat else 0) * 2 ^ 64)

/-- CH.STAT (R252). -/
def execChStat (g : Guard) (d a : BitVec 5) (s : State) : Out :=
  guarded g 4 s fun s => do
    let v := s.curTask.reg a
    let n ← epStep2 s v
    let r := if epLive s v then chStatValue (s.ep s.cur n) else 0
    pure (s.onCur fun x => (x.setReg d ⟨r, .data⟩).advance 4)

/-- CH.SYNC (R253, R254). -/
def execChSync (g : Guard) (a : BitVec 5) (s : State) : Out :=
  guarded g 4 s fun s => do
    let n ← epConnected s (s.curTask.reg a) none
    let e := s.ep s.cur n
    if e.syncing then
      failIf (e.status ≠ .connected) (.wait (.chan n))
      pure (retire (s.onEp s.cur n fun e => { e with syncing := false }) 4)
    else
      let s := (returnFrame s s.cur n).onEp s.cur n fun e => { e with syncing := true }
      throw (.after (enterResync s s.cur n (e.rsSeq + 1)) (.wait (.chan n)))

/-- CH.FREE (R256). -/
def execChFree (g : Guard) (a : BitVec 5) (s : State) : Out :=
  guarded g 4 s fun s => do
    let n ← epStep3 s (s.curTask.reg a)
    let e := s.ep s.cur n
    match e.status with
    | .bound | .closed =>
      let t := s.curTid
      pure (retireOf (freeSlot s s.cur n) t 4)
    | .closing => throw (if e.forwarding then .trap .chClosed (e.word 7 0) else .wait (.chan n))
    | _ => throw (proto e 6 0)

/-! Bindings -/

/-- The ENTRY of a trigger or a task-creating message (R257, steps 1 and 2); `elsewhere`: it goes to another core. -/
def entryCheck (s : State) (v : GVal) (elsewhere : Bool) (i : Instr) : Eff Unit := do
  let w := v.bits.extractLsb' 0 64
  failIf (v.tag ≠ .entry) (.trap .capTag w)
  failIf (elsewhere && !isGlobal v) (.trap .capPerm w)
  failIf (entrySv v.bits && !s.curTask.sup.priv) (.trap .priv (headInfo i))

/-- A trigger of the executing task. -/
def newTrigger (s : State) (entry sel : GVal) (f : Nat) : Trigger :=
  { entry := entry, sel := sel, f := f, armed := true, job := s.curTask.job, asid := s.curTask.asid, by_ := s.curTid,
    id := s.me.nextOp }

def State.bumpOp (s : State) : State := s.onCore s.cur fun c => { c with nextOp := c.nextOp + 1 }

/-- BIND (R260, R261). DEDUCED: an ENDP selector meets steps 1 to 3 of R232, CAP_TAG, CAP_PERM and CH_CLOSED, a supervisor passing the owner
test, though R260 names no check for it (log entry 21). -/
def execBind (g : Guard) (d a b : BitVec 5) (s : State) : Out :=
  guarded g 4 s fun s => do
    let sel := s.curTask.reg a
    let w := sel.bits.extractLsb' 0 64
    let f := ((s.curTask.r64 d).setWidth 16).toNat
    let en := s.curTask.reg b
    let t := s.curTid
    match sel.tag with
    | .endp =>
      let n ← epStep3 s sel
      let e := s.ep s.cur n
      failIf (e.status ≠ .connected) (proto e 4 0)
      entryCheck s en false (.bind g d a b)
      let g := newTrigger s en sel (max 1 (min f e.image.la))
      pure (testEpTrigger ((retireOf s t 4).bumpOp.onEp s.cur n fun e => { e with trig := some g }) s.cur n)
    | .data =>
      let k ← barrierSlot s (w.setWidth 4)
      if w.getLsbD 10 then
        let n := (w.extractLsb' 4 6).toNat
        let e := s.ep s.cur n
        failIf (e.status = .free || e.owner ≠ some t) (.trap .capPerm w)
        failIf (e.status ≠ .connected) (proto e 4 0)
        pure (pump ((retireOf s t 4).onEp s.cur n fun e => { e with link := some k }) s.cur n)
      else
        entryCheck s en false (.bind g d a b)
        let f := if f = 0 then 1 else f
        let g := newTrigger s en sel f
        pure (testCounterTrigger ((retireOf s t 4).bumpOp.onCounter s.cur k fun c =>
          { c with fire := BitVec.ofNat 16 f, trig := some g }) s.cur k)
    | _ => throw (.trap .capTag w)

/-- UNBIND (R262): a selector with no binding does nothing. DESIGN CHOICE (log entry 21), where R262 names no check: an ENDP that is
malformed, stale, of another core or of a slot not held unbinds nothing, unless a supervisor task names a live slot of its core; a counter
slot number at or above the declared count, a link selector by a task, or a supervisor, that does not hold the endpoint slot, or a selector
with tag MEM or ENTRY, does nothing; none of them traps. -/
def unbindAt (s : State) (sel : GVal) : State :=
  let w := sel.bits.extractLsb' 0 64
  match sel.tag with
  | .endp =>
    let l := endpLoc sel.bits
    if l.at_ = s.here s.cur && epLive s sel && ((s.ep s.cur l.ep).owner = some s.curTid || s.curTask.sup.priv) then
      s.onEp s.cur l.ep fun e => { e with trig := none }
    else s
  | .data =>
    let n := (w.setWidth 4 : BitVec 4).toNat
    if s.curTask.barriers ≤ n then s
    else match physSlot s.me s.curTask.job n with
      | none => s
      | some k =>
        if w.getLsbD 10 then
          let m := (w.extractLsb' 4 6).toNat
          if (s.ep s.cur m).owner = some s.curTid && (s.ep s.cur m).link = some k then s.onEp s.cur m fun e => { e with link := none } else s
        else s.onCounter s.cur k fun c => { c with trig := none, fire := 0 }
  | _ => s

/-- UNBIND (R262). -/
def execUnbind (g : Guard) (a : BitVec 5) (s : State) : Out :=
  guarded g 4 s fun s => .ok (retire (unbindAt s (s.curTask.reg a)) 4)

end Sys2Proof.Machine
end

