-- ==== Sys2Proof/Machine/Mesh.lean ====
section
/-! DEFINITION. The request network (R388, R389, R391): the router buffers that a message passes, where each message stands, and what
holds it up. Choices where the spec gives none: log entry 21. -/

namespace Sys2Proof.Machine

/-- A message of the channel waits at ejection while its slot still waits for the answer to its own connect. -/
def early (s : State) (l : EpLoc) : Bool :=
  let e := s.ep l.at_.core l.ep
  slotLive s l && e.status = .bound && e.connTo.isSome

/-- Free run-queue entries of a core (R305, R306). -/
def freeRun (c : Core) : Nat := 64 - (c.runHigh.length + c.runBase.length)

/-- A core takes no task: its run queue is full (R311), or it is held in reset (R454). -/
def noRoom (s : State) (k : Nat) : Bool := freeRun (s.core k) = 0 || !s.coreUp k

/-- A request that cannot be admitted to its core (R311, R391). -/
def refused (s : State) (m : Msg) : Bool :=
  !m.reply && match m.body with
    | .task _ _ => !s.harvested m.dst.core && noRoom s m.dst.core
    | .chan d _ _ _ | .moved d _ => early s d
    | _ => false

/-- A place on a message's way: a cluster of the package and a buffer of its router. Ports 0 to 5 are the inputs from the own cores,
north, south, east, west and the die's fabric port; 6 + i is the ejection queue of core i (R388, R391, R392). -/
abbrev Hop := Nat × Nat

/-- Clusters d steps of n from a on, upward or downward. -/
def walkBy (a n : Nat) (up : Bool) (d port : Nat) : List Hop :=
  (List.range d).map fun i => (if up then a + n * (i + 1) else a - n * (i + 1), port)

/-- The input buffers on the way between two clusters of a die: the row first, then the column (R388). -/
def legs (a b : Nat) : List Hop :=
  let x := fun c => c % 80 % 8
  let y := fun c => c % 80 / 8
  let turn := a - x a + x b
  (if x a ≤ x b then walkBy a 1 true (x b - x a) 4 else walkBy a 1 false (x a - x b) 3)
    ++ (if y a ≤ y b then walkBy turn 8 true (y b - y a) 1 else walkBy turn 8 false (y a - y b) 2)

/-- The router with the fabric port of a cluster's die (R392). -/
def gateOf (c : Nat) : Nat := 80 * dieOfCluster c + 36

/-- The buffers that a message passes on this chip, in order. -/
def pathOf (s : State) (m : Msg) : List Hop :=
  let a := clusterOf m.src.core
  let b := clusterOf m.dst.core
  let eject := [(b, 6 + m.dst.core % 4)]
  if m.src.chip ≠ s.chip then (gateOf b, 5) :: legs (gateOf b) b ++ eject
  else if m.dst.chip ≠ s.chip then (a, 0) :: legs a (gateOf a)
  else if dieOfCluster a = dieOfCluster b then (a, 0) :: legs a b ++ eject
  else (a, 0) :: legs a (gateOf a) ++ (gateOf b, 5) :: legs (gateOf b) b ++ eject

/-- Flits of a message in a buffer, and whether the message is stuck. -/
structure Standing where
  hop : Hop
  flits : Nat
  stuck : Bool
  deriving DecidableEq, Repr

/-- A buffer holds flits of a message that is stuck. -/
def blockedAt (l : List Standing) (h : Hop) : Bool := l.any fun x => x.hop = h && x.stuck

/-- Flits that a buffer of 8 has room for (R389, R391). -/
def roomAt (l : List Standing) (h : Hop) : Nat := 8 - ((l.filter fun x => x.hop = h).map fun x => x.flits).sum

/-- How far the first flit of a message gets on credits behind those that stand: the buffers it has entered, the last one first, whether it
stands behind a stuck message, which it never passes in a buffer, and what it has still to enter. -/
def advanceFrom (l : List Standing) : List Hop → List Hop → List Hop × Bool × List Hop
  | h, [] => (h, behind h, [])
  | h, c :: cs =>
    if behind h then (h, true, c :: cs)
    else if 0 < roomAt l c then advanceFrom l (c :: h) cs
    else (h, blockedAt l c, c :: cs)
where
  behind (h : List Hop) : Bool := match h with | x :: _ => blockedAt l x | [] => false

/-- The flits of a message fill the buffers behind its first one; what finds no room waits at its source. -/
def fillFrom (l : List Standing) : Nat → List Hop → List (Hop × Nat)
  | _, [] => []
  | 0, _ => []
  | f, h :: hs => let n := min f (roomAt l h); (h, n) :: fillFrom l (f - n) hs

/-- Where a message stands behind others: what each buffer holds of it, whether it stands behind a stuck one, and what its first flit has
still to enter. -/
def standsAt (s : State) (l : List Standing) (m : Msg) : List (Hop × Nat) × Bool × List Hop :=
  let p := advanceFrom l [] (pathOf s m)
  (fillFrom l (flits m.body) p.1, p.2)

/-- Where the requests of a list stand, in the order in which they left. -/
def standing (s : State) (ms : List Msg) : List Standing :=
  ms.foldl (fun l m =>
    if m.reply || m.dst.chip ≠ s.chip then l
    else
      let p := standsAt s l m
      l ++ p.1.map fun x => ⟨x.1, x.2, p.2.1 || refused s m⟩) []

/-- A request waits behind one that its core refuses (R391): in its core's ejection queue, or in an input buffer on its way. -/
def heldUp (s : State) (k : Nat) (m : Msg) : Bool := !m.reply && (standsAt s (standing s (s.net.take k)) m).2.1

/-- A router accepts a request of one of its cores (R236, R389): the buffers take it to its last flit. One for another chip leaves the chip
with that, and so waits until its way to the port is free. -/
def routerRoom (s : State) (m : Msg) : Bool :=
  m.reply ||
    let p := standsAt s (standing s s.net) m
    decide ((p.1.map fun x => x.2).sum = flits m.body) && (m.dst.chip = s.chip || (!p.2.1 && p.2.2.isEmpty))

end Sys2Proof.Machine
end

