-- ==== Sys2Proof/Machine/ChanEvents.lean ====
section
/-! DEFINITION. What the fabric and the other end do to a channel: injection, arrivals, answers, returns, resync words,
closes, handover (R231, R238, R240, R244, R251, R255, R390, R399 to R401). An event that is not enabled changes nothing. -/

namespace Sys2Proof.Machine

/-- The endpoint slot that a body names. -/
def bodySlot : Body → Option EpLoc
  | .chan d _ _ _ | .connect d _ _ | .connAns d _ | .slotReturn d _ | .resync d _ | .closeAck d | .failure d _ _
  | .moved d _ | .mark d _ | .successor d _ => some d
  | _ => none

/-- The slot at which a message of a channel arrives from the other end itself, and not from a slot that sends on (R251). -/
def directTo : Body → Option EpLoc
  | .chan d _ none _ | .moved d _ => some d
  | .mark d new => if new = d then none else some d
  | _ => none

/-- Two messages that keep their order: one source, destination, network and channel (R378), or one direction of a channel,
whichever slot of a delegation sent them (R245, R250). -/
def sameWay (a b : Msg) : Bool :=
  (a.src = b.src && a.dst = b.dst && a.reply = b.reply
    && (bodySlot a.body).map (fun l => l.ep) = (bodySlot b.body).map (fun l => l.ep))
  || ((directTo a.body).isSome && directTo a.body = directTo b.body)

/-- Message k of the network when it may arrive at this chip: its die answers (R454) or is disabled (R238), no earlier message of its way is still on it
(R378), and nothing refused holds it up (R391). -/
def arrivable (s : State) (k : Nat) : Option Msg :=
  match s.net[k]? with
  | some m => if m.dst.chip = s.chip && (s.dieUp (dieOf m.dst.core) || !s.dieEnabled (dieOf m.dst.core)) && !((s.net.take k).any (sameWay m)) && !heldUp s k m then some m else none
  | none => none

def unnet (s : State) (k : Nat) : State := { s with net := s.net.eraseIdx k }

/-- A re-injected message found a generation that does not match: the replay has diverged (R450). -/
def diverge (s : State) (m : Msg) : State :=
  if s.fabric.alogCtl.getLsbD 3 && m.src.chip ≠ s.chip then { s with fabric := { s.fabric with diverged := true } } else s

/-- A message for a slot that is no longer live is discarded (R235, R248, R450). -/
def stale (s : State) (m : Msg) : State := loseRecords (diverge s m) (delegated (chanBodies [m.body]))

/-- The arrival of a message that a predicate selects, at its live slot; a stale one is discarded. -/
def arrive1 (s : State) (k : Nat) (sel : Body → Bool) (f : State → Msg → Nat → Nat → State) : Out :=
  match arrivable s k with
  | some m =>
    match bodySlot m.body with
    | some l =>
      if sel m.body && !early s l then
        let s := unnet s k
        .next (if slotLive s l then f s m l.at_.core l.ep else stale s m)
      else .next s
    | none => .next s
  | none => .next s

/-- A message of the channel goes into its slot, on to the new slot, or is discarded (R231, R251, R255). -/
def chanArrival (s : State) (m : Msg) (k n : Nat) : State :=
  match m.body with
  | .chan _ _ via b =>
    let e := s.ep k n
    let direct := via ≠ e.oldSlot || via = none
    if e.forwarding then forwardArrival s k n m.body direct
    else if e.status.live then placeMsg s k n b (e.oldSlot.isSome && direct)
    else loseRecords s (delegated [b])
  | _ => s

def isFlowBody : Body → Bool | .chan _ _ _ b => isFlow b | _ => false
def isCloseBody : Body → Bool | .chan _ _ _ b => !isFlow b | _ => false

/-- CHANNEL_MESSAGE_ARRIVAL (R231, R251, R260, R261, R399). -/
def execChannelMessageArrival (k : Nat) (s : State) : Out := arrive1 s k isFlowBody chanArrival

/-- An orderly CLOSING slot becomes CLOSED; delegation records still buffered are lost (R222, R235). -/
def closingEnds (s : State) (k n : Nat) : State :=
  let e := s.ep k n
  if e.status = .closing && !e.forwarding then
    loseRecords (wakeEp (s.onEp k n fun e => { e with status := .closed, buf := [], retDue := [] }) k n)
      (delegated (e.buf.map fun b => b.body))
  else wakeEp s k n

/-- CLOSE_MESSAGE_ARRIVAL (R255): the peer's own close also ends an orderly CLOSING (R222). -/
def execCloseMessageArrival (k : Nat) (s : State) : Out :=
  arrive1 s k isCloseBody fun s m k n =>
    let e := s.ep k n
    if e.status = .closing && !e.forwarding then closingEnds s k n else chanArrival s m k n

/-- CLOSE_ACK_ARRIVAL (R222, R255). -/
def execCloseAckArrival (k : Nat) (s : State) : Out :=
  arrive1 s k (fun b => match b with | .closeAck _ => true | _ => false) fun s _ k n => closingEnds s k n

/-- FAILURE_NOTIFICATION (R235, R406). -/
def execFailureNotification (k : Nat) (s : State) : Out :=
  arrive1 s k (fun b => match b with | .failure _ _ _ => true | _ => false) fun s m k n =>
    let e := s.ep k n
    match m.body with
    | .failure _ w g =>
      if e.forwarding then forwardArrival s k n m.body true
      else if e.status.live then closeNow (peerRecord s k n w g) k n w g
      else if e.status = .closing then closeNow s k n w g
      else s
    | _ => s

/-- The answer of a slot to a connect message (R238), and the slot's new state. -/
def connectAt (s : State) (k n : Nat) (dst src : EpLoc) (img : Image) : State × ConnAns :=
  let e := s.ep k n
  if s.harvested k || !slotLive s dst then (s, .closed)
  else if src.at_ = dst.at_ && src.ep = dst.ep then (s, .mismatch 2 0)
  else if e.status = .bound || (e.status.live && e.peer = some src) then
    match dual img e.image with
    | some (st, r) =>
      (s.onEp k n fun e => { e with connRefused := e.connRefused || e.status = .bound }, .mismatch (BitVec.ofNat 3 r) (BitVec.ofNat 5 st))
    | none =>
      if e.status = .bound then
        (s.onEp k n fun e => { e with status := .connected, peer := some src, peerL := img.la }, .ok e.image.la)
      else (s, .ok e.image.la)
  else (s, .mismatch 2 0)

/-- CONNECT_ARRIVAL (R238). -/
def execConnectArrival (k : Nat) (s : State) : Out :=
  match arrivable s k with
  | some m =>
    match m.body with
    | .connect dst src img =>
      let (s, r) := connectAt (unnet s k) dst.at_.core dst.ep dst src img
      .next (s.emit dst.at_.core true src.at_ (.connAns src r))
    | _ => .next s
  | none => .next s

/-- What an answer does at the connecting slot (R238). DESIGN CHOICE: where the slot has accepted another end's connect meanwhile, the answer
changes no peer, and an ok lets its CH.CONN retire (log entry 21). -/
def answerAt (s : State) (k n : Nat) (r : ConnAns) : State :=
  wakeEp (s.onEp k n fun e =>
    match e.connTo, r with
    | some p, .ok l =>
      if e.status = .bound then { e with status := .connected, peer := some p, peerL := l, answer := some r } else { e with answer := some r }
    | some _, _ => { e with answer := some r }
    | none, _ => e) k n

/-- CONNECT_ANSWER (R238). -/
def execConnectAnswer (k : Nat) (s : State) : Out :=
  match arrivable s k with
  | some m =>
    match m.body with
    | .connAns dst r =>
      let s := unnet s k
      .next (if slotLive s dst then answerAt s dst.at_.core dst.ep r else diverge s m)
    | _ => .next s
  | none => .next s

/-- What a slot return does at the sending end (R399). -/
def returnAt (s : State) (k n : Nat) (w : W64) : State :=
  let e := s.ep k n
  let ret : W32 := w.setWidth 32
  match e.peer with
  | none => s
  | some _ =>
    if !returnIntact w then enterResync s k n (e.rsSeq + 1)
    else if returnForeign e w then s
    else if (ret - e.sent).toNat ≠ 0 && decide ((ret - e.sent).toNat < 2 ^ 31) then enterResync s k n (e.rsSeq + 1)
    else if 2 ^ 31 ≤ (ret - e.returned).toNat then s
    else wakeEp (s.onEp k n fun e => { e with returned := ret }) k n

/-- SLOT_RETURN (R239, R251, R399). -/
def execSlotReturn (k : Nat) (s : State) : Out :=
  arrive1 s k (fun b => match b with | .slotReturn _ _ => true | _ => false) fun s m k n =>
    let e := s.ep k n
    match m.body with
    | .slotReturn _ w =>
      if e.forwarding then forwardArrival s k n m.body true
      else if e.status.live then returnAt (if returnForeign e w then diverge s m else s) k n w
      else s
    | _ => s

/-- A peer's resync word at a live slot (R254, R400, R401). -/
def resyncAt (s : State) (k n : Nat) (w : W128) : State :=
  let e := s.ep k n
  if crc32c (leBytes 12 w.toNat) ≠ w.extractLsb' 96 32 then
    let s := enterResync s k n (e.rsSeq + 1)
    if 4 ≤ (s.ep k n).rsFails + 1 then failClose s k n 3 0 (e.owner.getD 0)
    else sendResync (s.onEp k n fun e => { e with rsFails := e.rsFails + 1, rsSeq := e.rsSeq + 1 }) k n
  else
    let seq : BitVec 2 := w.extractLsb' 72 2
    let s := if e.status = .connected then enterResync s k n seq
      else if seq ≠ e.rsSeq then sendResync (s.onEp k n fun e => { e with rsSeq := seq }) k n
      else s
    balance (s.onEp k n fun e => { e with
      rsFails := 0, rsSince := s.timebase,
      rsPeer := some ⟨w.extractLsb' 0 32, w.extractLsb' 32 32, w.extractLsb' 68 4⟩ }) k n

/-- RESYNC_WORD (R254, R401). -/
def execResyncWord (k : Nat) (s : State) : Out :=
  arrive1 s k (fun b => match b with | .resync _ _ => true | _ => false) fun s m k n =>
    let e := s.ep k n
    match m.body with
    | .resync _ w =>
      if e.forwarding then forwardArrival s k n m.body true
      else if e.status.live then resyncAt s k n w
      else s
    | _ => s

/-- RESYNC_TIMEOUT (R401): 65,536 cc without a peer word, or without the balance. -/
def execResyncTimeout (core ep : Nat) (s : State) : Out :=
  let e := s.ep core ep
  .next (if e.status = .resync && 65536 ≤ (s.timebase - e.rsSince).toNat then failClose s core ep 3 0 (e.owner.getD 0) else s)

/-- Entries of a send queue that still go to the old peer of a slot go to the new one (R251). -/
def redirect (l : List SendEntry) (me old new : EpLoc) : List SendEntry :=
  l.map fun x =>
    match x.msg.body with
    | .chan d src v b => if d = old && src = me then { x with msg := { x.msg with dst := new.at_, body := .chan new src v b } } else x
    | _ => x

/-- MOVED at the peer: it redirects, and sends a mark to the old slot behind everything it sent there (R251). -/
def movedAt (s : State) (k n : Nat) (new : EpLoc) : State :=
  let e := s.ep k n
  match e.peer with
  | some old =>
    let s := s.onCore k fun c => { c with sendq := redirect c.sendq (s.epLoc k n) old new }
    balance ((s.onEp k n fun e => { e with peer := some new, former := old.gen :: e.former }).emit k false old.at_ (.mark old new)) k n
  | none => s

/-- MOVED_ARRIVAL (R250, R251): a delegated slot sends it on. The model's notice to a delegated slot arrives here too (log entry
21). -/
def execMovedArrival (k : Nat) (s : State) : Out :=
  arrive1 s k (fun b => match b with | .moved _ _ | .successor _ _ => true | _ => false) fun s m k n =>
    let e := s.ep k n
    match m.body with
    | .moved _ new => if e.forwarding then forwardArrival s k n m.body false else movedAt s k n new
    | .successor _ new => if e.forwarding then flushForward (s.onEp k n fun e => { e with fwdTo := some new }) k n else s
    | _ => s

/-- The slot's own mark has arrived, forwarded by the slot it replaced. -/
def isOwnMark (s : State) (k n : Nat) (b : Body) : Bool := markNames b = some (s.epLoc k n)

/-- MARK_ARRIVAL_OLD (R251): the old slot forwards the mark and becomes FREE. -/
def execMarkArrivalOld (k : Nat) (s : State) : Out :=
  match arrivable s k with
  | some m =>
    match m.body with
    | .mark d new =>
      if new = d then .next s
      else
        let s := unnet s k
        let e := s.ep d.at_.core d.ep
        .next (if slotLive s d && e.forwarding then forwardArrival s d.at_.core d.ep m.body true else stale s m)
    | _ => .next s
  | none => .next s

/-- MARK_ARRIVAL_NEW (R251): held messages become consumable. -/
def execMarkArrivalNew (k : Nat) (s : State) : Out :=
  match arrivable s k with
  | some m =>
    match m.body with
    | .mark d new =>
      if new = d then
        let s := unnet s k
        .next (if slotLive s d then ownMark s d.at_.core d.ep else stale s m)
      else .next s
    | _ => .next s
  | none => .next s

/-- REPLY_SINK_RELEASE (R390): an entry frees. -/
def execReplySinkRelease (k : Nat) (s : State) : Out :=
  match arrivable s k with
  | some m =>
    match m.body with
    | .sinkRelease =>
      let s := unnet s k
      .next (wakeWhere (s.onCore m.dst.core fun c => { c with sink := c.sink.erase m.src }) m.dst.core fun w => w = .sink)
    | _ => .next s
  | none => .next s

/-- The head of a send queue with its payload read (R240). -/
def withPayload (b : Body) (p : List Byte) : Body :=
  match b with
  | .chan d src v (.data t sh w c _) => .chan d src v (.data t sh w c p)
  | b => b

/-- Site 1 of R430 at a BAR.SYNC whose arrival stood behind its sends: performed now, it would complete its slot and wake its core, pinned
and UNHELD, beyond the rise capacity. -/
def syncExcess (s : State) (k : Nat) (t : BitVec 48) (p : Nat) : Bool :=
  let x := s.task t
  let c := (s.core k).counter p
  x.wait = some (.arrival p) && x.barSync.contains (x.pc, x.trapLevel) && !x.rvSkips && c.target ≠ 0 && c.count + 1 = c.target
    && (s.core k).gov.kind = .unheld && s.pinnedCore k && decide (s.gov.rcap ≤ s.gov.rise)

/-- That BAR.SYNC traps before its update (R430). -/
def syncViolation (s : State) (t : BitVec 48) (p : Nat) : State :=
  wake (raise (s.onTask t fun x => { x with barSync := x.barSync.filter (· ≠ (x.pc, x.trapLevel)) }) t .rampViolation (rampInfo 1 p 1) false) t

/-- SEND_QUEUE_INJECT (R236, R240): once the router has room, the payload is read, its range is released, the message leaves. DESIGN
CHOICE: a source that cannot be read closes the sending channel with reason 2, as it closes that of a frame in hand that it lies in (R356; log
entry 21); a delegation record for a chip that
no port reaches is discarded (R235). An arrival that stood behind its task's sends is performed (R171). -/
def execSendQueueInject (core : Nat) (s : State) : Out :=
  match (s.core core).sendq with
  | [] => .next s
  | x :: xs =>
    match x.arrive with
    | some (n, p) =>
      let s1 := s.onCore core fun c => { c with sendq := xs }
      .next (if syncExcess s core x.task p then syncViolation s1 x.task p
        else wakeWhere (arrive s1 x.task n p) core fun w => w = .arrival p)
    | none =>
    if !routerRoom s { x.msg with body := withPayload x.msg.body (pieceBytes s x.src) } then .next s
    else
    let bad := piecesBad s x.src
    let s1 := s.onCore core fun c =>
      { c with sendq := xs, locks := if x.src = [] then c.locks else c.locks.filter fun l => !(l.op = x.op && l.task = x.task && l.matrix) }
    let s1 := if x.src = [] then s1 else wakeLocks s1
    if bad then
      let s1 := closePieces s1 core x.task x.src
      .next (match x.msg.body with
        | .chan _ src _ _ => if slotLive s1 src then failClose s1 core src.ep 2 0 x.task else s1
        | _ => s1)
    else
      let m := { x.msg with body := withPayload x.msg.body (pieceBytes s x.src) }
      let s1 := s1.charge core (x.src.map fun p => moveEnergy p.1 p.2).sum
      let s1 := s1.route m
      let s1 := if noWay s1 m.dst.chip then loseRecords s1 (delegated (chanBodies [m.body])) else s1
      .next (s1.onTask x.task fun t =>
        if t.status = .ended then t else { t with unacked := t.unacked ++ [⟨if m.dst.chip = s.chip then 4 else 5⟩] })

/-- SLOT_RETURN_SEND (R244): the first returned frame that nothing reads any more. The slots of a task pre-empted in place
return nothing (R268). -/
def execSlotReturnSend (core ep : Nat) (s : State) : Out :=
  if holderAway s (s.ep core ep) then .next s
  else match (s.ep core ep).retDue.find? (frameIdle s core ep) with
  | some f =>
    let s := sendReturn s core ep f
    .next (if (s.ep core ep).forwarding then flushForward s core ep else s)
  | none => .next s

end Sys2Proof.Machine
end

