-- ==== Sys2Proof/Machine/PodLog.lean ====
section
/-! DEFINITION. The arrival log of the pod ports (R419, R420). -/

namespace Sys2Proof.Machine

/-- What the log keeps of an arrival (R420): source chip, network, destination core, header word and payload. -/
structure PodEntry where
  chip : Byte
  reply : Bool
  core : Nat
  header : W64
  payload : List Byte
  deriving DecidableEq, Repr

/-- The entry of a message. -/
def podEntry (m : Msg) : PodEntry := ⟨m.src.chip, m.reply, m.dst.core, m.header, wirePayload m.body⟩

/-- The bytes of a record (R420): 32 header bytes, the payload, padding to 32 bytes. -/
def alogRecord (s : State) (fibre : Nat) (m : PodEntry) : List Byte :=
  let k := m.core
  let w1 := m.chip.toNat + fibre * 2 ^ 8 + bit m.reply 12 + dieOf k * 2 ^ 13 + k % 320 / 4 * 2 ^ 16 + k % 4 * 2 ^ 23
    + m.payload.length * 2 ^ 32
  let bs := leBytes 8 s.timebase.toNat ++ leBytes 8 w1 ++ leBytes 8 m.header.toNat ++ leBytes 8 s.fabric.records.toNat ++ m.payload
  bs ++ leBytes (ceilDiv bs.length 32 * 32 - bs.length) 0

/-- Logs an arrival (R419, R420): a record never splits across the end of the ring; without wrap, logging stops once it is full. -/
def alogPut (s : State) (fibre : Nat) (m : PodEntry) (l : Logged) : State :=
  let f := s.fabric
  if !f.alogCtl.getLsbD 0 || (!f.alogCtl.getLsbD 1 && f.alogCtl.getLsbD 2) then s
  else
    let bs := alogRecord s fibre m
    let n := bs.length
    let len := f.alogLen.toNat
    let room := len - f.alogWr.toNat % len
    let wr := if room < n then f.alogWr.toNat + room else f.alogWr.toNat
    let a := f.alogBase.toNat + wr % len
    if len < n || (!f.alogCtl.getLsbD 1 && len < wr + n) || !s.backed a n then
      { s with fabric := { f with alogCtl := f.alogCtl ||| 4 } }
    else
      let s := s.write a bs
      { s with fabric := { s.fabric with
        alogWr := BitVec.ofNat 64 (wr + n), records := f.records + 1, logged := (bs, l) :: f.logged } }

end Sys2Proof.Machine
end

