-- ==== Sys2Proof/Machine/TaskLife.lean ====
section
/-! DEFINITION. The life of a task on a core: its header (R42 to R45, R497), admission (R305 to R307, R33, R169, R425), its
values at creation (R50), what END waits for and returns (R143). -/

namespace Sys2Proof.Machine

/-! Headers -/

/-- Magic of a kernel header (R42). -/
def headerMagic : Nat := 0x00034B48

/-- KHDR of 64 header bytes, when they are valid for an entry's level (R42, R43, R45). -/
def khdrOf (b : Nat → Nat → Nat) (hl : Bool) : Option W64 :=
  let res := b 4 4
  let spad := b 8 4
  let np := b 12 2
  let acc := bits res 9 7
  let bars := bits res 14 10
  let eps := bits res 21 15
  if b 0 4 ≠ headerMagic || 16 < bits res 6 2 || 4 < acc || 16 < bars || 64 < eps || 2 ^ 22 ≤ res || 507904 < spad
      || spad % 64 ≠ 0 || 15 < np || b 14 2 ≠ 0 || b 0x18 40 ≠ 0
      || (hl && (acc ≠ 0 || bars ≠ 0 || eps ≠ 0 || 8192 < spad)) then none
  else some (BitVec.ofNat 64 (res + spad * 2 ^ 32 + np * 2 ^ 52))

/-- Physical address of a 64-byte header, read at supervisor level by an agent of a cluster for a core (R42, R296). -/
def headerPa (s : State) (k : Nat) (asid : W16) (va : W64) : Option Nat :=
  let a := va.toNat
  let pa :=
    if a < 0x1000000 then (if a < 0x80000 then some (spadPa k + a) else none)
    else if 2 ^ 52 ≤ a then none
    else match (s.translate ⟨none, some (clusterOf k), dieOf k⟩ asid a .load true).2.2 with
      | .ok pa _ => some pa
      | _ => none
  match pa with
  | some p => if s.backed p 64 && (s.firstBad p 64).isNone then some p else none
  | none => none

/-- KHDR of the kernel that an ENTRY names, or none when it is invalid or cannot be read (R45; log entry 22). -/
def headerOf (s : State) (k : Nat) (asid : W16) (entry : W128) : Option W64 :=
  let at_ := cursor entry - 64
  if at_.toNat % 64 ≠ 0 then none
  else match headerPa s k asid at_ with
    | some pa => khdrOf (fun o n => s.readNat (pa + o) n) (entryHl entry)
    | none => none

/-! Resources -/

/-- Admitted base-level tasks of a core. -/
def State.baseTasks (s : State) (k : Nat) : List Task := (s.tasksOn k).filter fun t => !t.high && t.status ≠ .ended
/-- Admitted high-level tasks of a core. -/
def State.highTasks (s : State) (k : Nat) : List Task := (s.tasksOn k).filter fun t => t.high && t.status ≠ .ended

/-- Free physical tiles of a core (R27). -/
def freeTiles (s : State) (k : Nat) : List Nat :=
  let used := (s.baseTasks k).flatMap fun t => t.tiles
  (List.range 4).filter fun i => !used.contains i

/-- Free physical counter slots (R28). -/
def freeCounters (s : State) (k : Nat) : List Nat :=
  let used := (s.core k).groups.flatMap fun g => g.slots
  (List.range 16).filter fun i => !used.contains i

/-- Endpoint slots not reserved and not held without a task of the core (R30, R306). -/
def freeEndpoints (s : State) (k : Nat) : Nat :=
  let ts := s.baseTasks k
  let other := (s.core k).eps.filter fun p => p.2.status ≠ .free && !(ts.any fun t => p.2.owner = some t.gtid)
  64 - ((ts.map fun t => t.endpoints).sum + other.length)

/-- Scratchpad extents in use: the regions of base-level tasks, and buffers of slots that no task holds (R307; log entry
22). -/
def usedSpad (s : State) (k : Nat) : List (Nat × Nat) :=
  let ts := s.baseTasks k
  ts.map (fun t => (t.spadBase, t.spadSize))
    ++ ((s.core k).eps.filter fun p => p.2.status ≠ .free && !(ts.any fun t => p.2.owner = some t.gtid)).map
        fun p => (p.2.bufBase.toNat, p.2.bufSize.toNat)

def spadFits (used : List (Nat × Nat)) (o n : Nat) : Bool :=
  decide (o + n ≤ 507904) && !(used.any fun u => overlap o (o + n) u.1 (u.1 + u.2))

/-- The lowest 64-byte aligned offset where n bytes are free (R307). -/
def lowestSpad (used : List (Nat × Nat)) (n : Nat) : Option Nat :=
  ((0 :: used.map fun u => ceilDiv (u.1 + u.2) 64 * 64).filter fun o => spadFits used o n).min?

/-- The largest free extent (R305). -/
def largestFree (used : List (Nat × Nat)) : Nat :=
  let starts := 0 :: used.map fun u => ceilDiv (u.1 + u.2) 64 * 64
  (starts.map fun o => ((507904 :: (used.filter fun u => o ≤ u.1 && u.2 ≠ 0).map fun u => u.1).min?.getD 507904) - o).foldl max 0

/-- What a base-level task takes at admission: tiles, region offset, and counter slots when it is the first of its group. -/
structure Grant where
  tiles : List Nat
  spad : Nat
  slots : Option (List Nat)
  deriving DecidableEq, Repr

/-- Counter slots that the first task of a core group reserves: those of its header, or all of a saved group that returns with it (R28,
R169, R317). -/
def groupCount (s : State) (k : Nat) (job : W32) (own : Nat) : Nat :=
  let n := ((s.job job).groups.filter fun p => p.1 = k).length
  if n = 0 then own else n

/-- The resources of a base-level head, when all are free (R33, R306); a resumed task names its offset (R307). -/
def grantFor (s : State) (k : Nat) (job : W32) (khdr : W64) (at_ : Option Nat) : Option Grant :=
  let x := { Task.none with khdr := khdr }
  let n := (khdr.extractLsb' 32 20).toNat
  let ts := s.baseTasks k
  let tiles := freeTiles s k
  let cs := freeCounters s k
  let first := ((s.core k).group job).isNone
  let slots := groupCount s k job x.barriers
  let place := match at_ with
    | some o => if spadFits (usedSpad s k) o n then some o else none
    | none => lowestSpad (usedSpad s k) n
  match place with
  | none => none
  | some o =>
    if ts.length < 8 && (ts.map fun t => t.gregs).sum + x.gregs ≤ 128 && (ts.map fun t => t.vregs).sum + x.vregs ≤ 64
        && x.accs ≤ tiles.length && x.endpoints ≤ freeEndpoints s k && (!first || slots ≤ cs.length) then
      some ⟨tiles.take x.accs, o, if first then some (cs.take slots) else none⟩
    else none

/-- The half of the handler area a new high-level task uses (R33): the lower one unless it is taken. -/
def highHalf (s : State) (k : Nat) : Nat := if (s.highTasks k).any fun t => t.spadBase = 507904 then 516096 else 507904

/-! Creation -/

/-- The reserved counter slots of a new core group (R169). -/
def initSlots (c : Core) (l : List Nat) (target : Nat) : Core :=
  l.foldl (fun c i => { c with counters := sset Counter.zero c.counters i { Counter.zero with target := BitVec.ofNat 32 target } }) c

/-- A core takes a grant for a job: its new group (R28, R169), and cleared tiles (R27). -/
def takeGrant (s : State) (k : Nat) (job : W32) (r : Grant) (target : Nat) : State :=
  let s := s.onCore k fun c => r.tiles.foldl (fun c i => putTile c i []) c
  match r.slots with
  | some l => s.onCore k fun c => { initSlots c l target with groups := c.groups ++ [⟨job, l⟩] }
  | none => s

/-- The permissions of g1 at creation (R50). -/
def g1Perm : Byte := permLd ||| permSt ||| permLdcap ||| permStcap ||| permAtom

/-- The g registers of a new task (R50). -/
def startRegs (base size : Nat) (args : List GVal) : Sparse GVal :=
  (args.take 6).zipIdx.foldl (fun m (v, i) => sset .zero m (2 + i) v) (sset .zero [] 1 (exactCap g1Perm base size (BitVec.ofNat 64 base)))

/-- A task as its descriptor creates it (R50, R31, R23). -/
def newTask (s : State) (k : Nat) (d : TaskDesc) (khdr : W64) (tiles : List Nat) (base size : Nat) : Task :=
  let c := s.core k
  { Task.none with
    status := .waitMsg, gtid := mkGtid s.chip k c.serial, job := d.job, asid := d.asid, khdr := khdr, core := k,
    high := entryHl d.entry.bits, pcc := ⟨permEx ++ d.entry.bits.extractLsb' 0 120, .mem⟩,
    g := startRegs base size d.args, tiles := tiles,
    sup := { Task.none.sup with priv := entrySv d.entry.bits },
    pinned := d.pinned, launchPinned := d.pinned, spadBase := base, spadSize := size, parkedAt := s.timebase, binder := d.binder,
    replyTo := if d.am then some d.src else none }

/-- Stores a new task: its region is cleared, the serial counter advances, it becomes ready; one whose header is invalid traps
before its first instruction (R45, R50, R307). DEDUCED: the information word of that ILLEGAL_INSTR is the header's address, as R45 gives
it, though R88 and R269 name R89's instruction word for the cause (log entry 22). -/
def startTask (s : State) (x : Task) (invalid : Option W64) : State :=
  let s := clearRange s (spadPa x.core + x.spadBase) x.spadSize
  let s := s.onCore x.core fun c => { c with serial := c.serial + 1 }
  let s := s.setTask x.gtid x
  let s := match invalid with
    | some a => raise s x.gtid .illegalInstr a false
    | none => s
  makeReady s x.gtid

/-- Removes the base-level head of a run queue. -/
def popBase (s : State) (k : Nat) : State := s.onCore k fun c => { c with runBase := c.runBase.drop 1 }

/-- The start of a task admitted to a core (R425, R426, R430): only a job's first task on an UNHELD core takes a ticket, and a
launch's was taken by the spire; a head that its ticket holds stays QUEUED. -/
def admitStart (s : State) (k : Nat) (job : W32) (pinned : Bool) : State × Bool :=
  let c := s.core k
  let first := !((s.baseTasks k).any fun t => t.job = job)
  let (s, go) :=
    if c.gov.kind = .unheld && !first && c.gov.start.isNone then (setGovKind s k .active, true)
    else govStart s k (pinned || s.pinnedCore k)
  (if go then s else noteHeld s k job, go)

/-- The counters of a saved core group return with its first task (R169, R317). -/
def restoreGroup (s : State) (k : Nat) (job : W32) : State :=
  let j := s.job job
  match (s.core k).group job with
  | some g =>
    let mine := j.groups.filter fun p => p.1 = k
    (mine.foldl (fun s p => match g.slots[p.2.1]? with | some i => s.onCounter k i fun _ => p.2.2 | none => s) s).onJob job
      fun j => { j with groups := j.groups.filter fun p => p.1 ≠ k }
  | none => s

/-- Admission of a base-level descriptor at the head (R306). -/
def admitDesc (s : State) (k : Nat) (d : TaskDesc) : State :=
  let h := headerOf s k d.asid d.entry.bits
  let khdr := h.getD 0
  match grantFor s k d.job khdr none with
  | none => s
  | some r =>
    let (s', go) := admitStart s k d.job d.pinned
    if !go then s'
    else
      let n := (khdr.extractLsb' 32 20).toNat
      let s := takeGrant (popBase s' k) k d.job r (if d.launched then d.onCore else 0)
      let s := if r.slots.isSome then restoreGroup s k d.job else s
      let s := startTask s (newTask s k d khdr r.tiles r.spad n) (if h.isNone then some (cursor d.entry.bits - 64) else none)
      releaseHeld s k

/-- Admission of a high-level head: it needs only a free high-level context (R33, R306). -/
def admitHigh (s : State) (k : Nat) (d : TaskDesc) (rest : List RunEntry) : State :=
  if 2 ≤ (s.highTasks k).length then s
  else
    let h := headerOf s k d.asid d.entry.bits
    let khdr := h.getD 0
    let base := highHalf s k
    let s := s.onCore k fun c => { c with runHigh := rest }
    startTask s (newTask s k d khdr [] base (khdr.extractLsb' 32 20).toNat) (if h.isNone then some (cursor d.entry.bits - 64) else none)

/-- A descriptor enters its core's run queue (R306); the first task of its job there may wait for the core's ticket (R426). -/
def queueDesc (s : State) (k : Nat) (d : TaskDesc) : State :=
  if entryHl d.entry.bits then s.onCore k fun c => { c with runHigh := c.runHigh ++ [.desc d] }
  else
    let s := if (s.baseTasks k).any fun t => t.job = d.job then s else noteHeld s k d.job
    s.onCore k fun c => { c with runBase := c.runBase ++ [.desc d] }

/-- The sink entries of dropped requests free (R390). -/
def dropDesc (s : State) (k : Nat) (d : TaskDesc) : State := if d.am then s.emit k true d.src .sinkRelease else s

/-- The reply to an AM frees the entry that the request reserved (R390). -/
def freeSink (s : State) (k : Nat) (src : Place) : State :=
  wakeWhere (s.onCore k fun c => { c with sink := c.sink.erase src }) k fun w => w = .sink

/-- TASK_MESSAGE_ARRIVAL (R259, R306, R311, R390): a request waits outside a full run queue, a reply never does; a core held in reset
takes none (R454), and the tasks of a job that is being killed are dropped (R318). DESIGN CHOICE: one that another chip sends to a harvested
core or a disabled die is discarded (log entry 25). -/
def execTaskMessageArrival (k : Nat) (s : State) : Out :=
  match arrivable s k with
  | some m =>
    match m.body with
    | .task d _ =>
      if s.harvested m.dst.core then .next (unnet s k)
      else if !s.coreUp m.dst.core || (!m.reply && freeRun (s.core m.dst.core) = 0) then .next s
      else
        let s := unnet s k
        let s := if m.reply then freeSink s m.dst.core m.src else s
        .next (if (s.job d.job).state = .killing then dropDesc s m.dst.core d else queueDesc s m.dst.core d)
    | _ => .next s
  | none => .next s

/-! What END waits for, and what it returns -/

/-- An engine operation of the task is active, or a set of its is ready (R143, R280). -/
def engineBusy (s : State) (t : BitVec 48) : Bool :=
  let c := s.core (s.task t).core
  (c.sh0.ready && c.sh0.owner = some t) || (c.sh1.ready && c.sh1.owner = some t)
    || ((s.clusters.map fun p => p.2.eng) ++ (s.dies.map fun p => p.2.eng)).any fun e =>
        match e with | some o => o.task = t | none => false

/-- Step 1 of R143: earlier instructions executed, writes, atomics and sends acknowledged at package scope (R163), queued
operations done. -/
def drained (s : State) (t : BitVec 48) : Bool :=
  let x := s.task t
  let c := s.core x.core
  x.acked false && !(c.sendq.any fun e => e.task = t) && !(c.postedUe.any fun p => p.1 = t) && !(c.vecq.any fun e => e.task = t)
    && !((c.mx0 ++ c.mx1).any fun o => o.task = t) && !engineBusy s t

/-- The trap cause that a close at END reports (R235). -/
def Task.endCause (x : Task) : Nat :=
  if x.sup.inStrap then (x.sup.scause.setWidth 8 : Byte).toNat
  else if x.tr.inTrap then (x.tr.tcause.setWidth 8 : Byte).toNat
  else 0

/-- Endpoint slots that a task holds, by number. -/
def slotsOf (c : Core) (t : BitVec 48) : List Nat := (c.eps.filter fun p => p.2.owner = some t && p.2.status ≠ .free).map fun p => p.1

/-- Closes and frees slots of a task: each is CLOSED before it is FREE (R143 step 2, R222, R235, R318). -/
def closeEach (s : State) (t : BitVec 48) (reason cause : Nat) (l : List Nat) : State :=
  let k := (s.task t).core
  l.foldl (fun s n => freeSlot (failClose s k n reason cause t) k n) s

/-- Closes and frees every slot of a task. -/
def closeSlots (s : State) (t : BitVec 48) (reason cause : Nat) : State :=
  closeEach s t reason cause (slotsOf (s.core (s.task t).core) t)

/-- Slots of a task that it closes in order and whose close is not yet answered: they become FREE only after CLOSED (R222, R256). -/
def closingSlots (s : State) (t : BitVec 48) : List Nat :=
  let c := s.core (s.task t).core
  (slotsOf c t).filter fun n => (c.ep n).status = .closing

/-- A core group ends: its slots return and their bindings go; no rule clears their counts (R28, R143, R169, R262). -/
def dropGroup (c : Core) (j : W32) : Core :=
  let l := match c.group j with | some g => g.slots | none => []
  { c with
    groups := c.groups.filter fun g => g.job ≠ j,
    counters := c.counters.map fun p => if l.contains p.1 then (p.1, { p.2 with trig := .none, fire := 0 }) else p,
    eps := c.eps.map fun p => (p.1, { p.2 with link := match p.2.link with | some i => if l.contains i then none else some i | none => none }) }

/-- Tasks of a job that is being pre-empted were saved from the core: their group is still to be recorded (R314). -/
def groupOwed (s : State) (k : Nat) (j : W32) : Bool :=
  (s.job j).state = .preempting && (s.job j).saved.any fun p => p.1 = k && match p.2 with | .saved _ => true | .desc _ => false

/-- The group of a job ends with its last base-level task on the core (R143, R169), but one that is to be saved stays for its
record. -/
def endGroup (s : State) (k : Nat) (j : W32) : State :=
  if (s.baseTasks k).any (fun t => t.job = j) || groupOwed s k j then s else s.onCore k fun c => dropGroup c j

/-- A shadow set that its owner gives up (R278). -/
def Shadow.release (h : Shadow) (t : BitVec 48) : Shadow := let h := { h with errs := sdel h.errs t.toNat }
  if h.owner = some t then { h with owner := none, ready := false } else h

/-- Takes a task off its core: context, registers, tiles, region, shadow sets, locks (R143 step 3). -/
def removeTask (s : State) (t : BitVec 48) : State :=
  let x := s.task t
  let s := s.onCore x.core fun c => { c with
    sh0 := c.sh0.release t, sh1 := c.sh1.release t, locks := c.locks.filter (fun l => l.task ≠ t),
    postedUe := c.postedUe.filter (fun p => p.1 ≠ t), loop := c.loop.filter (fun e => e.task ≠ t) }
  let s := leaveSlot s t .ended
  let s := s.setTask t Task.none
  endGroup (wakeWhere s x.core fun w => w = .engine false || w = .engine true) x.core x.job

/-- The binding that created a task re-arms and tests again at its END (R260). -/
def rearm (s : State) (k : Nat) (b : Option Nat) : State :=
  match b with
  | none => s
  | some b =>
    let n := b % 128
    let id := b / 128
    let arm := fun (g : Trigger) => if g.id = id then { g with armed := true } else g
    if n < 64 then testEpTrigger (s.onEp k n fun e => { e with trig := e.trig.map arm }) k n
    else testCounterTrigger (s.onCounter k (n - 64) fun c => { c with trig := c.trig.map arm }) k (n - 64)

/-- A task that ends without a reply to the AM that created it releases the sender's entry (R390). -/
def releaseReply (s : State) (k : Nat) (r : Option Place) : State :=
  match r with
  | some p => s.emit k true p .sinkRelease
  | none => s

/-- The steps of END from step 2 on (R143). -/
def finishTask (s : State) (t : BitVec 48) (reason cause : Nat) : State :=
  let x := s.task t
  let s := dissolveTower s t
  let s := closeSlots s t reason cause
  let s := removeTask s t
  let s := releaseReply s x.core x.replyTo
  rearm (jobLower s x.job) x.core x.binder

/-- A core goes idle when a task on it ends (R424, R430). -/
def idleAfter (s : State) (t : BitVec 48) (k : Nat) : Bool :=
  (s.core k).gov.kind = .active
    && !(s.baseTasks k).any fun y => y.gtid ≠ t
      && (y.status = .running || y.status = .ready || y.status = .suspended || (y.status = .waitMsg && y.wait = some .compose))

/-- Site 2 of R430: the quarters that a pinned task's END would take beyond what remains of the fall capacity; a tower stops its n
cores (R288). -/
def endExcess (s : State) (t : BitVec 48) : Nat :=
  let x := s.task t
  let ks := (if x.tower = [] then [x.core] else x.tower).filter (idleAfter s t)
  if x.pinned && !x.high && !x.rvSkips then 4 * ks.length - (s.gov.fcap - s.gov.fall) else 0

/-- QUANTUM_EXPIRY (R309): the holder yields to a ready task after 65,536 cc. -/
def execQuantumExpiry (core : Nat) (s : State) : Out :=
  let c := s.core core
  match c.slotBase with
  | some t =>
    let x := s.task t
    .next (if x.status = .running && c.readyBase ≠ [] && x.tower = [] && 65536 ≤ (s.timebase - x.since).toNat then makeReady s t else s)
  | none => .next s

end Sys2Proof.Machine
end

