-- ==== Sys2Proof/Machine/Spire.lean ====
section
/-! DEFINITION. The spire: launch records (R295 to R298), jobs (R301), dealing (R302 to R305), pre-emption, saves, resumption
and kills (R313 to R318). -/

namespace Sys2Proof.Machine

/-! Launch records -/

/-- The active cores of a partition in logical order (R303). -/
def logicalCores (s : State) (dies : BitVec 8) (clusters : BitVec 80) : List Nat :=
  (List.range 8).flatMap fun d =>
    if dies.getLsbD d then
      (List.range 80).flatMap fun c =>
        if clusters.getLsbD c then
          ((List.range 4).map fun i => d * 320 + c * 4 + i).filter fun k => !s.harvested k
        else []
    else []

/-- The fields of a record's bytes 0x20 to 0x37 (R295). -/
structure RecFields where
  groups : Nat
  perGroup : Nat
  flags : Byte
  prio : Byte
  dies : BitVec 8
  clusters : BitVec 80
  rest : Nat
  deriving DecidableEq, Repr

/-- n bytes of a list from an offset, as a number. -/
def fieldOf (bs : List Byte) (o n : Nat) : Nat := leNat ((bs.drop o).take n)

def recFields (bs : List Byte) : RecFields :=
  { groups := fieldOf bs 0x20 4, perGroup := fieldOf bs 0x24 1, flags := BitVec.ofNat 8 (fieldOf bs 0x25 1),
    prio := BitVec.ofNat 8 (fieldOf bs 0x26 1), dies := BitVec.ofNat 8 (fieldOf bs 0x27 1),
    clusters := BitVec.ofNat 80 (fieldOf bs 0x28 10), rest := fieldOf bs 0x32 6 }

/-- Reason 2 of R296. -/
def badFields (s : State) (f : RecFields) : Bool :=
  f.groups = 0 || 2 ^ 24 ≤ f.groups || f.perGroup = 0 || 8 < f.perGroup || f.flags &&& 0x8C ≠ 0 || f.prio &&& 0xFC ≠ 0
    || f.rest ≠ 0 || (f.dies &&& ~~~s.enabled) ≠ 0 || logicalCores s f.dies f.clusters = []

/-- KHDR of an entry as the spire reads it: never in the private alias (R296; log entry 22). -/
def spireHeader (s : State) (asid : W16) (entry : W128) : Option W64 :=
  if (cursor entry).toNat < 0x1000040 then none else headerOf s 0 asid entry

def Launch.cores (s : State) (l : Launch) : List Nat := logicalCores s l.dies l.clusters

/-- Group number i of logical core ℓ among N (R304). -/
def groupOf (l : Launch) (n ℓ i : Nat) : Nat :=
  if l.pack then i / l.depth * (n * l.depth) + ℓ * l.depth + i % l.depth else ℓ + i * n

/-- Groups that logical core ℓ takes in all (R304). -/
def groupsOn (l : Launch) (n ℓ : Nat) : Nat :=
  if l.pack then
    let round := n * l.depth
    l.groups / round * l.depth + min l.depth (l.groups % round - ℓ * l.depth)
  else if ℓ < l.groups then (l.groups - ℓ - 1) / n + 1 else 0

/-- The cores of a launch that take a group and are UNHELD (R425, R430). -/
def unheldCores (s : State) (l : Launch) : List Nat :=
  let cs := l.cores s
  ((cs.zipIdx).filter fun p => groupsOn l cs.length p.2 ≠ 0 && (s.core p.1).gov.kind = .unheld).map fun p => p.1

/-- The tickets by which a pinned launch passes what remains of the slot (R430, site 0). -/
def launchExcess (s : State) (l : Launch) : Nat := if l.pinned then (unheldCores s l).length - (s.gov.rcap - s.gov.rise) else 0

/-- The tickets of a launch, in the order of each core's first group, which is logical core order (R304, R426); what a pinned
ticket finds held on its core goes on at once. -/
def launchTickets (s : State) (l : Launch) : State :=
  (unheldCores s l).foldl (fun s k =>
    let s := takeTicket s k l.pinned
    if l.pinned && !(s.heldStarts k).isEmpty then releaseStart s k s.timebase else s) s

/-- A record of validated fields. -/
def launchOf (entry arg : GVal) (f : RecFields) : Launch :=
  { entry := entry, arg := arg, groups := f.groups, perGroup := f.perGroup, pack := f.flags.getLsbD 0,
    depth := (f.flags.extractLsb' 4 3).toNat + 1, pinned := f.flags.getLsbD 1, dies := f.dies, clusters := f.clusters }

/-- Acceptance: a new job is PENDING with its full count (R263, R301); a pinned one is charged at once (R430). -/
def acceptJob (s : State) (l : Launch) (prio : Nat) (asid : W16) : State × W32 :=
  let id := s.spire.nextJob
  let j : Job := { Job.none with state := .pending, count := l.groups * l.perGroup, asid := asid, prio := prio,
                                 order := s.spire.nextOrder, launch := some l }
  let s := s.setJob id j
  let s := { s with spire := { s.spire with nextJob := id + 1, nextOrder := s.spire.nextOrder + 1 } }
  (if l.pinned then launchTickets s l else s, id)

/-- Pending jobs (R296). -/
def pendingJobs (s : State) : List (Nat × Job) := s.spire.jobs.filter fun p => p.2.state = .pending

/-- The refusal value of a reason (R263, R298). -/
def refusal (reason : Nat) : W64 := BitVec.ofNat 64 (2 ^ 63 + reason)

/-- An answer that tells the waiting LAUNCH to raise RAMP_VIOLATION over a number of cores (R263, R430). -/
def violationAnswer (cores : Nat) : W64 := BitVec.ofNat 64 (2 ^ 62 + cores)

/-- The arg of a LAUNCH: a capability without GLOBAL loses its tag (R296). -/
def launchArg (bits : W128) (t : Tag) : GVal := let v : GVal := ⟨bits, t⟩; if isGlobal v then v else ⟨bits, .data⟩

/-- The address space of a LAUNCH (R338). -/
def launchAsid (s : State) (r : LaunchReq) : W16 :=
  let x := s.task r.task
  let l := (s.core x.core).lasid
  if r.sup && l ≠ 0 then l else x.asid

/-- The spire's answer to a LAUNCH (R296, R263). -/
def serveLaunch (s : State) (r : LaunchReq) : State × W64 :=
  let x := s.task r.task
  let f := recFields r.bytes
  let entry : GVal := ⟨BitVec.ofNat 128 (fieldOf r.bytes 0 16), r.tag0⟩
  let asid := launchAsid s r
  let valid := entry.tag = .entry && !entryHl entry.bits && !entrySv entry.bits && (spireHeader s asid entry.bits).isSome
  let l := launchOf entry (launchArg (BitVec.ofNat 128 (fieldOf r.bytes 16 16)) r.tag1) f
  if !valid then (s, refusal 1)
  else if badFields s f then (s, refusal 2)
  else if 64 ≤ (pendingJobs s).length then (s, refusal 3)
  else if launchExcess s l ≠ 0 && !x.rvSkips then (s, violationAnswer (launchExcess s l))
  else
    let (s, id) := acceptJob s l (f.prio.setWidth 2 : BitVec 2).toNat asid
    (s, id.setWidth 64)

/-- SPIRE_LAUNCH_REQUEST (R296): the oldest request is answered. -/
def execSpireLaunchRequest (s : State) : Out :=
  match s.spire.requests with
  | [] => .next s
  | r :: rs =>
    let (s, a) := serveLaunch { s with spire := { s.spire with requests := rs } } r
    .next (wake (s.onTask r.task fun x => { x with answer := some a }) r.task)

/-! The host launch queue -/

/-- Records of the ring; 0 disables it (R300). -/
def ringSize (s : State) : Nat :=
  let l := (s.spire.lqCfg.extractLsb' 0 4).toNat
  if 1 ≤ l && l ≤ 12 then 2 ^ l else 0

/-- LQ_TAIL_WRITE (R298): a tail too far ahead sets overrun, and the records it overwrote are passed over. The spire answers from
phase 1, and not in recovery (R454, R459). -/
def lqTailWrite (s : State) (v : W64) : State :=
  if !s.spireUp then s
  else
  let tail : W32 := v.setWidth 32
  let n := ringSize s
  let ahead := (tail - s.spire.lqHead).toNat
  let sp := { s.spire with lqTail := tail }
  { s with spire := if n ≠ 0 && n < ahead then { sp with lqHead := tail - BitVec.ofNat 32 n, lqCfg := sp.lqCfg ||| (1#64 <<< 21) } else sp }

def execLqTailWrite (v : W64) (s : State) : Out := .next (lqTailWrite s v)

/-- A capability of a permission over [base, base + n) formed as CSETB forms one (R128, R298). -/
def formCap (perm : Byte) (base n : Nat) (cur : W64) : W128 :=
  match setbFind base n 39 0 with
  | some e => let (b2, _, l, _) := setbTry base n e; capBits perm e (b2 / 2 ^ e) l cur
  | none => 0

/-- The result of a host record: a refusal reason, or its launch (R296, R298). No header stands before a kernel address that is
not a multiple of 64; reason 4 names it. -/
def hostLaunch (s : State) (bs : List Byte) : Except Nat (Launch × Nat) :=
  let kern := fieldOf bs 0 16
  let arg : W128 := BitVec.ofNat 128 (fieldOf bs 16 16)
  let f := recFields bs
  let asid : W16 := s.spire.lqCfg.extractLsb' 4 16
  let lo := s.spire.codeBase.toNat
  let hi := s.spire.codeTop.toNat
  let entry : GVal := ⟨formCap (permEx ||| permGlobal) lo (hi - lo) (BitVec.ofNat 64 kern), .entry⟩
  let base := (arg.extractLsb' 0 52).toNat
  let len := (arg.extractLsb' 64 32).toNat
  let perm := permGlobal ||| (if arg.getLsbD 96 then permLd else 0) ||| (if arg.getLsbD 97 then permSt else 0)
  if 2 ^ 52 ≤ kern || (kern % 64 = 0 && (spireHeader s asid (BitVec.ofNat 128 kern)).isNone) then .error 1
  else if badFields s f || arg.extractLsb' 52 12 ≠ 0 || arg.extractLsb' 98 30 ≠ 0 then .error 2
  else if kern % 64 ≠ 0 || kern < lo + 64 || hi ≤ kern then .error 4
  else if base < s.spire.argBase.toNat || s.spire.argTop.toNat < base + len then .error 5
  else
    let l := launchOf entry ⟨formCap perm base len (BitVec.ofNat 64 base), .mem⟩ f
    if launchExcess s l ≠ 0 then .error 6 else .ok (l, (f.prio.setWidth 2 : BitVec 2).toNat)

/-- HOST_LAUNCH_RECORD (R298): the record at the head; a full pending table holds it back. DESIGN CHOICE: where LQ_BASE names a disabled die
or unbacked space, the record reads as zeros and is refused with reason 1, its result word goes nowhere, and LQ_HEAD advances; bytes of an
uncorrectable codeword read as zeros as well, and such a record is refused with reason 1 (R356; log entry 26). -/
def execHostLaunchRecord (s : State) : Out :=
  let n := ringSize s
  let sp := s.spire
  if n = 0 || !sp.lqCfg.getLsbD 20 || sp.lqHead = sp.lqTail || 64 ≤ (pendingJobs s).length then .next s
  else
    let a := sp.lqBase.toNat + 64 * (sp.lqHead.toNat % n)
    let (s, r) := match (if (s.firstBad a 64).isSome then .error 1 else hostLaunch s (s.readBytes a 64)) with
      | .error e => (s, refusal e)
      | .ok (l, prio) => let (s, id) := acceptJob s l prio (sp.lqCfg.extractLsb' 4 16); (s, id.setWidth 64)
    let s := if s.backed (a + 0x38) 8 then s.write (a + 0x38) (leBytes 8 r.toNat) else s
    .next { s with spire := { s.spire with lqHead := s.spire.lqHead + 1 } }

/-! Dealing -/

/-- The pending job to deal next: highest priority, then acceptance order (R301). -/
def headJob (s : State) : Option (Nat × Job) :=
  (pendingJobs s).foldl (fun best p =>
    match best with
    | none => some p
    | some b => if b.2.prio < p.2.prio || (b.2.prio = p.2.prio && p.2.order < b.2.order) then some p else some b) none

/-- JOB_DEAL_START (R301): one job deals at a time (log entry 22); the spire requests the tickets of its cores (R426). -/
def execJobDealStart (s : State) : Out :=
  if s.spire.jobs.any fun p => p.2.state = .dealing then .next s
  else match headJob s with
    | some (id, j) =>
      let s := s.setJob (BitVec.ofNat 32 id) { j with state := .dealing }
      .next (match j.launch with | some l => if l.pinned then s else launchTickets s l | none => s)
    | none => .next s

/-- The descriptor of task t of group g on logical core ℓ (R297). -/
def launchDesc (s : State) (id : W32) (j : Job) (l : Launch) (n ℓ g t : Nat) : TaskDesc :=
  { entry := l.entry, args := [l.arg, data64 (BitVec.ofNat 64 g), data64 (BitVec.ofNat 64 t), data64 (BitVec.ofNat 64 ℓ)],
    job := id, asid := j.asid, src := ⟨s.chip, 0⟩, by_ := 0, am := false, launched := true,
    onCore := l.perGroup * groupsOn l n ℓ, pinned := l.pinned, binder := none }

/-- GROUP_DELIVERY (R304, R305): the next group of a core, when the core's last report shows room. -/
def execGroupDelivery (job : W32) (core : Nat) (s : State) : Out :=
  let j := s.job job
  match j.state, j.launch with
  | .dealing, some l =>
    let cs := l.cores s
    match cs.idxOf? core with
    | none => .next s
    | some ℓ =>
      let i := sget 0 j.delivered core
      let r := sget Report.zero (s.die (dieOf core)).reports (core % 320)
      if groupsOn l cs.length ℓ ≤ i || r.runq < l.perGroup || !s.coreUp core then .next s
      else
        let g := groupOf l cs.length ℓ i
        let s := (List.range l.perGroup).foldl (fun s t => queueDesc s core (launchDesc s job j l cs.length ℓ g t)) s
        let s := s.onDie (dieOf core) fun d => { d with reports := sset .zero d.reports (core % 320) { r with runq := r.runq - l.perGroup } }
        .next (s.onJob job fun j =>
          let j := { j with delivered := sset 0 j.delivered core (i + 1) }
          if j.allDelivered then { j with state := .running } else j)
  | _, _ => .next s

/-- The free counts of a core (R305). -/
def reportOf (s : State) (k : Nat) : Report :=
  { runq := freeRun (s.core k), ctx := 8 - (s.baseTasks k).length, tiles := (freeTiles s k).length,
    counters := (freeCounters s k).length, eps := freeEndpoints s k, spad := largestFree (usedSpad s k) }

/-- FREE_COUNT_REPORT (R305): every 128 cc. -/
def execFreeCountReport (die : Nat) (s : State) : Out :=
  if die < 8 && 128 ≤ (s.timebase - (s.die die).reportAt).toNat then
    .next (s.onDie die fun d => { d with
      reportAt := s.timebase,
      reports := (List.range 320).filterMap fun i => if s.harvested (die * 320 + i) then none else some (i, reportOf s (die * 320 + i)) })
  else .next s

/-! Records in the context area (R315) -/

/-- A record has room in what is left of the area (R315). -/
def recordFits (s : State) (job : W32) (cs : List Chunk) : Bool :=
  let j := s.job job
  let n := ceilDiv (chunksLen cs) 64 * 64
  decide (j.at_ + n ≤ s.spire.jobAreaLen.toNat) && s.backed (s.spire.jobArea.toNat + j.at_) n

/-- Appends a record; none when it would pass the area (R315). -/
def putRecord (s : State) (job : W32) (cs : List Chunk) : State × Option Nat :=
  let j := s.job job
  if !recordFits s job cs then (s, none)
  else ((writeChunks s (s.spire.jobArea.toNat + j.at_) cs).onJob job fun j =>
    { j with at_ := j.at_ + ceilDiv (chunksLen cs) 64 * 64, records := j.records + 1 }, some j.at_)

/-- The 64-byte job header (R315; log entry 17). -/
def writeJobHeader (s : State) (job : W32) : State :=
  let j := s.job job
  let a := s.spire.jobArea.toNat
  if s.spire.jobAreaLen.toNat < 64 || !s.backed a 64 then s
  else s.write a (leBytes 8 job.toNat ++ leBytes 8 j.records ++ leBytes 8 j.at_ ++ leBytes 40 0)

/-- The 64 bytes of a descriptor record (R315; log entry 17). -/
def descBytes (d : TaskDesc) : List Byte :=
  (leBytes 16 d.entry.bits.toNat ++ d.args.flatMap (fun v => leBytes 16 v.bits.toNat) ++ leBytes 64 0).take 64

/-! Saves -/

/-- A full save may begin: nothing of the task is in the send queue or active in an engine (R314, R293). -/
def saveable (s : State) (t : BitVec 48) : Bool :=
  let c := s.core (s.task t).core
  !(c.sendq.any fun e => e.task = t)
    && !((s.clusters.map fun p => p.2.eng) ++ (s.dies.map fun p => p.2.eng)).any fun e => match e with | some o => o.task = t | none => false

/-- Takes a saved task off its core: its tiles, region and queued work go with it. -/
def liftTask (s : State) (t : BitVec 48) (kind : Nat) : State × Saved :=
  let x := s.task t
  let sv := saveOf s t kind
  let s := (s.settleBallast x.core).onCore x.core fun c => { c with mx0 := c.mx0.filter (fun o => o.task ≠ t), mx1 := c.mx1.filter (fun o => o.task ≠ t) }
  let s := s.onCore x.core fun c => { c with
    sh0 := c.sh0.release t, sh1 := c.sh1.release t, locks := c.locks.filter (fun l => l.task ≠ t),
    loop := c.loop.filter fun e => e.task ≠ t }
  let s := (leaveSlot s t .ended).setTask t Task.none
  (wakeLocks (wakeWhere s x.core fun w => w = .engine false || w = .engine true), sv)

/-- Stops a task in place with a kind-4 record (R313, R316); one that is parked stays so (R353), and one stopped for the debugger is so
recorded as well (R448). -/
def stopInPlace (s : State) (t : BitVec 48) : State :=
  let s := (dropRequest s t).onTask t fun x => x.countWait s.timebase
  let x := s.task t
  let (s, _) := putRecord s x.job (plainRecord t 4 (coreId s.chip x.core) [])
  let s := s.onJob x.job fun j => { j with inplace := true }
  let s := s.onTask t fun x => { x with preempt := none, inPlace := true, wait := none }
  if x.status = .stopped then s else leaveSlot s t .stopped

/-- A task that is saved keeps nothing of a wait (R173, R268): its instruction runs again. A barrier wait that a completion
released is over (R170). -/
def Task.asSaved (x : Task) : Task :=
  { x with status := .suspended, wait := .none, preempt := .none, tower := [], unacked := [], fault := .none, blockLen := 0, ship := .none,
           barWait := x.barWait && x.released }

/-- A core group of which every task is saved is recorded as its core finishes, and its slots return (R169, R314, R315). -/
def saveGroup (s : State) (job : W32) (k : Nat) : State :=
  let c := s.core k
  match c.group job with
  | some g =>
    if (s.baseTasks k).any (fun t => t.job = job) || !groupOwed s k job then s
    else
      let vs := g.slots.map fun i => c.counter i
      let body := vs.flatMap fun v =>
        leBytes 4 v.count.toNat ++ leBytes 4 v.target.toNat ++ leBytes 2 (bit v.phase 0 + bit v.trig.isSome 1) ++ leBytes 2 v.fire.toNat ++ leBytes 4 0
      let (s, at_) := putRecord s job (plainRecord 0 3 (coreId s.chip k) ((body ++ leBytes 256 0).take 256))
      (s.onJob job fun j => { j with coreRecs := j.coreRecs + bit at_.isSome 0, groups := j.groups ++ vs.zipIdx.map fun p => (k, p.2, p.1) }).onCore k fun c => dropGroup c job
  | none => s

/-- A full save (R314): written as a kind-1 record, with which a parked task leaves its pending entry (R353), or stopped in place, still
parked, when the area is full. A LAUNCH not yet answered is made again (R268). -/
def fullSave (s : State) (t : BitVec 48) : State :=
  let s0 := flushVec (dissolveTower s t) t
  let s := dropRequest ((unpark s0 t).onTask t Task.asSaved) t
  let x := s.task t
  let (s, at_) := putRecord s x.job (taskRecord s t none)
  match at_ with
  | none => stopInPlace s0 t
  | some o =>
    let (s, sv) := liftTask s t 1
    saveGroup (s.onJob x.job fun j => { j with full := true, saved := j.saved ++ [(x.core, .saved { sv with rec_ := some o })] }) x.job x.core

/-- Whether a task holds an endpoint slot that is not FREE. -/
def holdsSlot (s : State) (t : BitVec 48) : Bool := slotsOf (s.core (s.task t).core) t ≠ []

def isOfJob (job : W32) (e : RunEntry) : Bool := match e with | .desc d => d.job = job | .saved v => v.task.job = job

/-- A shipped task as it stands on the core in whose run queue it waits: its region keeps its offset (R317, R319). -/
def Saved.onCoreAs (v : Saved) (k : Nat) : Saved :=
  let was := spadPa v.task.core
  let now := spadPa k
  { v with task := { v.task with core := k }, spad := v.spad.map (fun p => (p.1 - was + now, p.2)),
           spadTags := v.spadTags.map fun p => (p.1 - was / 16 + now / 16, p.2) }

/-- The record of a run-queue entry of a core: a descriptor's is of kind 2, a shipped task's a full one that names this core (R313, R315;
log entry 17). -/
def entryRecord (s : State) (k : Nat) (e : RunEntry) : List Chunk :=
  match e with
  | .desc d => plainRecord 0 2 (coreId s.chip k) (descBytes d)
  | .saved v => recordOf s.chip (v.onCoreAs k) none

/-- Entries of a job in the run queues, with their cores. -/
def queuedOf (s : State) (job : W32) : List (Nat × RunEntry) :=
  s.cores.flatMap fun p => ((p.2.runHigh ++ p.2.runBase).filter (isOfJob job)).map fun e => (p.1, e)

/-- Nothing of the job is left to act on (R301): tasks neither saved nor recorded as stopped, queued entries that the area has room for,
messages and shipments on their way. -/
def jobQuiet (s : State) (job : W32) : Bool :=
  !((s.tasks.map fun p => p.2).any fun t => t.job = job && !(t.status = .stopped && t.inPlace) && t.status ≠ .ended)
    && !((queuedOf s job).any fun p => recordFits s job (entryRecord s p.1 p.2))
    && !((s.cores.map fun p => p.2).any fun c => c.sendq.any fun e => match e.msg.body with | .task d _ => d.job = job | _ => false)
    && !(s.net.any fun m => match m.body with | .task d _ => d.job = job | _ => false)
    && !(s.ships.any fun p => p.2.task.job = job)

/-- PREEMPTING ends when every task is saved or stopped (R301); the core groups and the header are written. -/
def finishPreempt (s : State) (job : W32) : State :=
  let j := s.job job
  if j.state = .preempting && j.sentTo = [] && jobQuiet s job then
    let s := (s.cores.map fun p => p.1).foldl (fun s k => saveGroup s job k) s
    let s := s.onJob job fun j => { j with
      state := if j.count = 0 && j.allDelivered then .done else .saved, inplace := j.inplace || !(queuedOf s job).isEmpty }
    let s := writeJobHeader s job
    { s with spire := { s.spire with busy := if s.spire.busy = some job then none else s.spire.busy } }
  else s

/-- The check of R430, site 2, at an END. -/
def endCheck (s : State) (t : BitVec 48) : Eff Unit :=
  failIf (endExcess s t ≠ 0) (.trap .rampViolation (rampInfo 2 0 (ceilDiv (endExcess s t) 4)))

/-- END (R143): a tower hands its members back first (R147, R326); until step 1 is done it stalls; a slot that the task itself closes
in order is freed once it is CLOSED, as by CH.FREE (R222, R256; log entry 31). With the last task of a job that is being
pre-empted the pre-emption is complete (R301). -/
def execEndTask (g : Guard) (s : State) : Out :=
  guarded g 4 s fun s => do
    let t := s.curTid
    let x := s.curTask
    endCheck s t
    let s := dissolveTower s t
    failIf (!drained s t) (.after s .stall)
    (match endCheck s t with | .error st => throw (.after s st) | .ok _ => pure ())
    let open_ := (slotsOf (s.core x.core) t).filter fun n => !(closingSlots s t).contains n
    let s := closeEach s t 1 x.endCause open_
    match closingSlots s t with
    | n :: _ => throw (.after s (.wait (.chan n)))
    | [] => pure (finishPreempt (saveGroup (finishTask s t 1 x.endCause) x.job x.core) x.job)

/-! Job commands (R300, R301) -/

def JobState.code : JobState → Nat
  | .pending => 0 | .dealing => 1 | .running => 2 | .preempting => 3 | .saved => 4 | .resuming => 5 | .killing => 6 | .done => 7

/-- JOB_STAT (R300). -/
def jobStatValue (s : State) : W64 :=
  let id : W32 := s.spire.jobStat.setWidth 32
  let j := s.job id
  BitVec.ofNat 64 (id.toNat + (if s.spire.jobStat.getLsbD 63 then j.state.code else 0) * 2 ^ 32 + bit s.spire.busy.isSome 35
    + bit (s.spire.jobStat.getLsbD 36) 36 + bit j.full 37 + bit j.inplace 38 + (j.records - j.coreRecs) % 2 ^ 24 * 2 ^ 40)

/-- The named job of the last command; bit 63 marks that a command was given, bit 36 is lost. -/
def noteCommand (s : State) (job : W32) : State :=
  { s with spire := { s.spire with jobStat := (s.spire.jobStat &&& (1#64 <<< 36)) ||| job.setWidth 64 ||| (1#64 <<< 63) } }

/-- Cores that hold a task or a descriptor of a job (R313). -/
def coresOf (s : State) (job : W32) : List Nat :=
  let run := (s.cores.filter fun p => (p.2.runHigh ++ p.2.runBase).any fun e => match e with
    | .desc d => d.job = job | .saved v => v.task.job = job).map fun p => p.1
  ((((s.tasks.map fun p => p.2).filter fun t => t.job = job).map fun t => t.core) ++ run).eraseDups

/-- Command 1 (R301, R313). -/
def jobPreempt (s : State) (job : W32) : State :=
  let j := s.job job
  match j.state with
  | .pending | .dealing | .running =>
    let s := s.setJob job { j with
      state := .preempting, resumeDealing := !j.allDelivered, sentTo := coresOf s job, full := false, inplace := false, records := 0,
      coreRecs := 0, at_ := 64, saved := [], groups := [] }
    finishPreempt { s with spire := { s.spire with busy := some job } } job
  | _ => s

/-- What a core does with one queued entry of a pre-empted job (R313): it is recorded and withdrawn; one whose record would pass the area
stays where it is, in place (R315; log entry 17). -/
def withdraw (s : State) (job : W32) (k : Nat) (e : RunEntry) : State :=
  match putRecord s job (entryRecord s k e) with
  | (s, none) => s.onJob job fun j => { j with inplace := true }
  | (s, some o) =>
    let s := s.onCore k fun c => { c with runHigh := c.runHigh.erase e, runBase := c.runBase.erase e }
    s.onJob job fun j => match e with
      | .desc _ => { j with saved := j.saved ++ [(k, e)] }
      | .saved v => { j with full := true, saved := j.saved ++ [(k, .saved { v.onCoreAs k with rec_ := some o })] }

/-- Withdraws the queued entries of a job on a core; its starts wait no longer. -/
def withdrawAll (s : State) (job : W32) (k : Nat) : State :=
  let c := s.core k
  ((c.runHigh ++ c.runBase).filter (isOfJob job)).foldl (fun s e => withdraw s job k e) (settleHeld s k (some job) s.timebase)

/-- A held trap that may be taken at the boundary comes before a pre-emption (R272, 3 before 5). -/
def trapBefore (s : State) (t : BitVec 48) : State :=
  let x := s.task t
  let at_ := (x.status = .waitMsg && x.wait.isSome && x.wait ≠ some .saving && x.ship.isNone) || x.status = .running || x.status = .ready
    || x.status = .suspended
  if at_ && !x.waitOver && x.held.any x.takeable then takeHeld s t else s

/-- A full save that must wait for what the task still has in the send queue or in an engine: the task issues nothing more, and a
ready set that has not swapped in does not (R293, R314). A parked task stays in its pending entry until it is saved (R353). DESIGN CHOICE: a
task so waiting takes no trap, so an operation of it that is or becomes FAULTED stays so and its save waits on (log entry 17). -/
def beginSave (s : State) (t : BitVec 48) : State :=
  let s := dropRequest (dissolveTower s t) t
  leaveSlot (s.onTask t fun x => { x.countWait s.timebase with
    preempt := some s.timebase, wait := some .saving, parkedAt := s.timebase }) t .waitMsg

/-- The save of a task at a boundary (R313, R314): in place where it holds a slot, else in full, at once or when it can be. -/
def saveNow (s : State) (t : BitVec 48) : State :=
  if holdsSlot s t then stopInPlace (dissolveTower s t) t
  else if saveable s t then fullSave s t
  else if (s.task t).wait = some .saving then s
  else beginSave s t

/-- A task waits, so that a pre-emption of its job saves it at once (R313). -/
def Task.waits (x : Task) : Bool := x.status = .waitMsg || x.status = .waitMem

/-- What a core does with one admitted task of a pre-empted job (R313); a task stopped for the debugger, high-level or not, is
recorded as stopped in place (R448). -/
def preemptTask (s : State) (t : BitVec 48) : State :=
  let x := s.task t
  if x.status = .stopped then stopInPlace s t
  else if x.high then s
  else
    let s := trapBefore s t
    if holdsSlot s t then stopInPlace (dissolveTower s t) t
    else if (s.task t).waits then saveNow s t
    else s.onTask t fun x => { x with preempt := some (s.timebase + s.spire.preemptDl) }

/-- PREEMPT_ARRIVAL (R301, R313): at a core that the command reaches, or that a descriptor reached since. -/
def execPreemptArrival (job : W32) (core : Nat) (s : State) : Out :=
  let j := s.job job
  let queued := ((s.core core).runHigh ++ (s.core core).runBase).any (isOfJob job)
  if j.state = .preempting then
    let s :=
      if j.sentTo.contains core || queued then
        let s := withdrawAll (s.onJob job fun j => { j with sentTo := j.sentTo.erase core }) job core
        let ts := ((s.tasksOn core).filter fun t => t.job = job && t.preempt = none && !t.inPlace).map fun t => t.gtid
        ts.foldl preemptTask s
      else s
    .next (finishPreempt s job)
  else .next s

/-- A task under a pending pre-emption at a boundary (R313, R314): one that waits, or has not reached a SAFEPT by the deadline, is
fully saved; one that stopped for the debugger is recorded as stopped in place (R448). -/
def preemptDue (s : State) (t : BitVec 48) : State :=
  let x := s.task t
  match x.preempt with
  | some dl =>
    if x.status = .stopped then finishPreempt (stopInPlace s t) x.job
    else if (x.waits || dl.toNat ≤ s.timebase.toNat) && x.status ≠ .ended then
      let s := trapBefore s t
      if (s.task t).waits || dl.toNat ≤ s.timebase.toNat then finishPreempt (saveNow s t) x.job else s
    else s
  | none => s

/-- PREEMPT_DEADLINE (R314). -/
def execPreemptDeadline (task : Nat) (s : State) : Out := .next (preemptDue s (BitVec.ofNat 48 task))

/-- A save at a SAFEPT (R145, R146): the live registers that its maps mark. DESIGN CHOICE: it resumes at the SAFEPT + 8 and makes no
loop-end test, where a stop in place retires the SAFEPT with the test of R139 (log entry 31). -/
def safeSave (s : State) (t : BitVec 48) (maps : W16 × BitVec 4 × W32) : State :=
  let s := s.onTask t fun x => (x.setPc (x.pc + 8)).asSaved
  let x := s.task t
  let (s, at_) := putRecord s x.job (taskRecord s t (some maps))
  match at_ with
  | none => finishPreempt (stopInPlace s t) x.job
  | some o =>
    let (s, sv) := liftTask s t 0
    let s := s.onJob x.job fun j => { j with saved := j.saved ++ [(x.core, .saved { sv with rec_ := some o })] }
    finishPreempt (saveGroup s x.job x.core) x.job

/-- SAFEPT (R145): a NOP unless a pre-emption of the job is pending; a tower hands its members back first (R147, R326). -/
def execSafept (g : Guard) (vmap : BitVec 16) (amap : BitVec 4) (gmap : BitVec 32) (s : State) : Out :=
  guarded g 8 s fun s => do
    let t := s.curTid
    let x := s.curTask
    if x.high || x.preempt.isNone then pure (retire s 8)
    else
      let s := dissolveTower s t
      failIf (!drained s t) (.after s .stall)
      if holdsSlot s t then pure (finishPreempt (stopInPlace (retireOf s t 8) t) x.job)
      else pure (safeSave s t (vmap, amap, gmap))

/-! Resumption (R317, R146) -/

/-- Cells that stood from one key on, placed from another on. -/
def moveCells {α : Type} [DecidableEq α] (d : α) (was now : Nat) (l m : List (Nat × α)) : List (Nat × α) :=
  l.foldl (fun m p => sset d m (now + (p.1 - was)) p.2) m

/-- A shadow set that returns to a core keeps that core's counts (R293). -/
def Shadow.backTo (h c : Shadow) : Shadow := { c with regs := h.regs, owner := h.owner, ready := h.ready, op := h.op, sup := h.sup }

/-- A task re-created from its record: registers as the record holds them, its tiles and region in place (R146, R307, R317). Its
matrix operations stand behind those of the core, in queues that have room for them (R198), and an MX.RAG keeps the count it had seen until
its slot's next update (R203; log entry 23). -/
def restoreTask (s : State) (k : Nat) (v : Saved) (r : Grant) : State :=
  let t := v.task.gtid
  let base := spadPa k + r.spad
  let x := { v.task with core := k, tiles := r.tiles, spadBase := r.spad, status := .waitMsg, wait := none, parkedAt := s.timebase }
  let s := clearRange s base x.spadSize
  let s := s.onCore k fun c => (r.tiles.zip v.tiles).foldl (fun c p => putTile c p.1 p.2) c
  let setAt : Nat → Shadow → Shadow := fun i h => ((v.sets.filter fun p => p.1 = i).map fun p => p.2).headD h
  let errAt := fun (i : Nat) (h : Shadow) => (v.errs.filter fun p => p.1 = i).foldl (fun h p => { h with errs := sset 0 h.errs t.toNat p.2 }) h
  let of : Nat → List MxOp := fun q => (v.mx.filter fun p => p.1 = q).map fun p => p.2
  let s := s.onCore k fun c => { c with
    mx0 := c.mx0 ++ (of 0).map (physNumbers x c), mx1 := c.mx1 ++ (of 1).map (physNumbers x c),
    sh0 := errAt 0 ((setAt 0 c.sh0).backTo c.sh0),
    sh1 := errAt 1 ((setAt 1 c.sh1).backTo c.sh1),
    locks := c.locks ++ v.locks }
  let was := spadPa v.task.core + v.task.spadBase
  let s := { s with mem := moveCells 0 was base v.spad s.mem, tags := moveCells .data (was / 16) (base / 16) v.spadTags s.tags }
  s.setTask t x

/-- A matrix operation read back from its 64 bytes (R315; log entry 17). -/
def loadMx (r : State) (i : Nat) (x : Task) (c : Core) (o : MxOp) : MxOp :=
  let w := r.readNat (i + 8) 8
  let v := r.readNat (i + 48) 8
  physNumbers x c { o with
    prog := r.readNat i 8, tile := w % 2 ^ 8, slot := w / 2 ^ 16 % 2 ^ 16, offA := r.readNat (i + 16) 8, offB := r.readNat (i + 24) 8,
    desc := BitVec.ofNat 128 (r.readNat (i + 32) 16), winA := v % 2 ^ 8, winB := v / 2 ^ 8 % 2 ^ 8,
    seed := if v.testBit 32 then some (BitVec.ofNat 16 (v / 2 ^ 16)) else none }

/-- A shadow set read back from its 128 bytes (R315; log entry 17). -/
def loadSet (r : State) (i op : Nat) (h : Shadow) : Shadow :=
  { h with ready := (r.readNat (i + 8) 1).testBit 0, op := op,
           regs := (List.range 6).foldl (fun m j => sset .zero m j (loadChunk r (i + 16 + 16 * j))) [] }

/-- Numbers of a task's operations that engines run. -/
def activeOps (s : State) (t : BitVec 48) : List Nat :=
  ((s.clusters.map fun p => p.2.eng) ++ (s.dies.map fun p => p.2.eng)).filterMap fun e =>
    match e with | some o => if o.task = t then some o.op else none | none => none

/-- Queued work read back from a record, by the memory r: the task's matrix operations in order, and its shadow sets, a ready one with its
ranges as by ENG.GO (R293, R315, R317, R447; log entry 17). -/
def reloadWork (r s : State) (t : BitVec 48) (a : Nat) : State :=
  let x := s.task t
  let live := activeOps s t
  s.onCore x.core fun c =>
    let ids := ((c.mx0 ++ c.mx1).filter fun o => o.task = t).map fun o => o.id
    let back := fun (o : MxOp) => if o.task ≠ t then o else loadMx r (a + 64 * ids.idxOf o.id) x c o
    let b := a + 64 * ids.length
    let h0 := if c.sh0.owner = some t then loadSet r b c.nextOp c.sh0 else c.sh0
    let h1 := if c.sh1.owner = some t then loadSet r (if c.sh0.owner = some t then b + 128 else b) (c.nextOp + 1) c.sh1 else c.sh1
    let ranges := fun (e : Bool) (h : Shadow) => if h.owner = some t && h.ready then engLocks h.op t x.asid e h.regs else []
    { c with mx0 := c.mx0.map back, mx1 := c.mx1.map back, sh0 := h0, sh1 := h1, nextOp := c.nextOp + 2,
             locks := c.locks.filter (fun l => l.task ≠ t || l.matrix || live.contains l.op) ++ ranges false h0 ++ ranges true h1 }

/-- Length of the record of a task at an address as the task and the record's maps give it (R315). -/
def recordLen (s : State) (a : Nat) (x : Task) : Nat :=
  let (ta, live) := recordTiles s a x
  let c := s.core x.core
  ta + 65536 * live.length - a
    + if s.readNat (a + 8) 1 = 0 then 0
      else x.spadSize + 64 * ((c.mx0 ++ c.mx1).filter fun o => o.task = x.gtid).length
        + 128 * ([c.sh0, c.sh1].filter fun h => h.owner = some x.gtid).length

/-- The part of a record that stands in memory, read back (R146, R317): registers, live tiles, and for kind 1 the region and the queued
work. DESIGN CHOICE: bytes of an uncorrectable codeword of the record read as zeros, and the task takes MEM_UE with the record's address
(R356; log entry 17). -/
def reloadRecord (s : State) (t : BitVec 48) (a : Nat) : State :=
  let r := s.clean
  let x := s.task t
  let s := if (s.firstBad a (recordLen r a x)).isSome then raiseAsync s t .memUe (BitVec.ofNat 64 a) else s
  let x := s.task t
  let kind := r.readNat (a + 8) 1
  let (ta, live) := recordTiles r a x
  let gm : W32 := BitVec.ofNat 32 (r.readNat (a + 24) 4)
  let x' := loadRecord r a x
  let x' := if kind = 0 && !gm.getLsbD 1 then x'.setReg 1 (exactCap g1Perm x.spadBase x.spadSize (BitVec.ofNat 64 x.spadBase)) else x'
  let dead : DeadRegs :=
    if kind = 0 then ⟨~~~gm, ~~~(BitVec.ofNat 16 (r.readNat (a + 21) 2)), ~~~(BitVec.ofNat 4 (r.readNat (a + 23) 1))⟩ else x.dead
  let s := s.setTask t { x' with dead := dead }
  let s := s.onCore x.core fun c =>
    (List.range x.accs).foldl (fun c i =>
      match live.idxOf? i with
      | some p => putTile c (x.tiles.getD i 0) (loadTile r (ta + 65536 * p))
      | none => putTile c (x.tiles.getD i 0) []) c
  if kind = 0 then clearRange s (spadPa x.core + x.spadBase) x.spadSize
  else
    let sa := ta + 65536 * live.length
    reloadWork r (copyChunks r s sa (spadPa x.core + x.spadBase) (x.spadSize / 16)) t (sa + x.spadSize)

/-- A task of a job that is being pre-empted stopped for the debugger, or at a double fault, after its core had acted: it is recorded as stopped in
place at the end of that step (R301, R448). -/
def stopRecorded (s : State) : State :=
  match s.spire.busy with
  | some job =>
    let j := s.job job
    let ts := (s.tasks.map fun p => p.2).filter fun t => t.job = job && t.status = .stopped && !t.inPlace && !j.sentTo.contains t.core
    if j.state = .preempting && !ts.isEmpty then finishPreempt (ts.foldl (fun s t => stopInPlace s t.gtid) s) job else s
  | none => s

/-- RESUMING ends when every saved task is admitted again (R301). -/
def finishResume (s : State) (job : W32) : State :=
  let j := s.job job
  let waits := (s.cores.map fun p => p.2).any fun c => c.runBase.any fun e => match e with | .saved v => v.task.job = job | _ => false
  if j.state = .resuming && !waits then
    let s := s.onJob job fun j => { j with state := if j.resumeDealing then .dealing else if j.count = 0 then .done else .running }
    { s with spire := { s.spire with busy := if s.spire.busy = some job then none else s.spire.busy } }
  else s

/-- The shadow sets that a saved task brings are free on the core (R293), and its matrix operations have room in the tile queues
(R198, R219). -/
def setsFree (c : Core) (v : Saved) : Bool :=
  (v.sets.all fun p => (if p.1 = 0 then c.sh0.owner else c.sh1.owner).isNone)
    && decide (c.mx0.length + (v.mx.filter fun p => p.1 = 0).length ≤ 8) && decide (c.mx1.length + (v.mx.filter fun p => p.1 = 1).length ≤ 8)

/-- Admission of a saved or shipped task at the head (R306, R307, R317, R319): a resumed one needs its old offset. -/
def admitSaved (s : State) (k : Nat) (v : Saved) : State :=
  let x := v.task
  if !setsFree (s.core k) v then s
  else match grantFor s k x.job x.khdr (if v.rec_.isSome then some x.spadBase else none) with
    | none => s
    | some r =>
      let first := r.slots.isSome
      let (s, go) := admitStart s k x.job x.pinned
      if !go then s
      else
        let s := takeGrant (popBase s k) k x.job r 0
        let s := if first then restoreGroup s k x.job else s
        let s := restoreTask s k v r
        let s := match v.rec_ with
          | some o => reloadRecord s x.gtid (s.spire.jobArea.toNat + o)
          | none => s
        let s := releaseHeld (makeReady s x.gtid) k
        finishResume (if x.stopDue then debugStop (s.onTask x.gtid fun x => { x with stopDue := false }) x.gtid 16 else s) x.job

/-- A stopped task becomes READY: a start on an idle core, as a wake is (R317, R424, R425, R447; log entry 24). A handler budget's
pause ends (R445). -/
def restartTask (s : State) (t : BitVec 48) (step : Bool) : State :=
  wake ((leavePark s t).onTask t fun x => { x with
    inPlace := false, forDebug := false, stopRec := none, stopWork := [], stopSets := [], stopLocks := [], stepping := step,
    firstIssue := if x.forDebug then x.firstIssue.map fun n => n + (s.timebase - x.parkedAt) else x.firstIssue,
    status := .waitMsg, wait := none, parkedAt := s.timebase }) t

/-- The slots of a task resume with it: a counter link consumes what came meanwhile (R261, R268). -/
def pumpSlots (s : State) (t : BitVec 48) : State :=
  let k := (s.task t).core
  (slotsOf (s.core k) t).foldl (fun s n => pump s k n) s

/-- Saved entries return to a core's run queues in their order, before those of the job that stayed there (R315, R317). -/
def returnEntries (s : State) (job : W32) (k : Nat) (es : List RunEntry) : State :=
  let high := fun (e : RunEntry) => match e with | .desc d => entryHl d.entry.bits | .saved _ => false
  let put := fun (l new : List RunEntry) => l.takeWhile (!isOfJob job ·) ++ new ++ l.dropWhile (!isOfJob job ·)
  let first := es.any fun e => match e with | .desc _ => !high e | .saved _ => false
  let s := if first && !((s.baseTasks k).any fun t => t.job = job) then noteHeld s k job else s
  s.onCore k fun c => { c with runHigh := put c.runHigh (es.filter high), runBase := put c.runBase (es.filter (!high ·)) }

/-- Command 2 (R317). -/
def jobResume (s : State) (job : W32) : State :=
  let j := s.job job
  if j.state ≠ .saved then s
  else
    let s := s.setJob job { j with state := .resuming, saved := [] }
    let s := { s with spire := { s.spire with busy := some job } }
    let s := (j.saved.map fun p => p.1).eraseDups.foldl (fun s k =>
      returnEntries s job k ((j.saved.filter fun p => p.1 = k).map fun p => p.2)) s
    let stopped := ((s.tasks.map fun p => p.2).filter fun t => t.job = job && t.inPlace).map fun t => t.gtid
    let s := stopped.foldl (fun s t => pumpSlots (restartTask s t false) t) s
    finishResume s job

/-! Kills (R318) -/

/-- Drops a task's queued work; a delegation record that still waits in its send queue is lost (R222, R235). -/
def dropWork (s : State) (t : BitVec 48) : State :=
  let k := (s.task t).core
  let gone := (s.core k).sendq.filter fun e => e.task = t
  let s := (s.settleBallast k).onCore k fun c => { c with
    vecq := c.vecq.filter (fun e => e.task ≠ t), mx0 := c.mx0.filter (fun o => o.task ≠ t), mx1 := c.mx1.filter (fun o => o.task ≠ t),
    sendq := c.sendq.filter (fun e => e.task ≠ t) }
  loseRecords s (delegated (chanBodies (gone.map fun e => e.msg.body)))

/-- Terminates a task (R312, R318). -/
def terminate (s : State) (t : BitVec 48) : State :=
  let s := dropWork (unpark (dissolveTower s t) t) t
  let x := s.task t
  releaseReply (jobLower (removeTask (closeSlots s t 4 0) t) x.job) x.core x.replyTo

/-- An active operation of a task on an engine, if any. -/
def activeOp (o : Option EngOp) (t : BitVec 48) : Bool := match o with | some e => e.task = t | none => false

/-- Drops FAULTED operations of a task and marks running ones as discarded (R318; log entry 22). -/
def dropOps (s : State) (t : BitVec 48) : State :=
  let f := fun (o : Option EngOp) => match o with
    | some e => if e.task = t then (if e.faulted then none else some { e with dropped := true }) else o
    | none => none
  { s with clusters := s.clusters.map fun p => (p.1, { p.2 with eng := f p.2.eng }), dies := s.dies.map fun p => (p.1, { p.2 with eng := f p.2.eng }) }

/-- A ready set of a task that has not swapped in is withdrawn with its ranges, and never runs (R318). -/
def withdrawSets (s : State) (t : BitVec 48) : State :=
  s.onCore (s.task t).core fun c =>
    let mine := [c.sh0, c.sh1].filter fun h => h.ready && h.owner = some t
    let off := fun (h : Shadow) => if h.owner = some t then { h with ready := false } else h
    { c with sh0 := off c.sh0, sh1 := off c.sh1,
             locks := c.locks.filter fun l => !(l.task = t && !l.matrix && mine.any fun h => h.op = l.op) }

/-- Kills a task: at once, or, its queued work dropped and its channels closed, stopped until its active engine operation has
completed (R318). -/
def killTask (s : State) (t : BitVec 48) : State :=
  let s := withdrawSets (dropOps s t) t
  if (s.clusters.any fun p => activeOp p.2.eng t) || (s.dies.any fun p => activeOp p.2.eng t) then
    let s := closeSlots (dropWork (unpark (dissolveTower s t) t) t) t 4 0
    leaveSlot (s.onTask t fun x => { x with forDebug := false, inPlace := false, wait := none }) t .stopped
  else terminate s t

/-- The bindings of a job that is being killed go (R318). -/
def dropTriggers (s : State) (job : W32) : State :=
  let keep := fun (g : Option Trigger) => g.filter fun g => g.job ≠ job
  { s with cores := s.cores.map fun p => (p.1, { p.2 with
    counters := p.2.counters.map fun c => (c.1, { c.2 with trig := keep c.2.trig }),
    eps := p.2.eps.map fun e => (e.1, { e.2 with trig := keep e.2.trig }) }) }

/-- KILLING ends when no task is left (R301). -/
def finishKill (s : State) (job : W32) : State :=
  if (s.job job).state = .killing && !((s.tasks.map fun p => p.2).any fun t => t.job = job && t.status ≠ .ended) then
    let s := s.setJob job { s.job job with state := .done, count := 0 }
    { s with spire := { s.spire with busy := if s.spire.busy = some job then none else s.spire.busy } }
  else s

/-- Command 3 (R318). -/
def jobKill (s : State) (job : W32) : State :=
  let j := s.job job
  match j.state with
  | .done | .killing => s
  | _ =>
    let s := s.setJob job { j with state := .killing, saved := [], groups := [], sentTo := [] }
    let s := { s with spire := { s.spire with busy := some job, requests := s.spire.requests.filter fun r => (s.task r.task).job ≠ job } }
    let gone := queuedOf s job
    let s := { s with cores := s.cores.map fun p => (p.1, { p.2 with
      runHigh := p.2.runHigh.filter (!isOfJob job ·), runBase := p.2.runBase.filter (!isOfJob job ·) }) }
    let s := gone.foldl (fun s p => match p.2 with | .desc d => dropDesc s p.1 d | .saved _ => s) s
    let s := (gone.map fun p => p.1).foldl (fun s k => settleHeld s k (some job) s.timebase) s
    let lost := s.net.filterMap fun m => match m.body with | .task d _ => if d.job = job then some (m.dst.core, d) else none | _ => none
    let s := { s with net := s.net.filter (fun m => match m.body with | .task d _ => d.job ≠ job | _ => true),
                      ships := s.ships.filter fun p => p.2.task.job ≠ job }
    let s := lost.foldl (fun s p => dropDesc s p.1 p.2) s
    let ts := ((s.tasks.map fun p => p.2).filter fun t => t.job = job).map fun t => t.gtid
    finishKill (ts.foldl killTask (dropTriggers s job)) job

/-- A JOB_CTL command (R300, R301): ignored and noted as lost while another is in progress. The spire answers from phase 1, and not
in recovery (R454, R459). -/
def jobCommand (s : State) (job : W32) (cmd : Nat) : State :=
  if !s.spireUp then s
  else if s.spire.busy.isSome then { s with spire := { s.spire with jobStat := s.spire.jobStat ||| (1#64 <<< 36) } }
  else match cmd with
    | 0 => s
    | 1 => jobPreempt (noteCommand s job) job
    | 2 => jobResume (noteCommand s job) job
    | _ => jobKill (noteCommand s job) job

/-- JOB_CTL_NONE (R301). -/
def execJobCtlNone (job : W32) (s : State) : Out := .next (jobCommand s job 0)
/-- JOB_PREEMPT (R301, R313). -/
def execJobPreempt (job : W32) (s : State) : Out := .next (jobCommand s job 1)
/-- JOB_RESUME (R301, R317). -/
def execJobResume (job : W32) (s : State) : Out := .next (jobCommand s job 2)
/-- JOB_KILL (R301, R318). -/
def execJobKill (job : W32) (s : State) : Out := .next (jobCommand s job 3)

/-- A job whose queued tasks are not admitted now: it is being saved, is saved, or is being killed (R313, R318). -/
def jobHeld (s : State) (job : W32) : Bool :=
  match (s.job job).state with
  | .preempting | .saved | .killing => true
  | _ => false

/-- TASK_ADMISSION (R306, R307, R310, R426): the high-level head first, then the base-level one. A forming or formed tower
stops admission (R285). -/
def execTaskAdmission (core : Nat) (s : State) : Out :=
  let c := s.core core
  if c.towerOf.isSome || !s.coreUp core then .next s
  else
    match c.runHigh, c.runBase with
    | .desc d :: rest, base =>
      if (s.highTasks core).length < 2 && !jobHeld s d.job then .next (admitHigh s core d rest)
      else match base with
        | .desc b :: _ => .next (if jobHeld s b.job then s else admitDesc s core b)
        | .saved v :: _ => .next (if jobHeld s v.task.job then s else admitSaved s core v)
        | [] => .next s
    | .saved _ :: _, _ => .next s
    | [], .desc b :: _ => .next (if jobHeld s b.job then s else admitDesc s core b)
    | [], .saved v :: _ => .next (if jobHeld s v.task.job then s else admitSaved s core v)
    | [], [] => .next s

end Sys2Proof.Machine
end

