-- ==== Sys2Proof/Machine/TasksMsg.lean ====
section
/-! DEFINITION. SPAWN and AM (R257 to R259), their error replies (R257, R418), LAUNCH (R263), JOBQ (R264), iteration pools
(R265), shipment to a home-execute page (R319, R320). -/

namespace Sys2Proof.Machine

/-! SPAWN and AM -/

/-- Steps 3 and 4 of R257 for a destination. -/
def destCheck (s : State) (w : W64) : Eff Unit :=
  let (p, ok) := placeOf w
  failIf (!ok || (p.chip = s.chip && s.harvested p.core)) (.trap .busError w)

/-- What the executing task sends to create a task (R257). DESIGN CHOICE: a task so created, or by a binding, starts with TSTAT.pinned = 0,
in the job of a PINNED launch too (log entry 22). -/
def creation (s : State) (entry : GVal) (args : List GVal) (am : Bool) : TaskDesc :=
  { entry := entry, args := args, job := s.curTask.job, asid := s.curTask.asid, src := s.here s.cur, by_ := s.curTid, am := am,
    launched := false, onCore := 0, pinned := false, binder := none }

/-- The count rises before the message leaves (R257, R312). -/
def sendTask (s : State) (w : W64) (d : TaskDesc) : State :=
  jobRaise (enqueue s false (placeOf w).1 (.task d w) 0 []) s.curTask.job

/-- SPAWN (R257, R258). -/
def execSpawn (g : Guard) (a b : BitVec 5) (s : State) : Out :=
  guarded g 4 s fun s => do
    let w := s.curTask.r64 a
    let en := s.curTask.reg b
    entryCheck s en (!(placeOf w).2 || (placeOf w).1 ≠ s.here s.cur) (.spawn g a b)
    failIf (entryHl en.bits) (.trap .capPerm (en.bits.extractLsb' 0 64))
    destCheck s w
    sendqRoom s (.spawn g a b)
    pure (sendTask (retire s 4) w (creation s en [] false))

/-- The first argument register of AM that holds a capability without GLOBAL (R258). -/
def localArg (x : Task) (d : BitVec 5) (n : Nat) : Option Nat :=
  ((List.range n).map fun i => d.toNat + i).find? fun r => !isGlobal (x.reg (BitVec.ofNat 5 r))

/-- AM (R257 to R259, R390). -/
def execAm (g : Guard) (d a b : BitVec 5) (n : BitVec 3) (s : State) : Out :=
  guarded g 4 s fun s => do
    let x := s.curTask
    let t := s.curTid
    let w := x.r64 a
    let en := x.reg b
    let dst := (placeOf w).1
    entryCheck s en (!(placeOf w).2 || dst ≠ s.here s.cur) (.am g d a b n)
    match localArg x d n.toNat with
    | some r => throw (.trap .capPerm (BitVec.ofNat 64 r))
    | none => pure ()
    destCheck s w
    let args := (List.range n.toNat).map fun i => x.reg (BitVec.ofNat 5 (d.toNat + i))
    if x.high && x.replyTo = some dst then
      let s := jobRaise ((retire s 4).onTask t fun y => { y with replyTo := none }) x.job
      pure ((s.emit s.cur true dst (.task (creation s en args false) w)).onTask t fun y =>
        { y with unacked := y.unacked ++ [⟨if dst.chip = s.chip then 4 else 5⟩] })
    else
      failIf (64 ≤ s.me.sink.length) (.wait .sink)
      sendqRoom s (.am g d a b n)
      let s := (retire s 4).onCore s.cur fun c => { c with sink := c.sink ++ [dst] }
      pure (sendTask s w (creation s en args true))

/-- The pod port cannot reach a chip (R418). -/
def unreachable (s : State) (chip : Byte) : Bool := chip ≠ s.chip && (podFibre s chip).isNone

/-- POD_PORT_DISCARD (R257, R418): a SPAWN or AM for a chip that does not answer is discarded, with an error reply. -/
def execPodPortDiscard (k : Nat) (s : State) : Out :=
  match s.net[k]? with
  | some m =>
    match m.body with
    | .task d w =>
      if unreachable s m.dst.chip then
        .next ((unnet s k).post { src := m.dst, dst := m.src, reply := true, header := 0, body := .podError d w })
      else .next s
    | _ => .next s
  | none => .next s

/-- POD_ERROR_REPLY (R257): BUS_ERROR in the sender, asynchronously; the count falls and the AM's entry frees. -/
def execPodErrorReply (k : Nat) (s : State) : Out :=
  match arrivable s k with
  | some m =>
    match m.body with
    | .podError d w =>
      let s := unnet s k
      let s := if d.am then freeSink s m.dst.core m.src else s
      .next (finishPreempt (raiseAsync (jobLower s d.job) d.by_ .busError w) d.job)
    | _ => .next s
  | none => .next s

/-! LAUNCH, JOBQ and iteration pools -/

/-- Bits of the spire's answer that are the value of g[rd], or a RAMP_VIOLATION. -/
def launchAnswer (s : State) (d : BitVec 5) (a : W64) : Eff State :=
  if a.extractLsb' 62 2 = 1 then
    .error (.after (s.onCur fun x => { x with answer := none }) (.trap .rampViolation (rampInfo 0 0 (a.extractLsb' 0 32).toNat)))
  else .ok (s.onCur fun x => ({ x with answer := none }.setR64 d a).advance 4)

/-- LAUNCH (R263, R295): the record goes to the spire, and the task waits for the answer. -/
def execLaunch (g : Guard) (d a : BitVec 5) (s : State) : Out :=
  guarded g 4 s fun s =>
    match s.curTask.answer with
    | some w => launchAnswer s d w
    | none => do
      let c := s.curTask.reg a
      let e := cursor c.bits
      let (s, pa) ← memTarget (← resolve s c permLd e 64 64 .load false) e .align
      loadable s e pa 64
      let tag := fun o => if capPerm c.bits &&& permLdcap = 0 then Tag.data else s.tagAt (pa + o)
      let r : LaunchReq := ⟨s.curTid, s.readBytes pa 64, tag 0, tag 16, s.curTask.sup.priv⟩
      let s := s.chargeCur pa 64
      throw (.after { s with spire := { s.spire with requests := s.spire.requests ++ [r] } } (.wait .spire))

/-- JOBQ (R264). -/
def execJobq (g : Guard) (d a : BitVec 5) (s : State) : Out :=
  guarded g 4 s fun s =>
    .ok (s.onCur fun x => (x.setR64 d (BitVec.ofNat 64 ((s.job ((x.r64 a).setWidth 32)).count % 2 ^ 48))).advance 4)

/-- Tasks of a cluster that wait for room in a pool test again. -/
def wakePools (s : State) (c : Nat) : State :=
  [0, 1, 2, 3].foldl (fun s i => wakeWhere s (4 * c + i) fun w => w = .pool) s

/-- IP.GIVE (R265). -/
def execIpGive (g : Guard) (a b : BitVec 5) (s : State) : Out :=
  guarded g 4 s fun s =>
    let x := s.curTask
    let p := (x.r64 a).toNat % 16
    let f : W32 := (x.r64 b).extractLsb' 0 32
    let e : W32 := (x.r64 b).extractLsb' 32 32
    let c := clusterOf s.cur
    if e.toNat ≤ f.toNat then .ok (retire s 4)
    else if 8 ≤ ((s.cluster c).pools.filter fun r => r.pool = p).length then .error (.wait .pool)
    else .ok (retire (s.onCluster c fun y => { y with pools := y.pools ++ [⟨p, x.job, f, e⟩] }) 4)

/-- The oldest range of a job in a pool gives up its upper half; an emptied one goes (R265). -/
def takeRange (p : Nat) (j : W32) : List IpRange → Option (W64 × Bool) × List IpRange
  | [] => (none, [])
  | r :: rs =>
    if r.pool = p && r.job = j then
      let k : W32 := BitVec.ofNat 32 (ceilDiv (r.last - r.first).toNat 2)
      let m := r.last - k
      (some (r.last ++ m, m = r.first), if m = r.first then rs else { r with last := m } :: rs)
    else
      let (v, rs) := takeRange p j rs
      (v, r :: rs)

/-- IP.TAKE (R265). -/
def execIpTake (g : Guard) (d a : BitVec 5) (s : State) : Out :=
  guarded g 4 s fun s =>
    let x := s.curTask
    let c := clusterOf s.cur
    let (v, ps) := takeRange ((x.r64 a).toNat % 16) x.job (s.cluster c).pools
    match v with
    | some (w, freed) =>
      let s := (s.onCur fun x => (x.setR64 d w).advance 4).onCluster c fun y => { y with pools := ps }
      .ok (if freed then wakePools s c else s)
    | none => .ok (s.onCur fun x => (x.setR64 d 0).advance 4)

/-! Shipment to a home-execute page -/

/-- MIGRATION_SHIP (R319): once it has drained as at END, the task leaves with its full state for the home cluster; the lines it wrote of the
scratchpad it leaves are watched no more (R449). -/
def execMigrationShip (task : Nat) (s : State) : Out :=
  let t : BitVec 48 := BitVec.ofNat 48 task
  match (s.task t).ship with
  | some (d, h) =>
    if (s.task t).status ≠ .waitMsg || !drained s t then .next s
    else
      let job := (s.task t).job
      let k := (s.task t).core
      let s := s.onTask t fun x => { x with ship := none, wait := none, unacked := [] }
      let (s, sv) := liftTask s t 1
      let s := endGroup s k job
      .next { s with ships := s.ships ++ [(d * 80 + h, { sv with task := { sv.task with job := job, lbLines := [] } })] }
  | none => .next s

/-- The lowest active slot of a cluster (R319), none while its die's cores are held in reset (R454). -/
def lowestSlot (s : State) (c : Nat) : Option Nat := ([0, 1, 2, 3].map fun i => 4 * c + i).find? fun k => !s.harvested k && s.coreUp k

/-- A core can admit a task of a saved state now (R306, R454). -/
def canAdmit (s : State) (v : Saved) (k : Nat) : Bool :=
  !s.harvested k && s.coreUp k && (s.core k).towerOf.isNone && (s.core k).runBase = [] && setsFree (s.core k) v
    && (grantFor s k v.task.job v.task.khdr none).isSome

/-- Clusters of a die by hop count from one of them, lower numbers first (R319). -/
def clustersNear (c : Nat) : List Nat :=
  (List.range 18).flatMap fun h => ((List.range 80).map fun i => c / 80 * 80 + i).filter fun x => hops c x = h

/-- Where a shipped task is admitted, or else the core in whose run queue it waits (R319). -/
def shipCore (s : State) (v : Saved) (c : Nat) : Option Nat :=
  match (clustersNear c).flatMap (fun x => ([0, 1, 2, 3].map fun i => 4 * x + i).filter (canAdmit s v)) with
  | k :: _ => some k
  | [] => lowestSlot s c

/-- MIGRATION_ARRIVAL (R319): a home cluster with no active slot, or one held in reset (R454), leaves it on its way. -/
def execMigrationArrival (k : Nat) (s : State) : Out :=
  match s.ships[k]? with
  | some (c, v) =>
    match shipCore s v c with
    | some j => .next (State.onCore { s with ships := s.ships.eraseIdx k } j fun x => { x with runBase := x.runBase ++ [RunEntry.saved v] })
    | none => .next s
  | none => .next s

end Sys2Proof.Machine
end

