-- ==== Sys2Proof/Machine/Engines.lean ====
section
/-! DEFINITION. The routing engine of a cluster and the exchange engine of a die (R278 to R284, R354, R356, R409 to R412,
R498, R499): shadow sets, the four engine instructions, swap, the operations, their faults and completion. Choices where the
spec gives none: log entry 23. -/

namespace Sys2Proof.Machine

/-! Units and shadow sets -/

/-- The engine that engine number 0 (false) or 1 (true) names on a core (R278). -/
def engineOf (k : Nat) (e : Bool) : EngId := if e then .exch (dieOf k) else .route (clusterOf k)

def isExch : EngId → Bool
  | .exch _ => true
  | .route _ => false

/-- The cores an engine serves: the first, and how many (R278). -/
def engCores : EngId → Nat × Nat
  | .route c => (4 * c, 4)
  | .exch d => (320 * d, 320)

def State.engine (s : State) : EngId → Option EngOp
  | .route c => (s.cluster c).eng
  | .exch d => (s.die d).eng

def State.setEngine (s : State) (e : EngId) (o : Option EngOp) : State :=
  match e with
  | .route c => s.onCluster c fun y => { y with eng := o }
  | .exch d => s.onDie d fun y => { y with eng := o }

def State.lastServed (s : State) : EngId → Nat
  | .route c => (s.cluster c).engLast
  | .exch d => (s.die d).engLast

def State.setLast (s : State) (e : EngId) (n : Nat) : State :=
  match e with
  | .route c => s.onCluster c fun y => { y with engLast := n }
  | .exch d => s.onDie d fun y => { y with engLast := n }

def Core.shadow (c : Core) (e : Bool) : Shadow := if e then c.sh1 else c.sh0
def Core.setShadow (c : Core) (e : Bool) (h : Shadow) : Core := if e then { c with sh1 := h } else { c with sh0 := h }
def State.onShadow (s : State) (k : Nat) (e : Bool) (f : Shadow → Shadow) : State :=
  s.onCore k fun c => c.setShadow e (f (c.shadow e))

/-- Waiters for an engine or its set on a core test again. -/
def wakeEngine (s : State) (k : Nat) (e : Bool) : State := wakeWhere s k fun w => w = .engine e

/-! ENG.W, ENG.R, ENG.GO, ENG.WAIT -/

/-- Dome-only service withholds engine 1 (R455). -/
def engHeld (s : State) (e : BitVec 5) (i : Instr) : Eff Unit := failIf (e = 1 && s.domeOnly) (.trap .illegalInstr (wordInfo i))

/-- The set belongs to no other task (R278). -/
def setFree (s : State) (e : Bool) : Eff Unit :=
  match (s.me.shadow e).owner with
  | some t => failIf (t ≠ s.curTid) (.wait (.engine e))
  | none => .ok ()

/-- The value a shadow register takes (R279). -/
def engValue (e : Bool) (i : Nat) (v : GVal) : Eff GVal :=
  let w := v.bits.extractLsb' 0 64
  match engPerm e i with
  | none => .ok (data64 w)
  | some p =>
    if e = false && i = 4 && v.tag = .data then .ok (data64 w)
    else do
      failIf (v.tag ≠ .mem) (.trap .capTag w)
      failIf (capPerm v.bits &&& p ≠ p) (.trap .capPerm w)
      check2 w 1
      failIf (0x100000 ≤ w.toNat && w.toNat < 0x1000000) (.trap .window w)
      .ok v

/-- ENG.W (R278, R279). -/
def execEngW (g : Guard) (d e : BitVec 5) (i : BitVec 11) (s : State) : Out :=
  guarded g 4 s fun s => do
    engHeld s e (.engW g d e i)
    setFree s (e = 1)
    failIf (s.me.shadow (e = 1)).ready (.wait (.engine (e = 1)))
    let v ← engValue (e = 1) i.toNat (s.curTask.reg d)
    pure (retire (s.onShadow s.cur (e = 1) fun h => { h with owner := some s.curTid, regs := sset .zero h.regs i.toNat v }) 4)

/-- The status registers of R281. -/
def engStatus (s : State) (e : Bool) (i : Nat) : W64 :=
  let h := s.me.shadow e
  let o := s.engine (engineOf s.cur e)
  let st := match o with | some x => if x.faulted then 2 else 1 | none => 0
  match i with
  | 0 => BitVec.ofNat 64 (st + bit h.ready 2 + bit (h.owner = some s.curTid) 3 + (sget 0 h.errs s.curTid.toNat).toNat * 2 ^ 4 + h.done.toNat * 2 ^ 32)
  | 1 => h.faddr
  | 2 => match o with | some x => x.prog | none => 0
  | _ => if e then 0 else h.dropped.setWidth 64

/-- ENG.R (R279, R281). -/
def execEngR (g : Guard) (d e : BitVec 5) (i : BitVec 11) (s : State) : Out :=
  alu g 4 s fun x => x.setR64 d (engStatus s (e = 1) i.toNat)

/-- The check of the footprints over their capabilities (R280). -/
def checkFoot (r : Sparse GVal) : List (Nat × Nat) → Eff Unit
  | [] => .ok ()
  | (i, n) :: fs => do
    let v := engReg r i
    failIf (n ≠ 0 && (capCheck v 0 (cursor v.bits) n).isSome) (.trap .capBounds (cursor v.bits))
    checkFoot r fs

/-- A footprint of the executing task as a registered range (R174). -/
def engLock (s : State) (op : Nat) (r : Sparse GVal) (f : Nat × Nat) : Lock := rangeOf op s.curTid s.curTask.asid r f

/-- A footprint that the engine writes over a read range of another task's matrix operation (R201). Own ranges stall the write
itself. -/
def checkReadRanges (s : State) (e : Bool) (r : Sparse GVal) : List (Nat × Nat) → Eff Unit
  | [] => .ok ()
  | f :: fs => do
    let l := engLock s 0 r f
    failIf (engPerm e f.1 = some permSt && s.me.locks.any fun m =>
      m.matrix && m.read && m.task ≠ s.curTid && m.spad = l.spad && m.asid = l.asid && overlap l.lo l.hi m.lo m.hi)
      (.trap .rangeLocked (BitVec.ofNat 64 l.lo))
    checkReadRanges s e r fs

/-- A new active operation from a ready set (R278). -/
def engOpOf (k : Nat) (e : Bool) (asid : W16) (h : Shadow) (t : BitVec 48) : EngOp :=
  let err := engInvalid e k h.regs
  { core := k, task := t, asid := asid, sup := h.sup, regs := h.regs, op := h.op, faulted := false, prog := 0, todo := none, drop := 0, moved := [], err := err,
    checked := err ≠ 0, peer := [], send := [], recv := [], joined := err ≠ 0, notes := [], dropped := false }

/-- A ready set that may swap in: not that of a task whose save waits for its active operation (R293). -/
def mayServe (s : State) (h : Shadow) : Bool := h.ready && !(h.owner.any fun t => (s.task t).wait = some .saving)

/-- The ready set to serve next, in rotating order of core index (R278). -/
def nextReady (s : State) (e : EngId) : Option Nat :=
  let (lo, n) := engCores e
  let ks := (s.cores.filter fun p => lo ≤ p.1 && p.1 < lo + n && mayServe s (p.2.shadow (isExch e))).map fun p => p.1
  let dist := fun k => (k - lo + n - (s.lastServed e - lo) % n + n - 1) % n
  ks.foldl (fun b k => match b with | none => some k | some j => if dist k < dist j then some k else some j) none

/-! Accesses of an engine -/

/-- Why an access of an engine stops its operation (R282, R356, R498). An uncorrectable error of the data names its codeword. -/
inductive EngStop
  | fault (va : Nat) (write : Bool)
  | bus (va : Nat)
  | ue (va : Nat) (pa : Option Nat)
  deriving DecidableEq, Repr

/-- An engine's access: its result, or why it stops with the state that its translations left (R344). -/
abbrev EngTry (α : Type) := Except (State × EngStop) α

/-- The translation path of an engine (R354). -/
def engPath : EngId → Path
  | .route c => ⟨none, some c, dieOfCluster c⟩
  | .exch d => ⟨none, none, d⟩

/-- Physical address of a range inside one 64 KiB page (R354, R498). -/
def engXl (s : State) (e : EngId) (o : EngOp) (a : Nat) (phys : Bool) (n : Nat) (u : Use) : EngTry (State × Nat) :=
  if phys then (if s.backed a n then .ok (s, a) else .error (s, .bus a))
  else if 2 ^ 52 ≤ a then .error (s, .bus a)
  else
    let (s, _, r) := s.translate (engPath e) o.asid a u o.sup
    match r with
    | .ok pa _ => if s.backed pa n then .ok (s, pa) else .error (s, .bus a)
    | .fault _ _ => .error (s, .fault a u.writes)
    | .bus => .error (s, .bus a)
    | .ue => .error (s, .ue a none)

/-- The parts of [a, a + n) by 64 KiB page. -/
def pageParts (a n : Nat) : List (Nat × Nat) :=
  if n = 0 then []
  else (List.range ((a + n - 1) / 65536 - a / 65536 + 1)).map fun i =>
    let lo := max a ((a / 65536 + i) * 65536)
    (lo, min (a + n) ((a / 65536 + i + 1) * 65536) - lo)

/-- Physical pieces of parts, with the virtual address of each. -/
def engParts (s : State) (e : EngId) (o : EngOp) (phys : Bool) (u : Use) : List (Nat × Nat) → EngTry (State × List (Nat × Nat × Nat))
  | [] => .ok (s, [])
  | (a, n) :: ps => do
    let (s, pa) ← engXl s e o a phys n u
    let (s, l) ← engParts s e o phys u ps
    .ok (s, (a, pa, n) :: l)

/-- Pieces of n bytes from an offset of register k. -/
def engPieces (s : State) (e : EngId) (o : EngOp) (k off n : Nat) (u : Use) : EngTry (State × List (Nat × Nat × Nat)) :=
  let (a, phys) := engAddr o.core (engReg o.regs k)
  engParts s e o phys u (pageParts (a + off) n)

/-- The first uncorrectable codeword of pieces (R356): its virtual and its physical address. -/
def badPiece (s : State) : List (Nat × Nat × Nat) → Option (Nat × Nat)
  | [] => none
  | (a, pa, n) :: ps =>
    match s.firstBad pa n with
    | some b => some (a + (b - pa), b)
    | none => badPiece s ps

/-- The energy of an engine's access, at the core that submitted the operation (R422). -/
def chargePieces (s : State) (o : EngOp) (ps : List (Nat × Nat × Nat)) : State :=
  s.charge o.core (ps.map fun p => moveEnergy p.2.1 p.2.2).sum

/-- A read by an engine. -/
def engRead (s : State) (e : EngId) (o : EngOp) (k off n : Nat) : EngTry (State × List Byte) := do
  let (s, ps) ← engPieces s e o k off n .load
  match badPiece s ps with
  | some (a, pa) => .error (s, .ue a (some pa))
  | none => .ok (chargePieces s o ps, ps.flatMap fun p => s.readBytes p.2.1 p.2.2)

/-- Writes bytes over pieces, each as one write (R356). -/
def writePieces (s : State) : List (Nat × Nat × Nat) → List Byte → State
  | [], _ => s
  | (_, pa, n) :: ps, bs => writePieces (s.write pa (bs.take n)) ps (bs.drop n)

/-- A write by an engine: every page is translated first. -/
def engWrite (s : State) (e : EngId) (o : EngOp) (k off : Nat) (bs : List Byte) : EngTry State := do
  let (s, ps) ← engPieces s e o k off bs.length .store
  .ok (chargePieces (writePieces s ps bs) o ps)

/-! Routing -/

/-- Little-endian numbers of w bytes that bytes hold. -/
def numbersOf (w : Nat) (bs : List Byte) : List Nat := (List.range (bs.length / w)).map fun i => leNat ((bs.drop (w * i)).take w)

/-- Kept entries of expert x in (t, j) order, as RT_PERM words (R409, R410). -/
def permOf (topk x : Nat) (es : List Nat) : List Nat :=
  (es.zipIdx.filter fun p => p.1 = x).map fun p => p.2 / topk + p.2 % topk * 2 ^ 24

/-- Exclusive prefix sums. -/
def prefixes (n : Nat) : List Nat → List Nat
  | [] => []
  | x :: xs => n :: prefixes (n + x) xs

def words32 (l : List Nat) : List Byte := l.flatMap (leBytes 4)

/-- A routing operation with its entries sorted (R410): the writes it performs, RT_CNT last, and the entries dropped. -/
def routeSort (s : State) (e : EngId) (o : EngOp) : EngTry (State × EngOp) := do
  let c := rtCfg o.regs
  let (s, src) ← engRead s e o 0 0 (2 * c.ntok * c.topk)
  let es := numbersOf 2 src
  let groups := (List.range c.nexp).map fun x => permOf c.topk x es
  let counts := groups.map fun g => g.length
  let ofs := if (engReg o.regs 4).tag = .mem then [EngWrite.mk 4 0 (words32 (prefixes 0 counts)) false] else []
  .ok (s, { o with
    todo := some ([EngWrite.mk 1 0 (words32 groups.flatten) false] ++ ofs ++ [EngWrite.mk 2 0 (words32 counts) c.add]),
    drop := (es.filter fun x => c.nexp ≤ x).length })

/-- The writes cut at the 64 KiB pages they touch. -/
def cutWrites (o : EngOp) (l : List EngWrite) : List EngWrite :=
  l.flatMap fun w =>
    let a := (engAddr o.core (engReg o.regs w.reg)).1 + w.off
    (pageParts a w.bytes.length).map fun p => { w with off := w.off + (p.1 - a), bytes := (w.bytes.drop (p.1 - a)).take p.2 }

/-- One write of an operation. -/
def engWriteOne (s : State) (e : EngId) (o : EngOp) (w : EngWrite) : EngTry State := do
  let (s, old) ← if w.add then engRead s e o w.reg w.off w.bytes.length else .ok (s, [])
  engWrite s e o w.reg w.off (if w.add then words32 ((numbersOf 4 old).zipWith (fun a b => (a + b) % 2 ^ 32) (numbersOf 4 w.bytes)) else w.bytes)

/-- Performs writes in order: the state, what remains, and what stopped it (R282, R380). -/
def engPerform (s : State) (e : EngId) (o : EngOp) : List EngWrite → State × List EngWrite × Option EngStop
  | [] => (s, [], none)
  | w :: ws =>
    match engWriteOne s e o w with
    | .ok s => engPerform s e o ws
    | .error (s, st) => (s, w :: ws, some st)

/-- A routing operation with its writes at hand: sorted now, or left by an earlier stop. -/
def routeReady (s : State) (e : EngId) (o : EngOp) : EngTry (State × EngOp) :=
  match o.todo with
  | some _ => .ok (s, o)
  | none => routeSort s e o

/-- The tokens that a routing operation has finished: none of their entries is still to be written to RT_PERM (R281; log entry
16). -/
def tokensDone (o : EngOp) (rest : List EngWrite) : W64 :=
  let open_ := (rest.filter fun w => w.reg = 1).flatMap fun w => (numbersOf 4 w.bytes).map fun x => x % 2 ^ 24
  BitVec.ofNat 64 ((rtCfg o.regs).ntok - open_.eraseDups.length)

/-- A routing operation runs to its end, or to the access that stops it; the active operation then holds the remainder (R282,
R356, R410). -/
def routeRun (s : State) (e : EngId) (o : EngOp) : State × Option EngStop :=
  match routeReady s e o with
  | .error (s, st) => (s, some st)
  | .ok (s, o) =>
    let (s, rest, st) := engPerform s e o (cutWrites o (o.todo.getD []))
    (s.setEngine e (some { o with todo := some rest, prog := tokensDone o rest }), st)

/-- A write of an operation stalls: a matrix operation of its task still reads there (R201). -/
def writeHeld (s : State) (o : EngOp) (reg off n : Nat) : Bool :=
  let a := (cursor (engReg o.regs reg).bits).toNat
  let sp := decide (a < 0x100000)
  n ≠ 0 && (s.core o.core).locks.any fun m =>
    m.matrix && m.read && m.task = o.task && m.spad = sp && m.asid = (if sp then 0 else o.asid)
      && overlap (a + off) (a + off + n) m.lo m.hi

/-- A routing operation stalls before its writes (R201). -/
def routeHeld (s : State) (e : EngId) (o : EngOp) : Bool :=
  match routeReady s e o with
  | .ok (s, o) => (o.todo.getD []).any fun w => writeHeld s o w.reg w.off w.bytes.length
  | .error _ => false

/-! Exchange -/

/-- The tables of an exchange: by rank the peer word, and the counts and offsets (R411). -/
def exchTables (s : State) (e : EngId) (o : EngOp) : EngTry (State × List Nat × List (Nat × Nat) × List (Nat × Nat)) := do
  let p := (xcCfg o.regs).size
  let pairs := fun (bs : List Byte) => (numbersOf 8 bs).map fun w => (w % 2 ^ 32, w / 2 ^ 32)
  let (s, a) ← engRead s e o 4 0 (2 * p)
  let (s, b) ← engRead s e o 2 0 (8 * p)
  let (s, c) ← engRead s e o 3 0 (8 * p)
  .ok (s, numbersOf 2 a, pairs b, pairs c)

/-- A rank entry within R411. -/
def peerOk (s : State) (die : Nat) (c : XcCfg) (q w : Nat) : Bool :=
  let chip : Byte := BitVec.ofNat 8 (w / 2 ^ 8)
  if q = c.rank then w % 8 = die && (!c.pod || chip = s.chip)
  else if c.pod then (sget 0 s.fabric.route chip.toNat).getLsbD 4
  else s.dieEnabled (w % 8)

/-- The error of the tables (R499), or 0. -/
def exchErr (s : State) (die : Nat) (o : EngOp) (peer : List Nat) (send recv : List (Nat × Nat)) : BitVec 4 :=
  let c := xcCfg o.regs
  if peer.zipIdx.any fun p => !peerOk s die c p.2 p.1 then 5
  else if send.any fun x => toTop (engReg o.regs 0) < x.1 + x.2 then 3
  else if recv.any fun x => toTop (engReg o.regs 1) < x.1 + x.2 then 4
  else if c.rows && recv.any fun x => x.1 % c.rowBytes ≠ 0 then 4
  else 0

/-- The tables read and checked into the active operation; a failing one has zero counts (R499). -/
def exchCheck (s : State) (die : Nat) (o : EngOp) : EngTry State := do
  let (s, peer, send, recv) ← exchTables s (.exch die) o
  let err := exchErr s die o peer send recv
  let zero := (List.range (xcCfg o.regs).size).map fun _ => (0, 0)
  .ok (s.setEngine (.exch die) (some (
    if err = 0 then { o with checked := true, peer := peer, send := send, recv := recv }
    else { o with checked := true, peer := peer, send := zero, recv := zero, err := err })))

/-- The set of core k becomes the active operation (R278); an exchange reads and checks its tables (R499). -/
def swapIn (s : State) (e : EngId) (k : Nat) : State :=
  let h := (s.core k).shadow (isExch e)
  let t := h.owner.getD 0
  let o := engOpOf k (isExch e) (s.task t).asid h t
  let s := ((s.setEngine e (some o)).setLast e k).onShadow k (isExch e) fun h => { h with ready := false }
  let s := wakeEngine s k (isExch e)
  match e with
  | .exch d => if o.checked then s else match exchCheck s d o with | .ok s' => s' | .error _ => s
  | .route _ => s

/-- ENG.GO (R280). DESIGN CHOICE: no endpoint buffer is tested, here or at the engine's accesses, since R231 names stores and loads only: an
operation that writes a buffer, or reads another task's, goes through (log entry 23). -/
def execEngGo (g : Guard) (e : BitVec 5) (s : State) : Out :=
  guarded g 4 s fun s => do
    let x := decide (e = 1)
    let id := engineOf s.cur x
    engHeld s e (.engGo g e)
    match s.engine id with
    | some o =>
      if o.faulted && o.task = s.curTid then return retire (s.setEngine id (some { o with faulted := false })) 4
    | none => pure ()
    setFree s x
    let h := s.me.shadow x
    failIf h.ready (.wait (.engine x))
    let fs := engFootprints x h.regs
    checkFoot h.regs fs
    checkReadRanges s x h.regs fs
    let op := s.me.nextOp
    let t := s.curTid
    let sup := s.curTask.sup.priv
    let ls := (fs.filter fun f => f.2 ≠ 0).map (engLock s op h.regs)
    let k := s.cur
    let s := (retire s 4).onCore k fun c =>
      { c with nextOp := op + 1, locks := c.locks ++ ls }.setShadow x { h with owner := some t, ready := true, op := op, sup := sup }
    pure (match s.engine id with
      | none => swapIn s id ((nextReady s id).getD k)
      | some _ => s)

/-- An operation of the task is ready or active on its engine e (R279). -/
def engPending (s : State) (e : Bool) : Bool :=
  let h := s.me.shadow e
  (h.ready && h.owner = some s.curTid)
    || (match s.engine (engineOf s.cur e) with | some o => o.task = s.curTid | none => false)

/-- ENG.WAIT (R278, R279). -/
def execEngWait (g : Guard) (e : BitVec 5) (s : State) : Out :=
  guarded g 4 s fun s => do
    let x := decide (e = 1)
    engHeld s e (.engWait g e)
    failIf (engPending s x) (.wait (.engine x))
    let t := s.curTid
    let k := s.cur
    let s := (retire s 4).onShadow k x fun h => if h.owner = some t then { h with owner := none } else h
    pure (wakeEngine s k x)

/-! What the engine does by itself -/

/-- ENGINE_SWAP (R278, R280): only an idle engine takes the next ready set. -/
def execEngineSwap (e : EngId) (s : State) : Out :=
  match s.engine e, nextReady s e with
  | none, some k => .next (swapIn s e k)
  | _, _ => .next s

/-- Adds to the counter slot that a note names (R283, R284). DESIGN CHOICE: a note_slot at or above the task's declared count
notes nothing (log entry 23). -/
def noteSlot (s : State) (o : EngOp) (slot : BitVec 4) (n : Nat) : State :=
  if o.dropped || (s.task o.task).barriers ≤ slot.toNat then s
  else match physSlot (s.core o.core) (s.task o.task).job slot.toNat with
    | some k => slotAdd s o.core k (BitVec.ofNat 32 n)
    | none => s

/-- An operation ends: its ranges go, its status is set, waiters test again (R174, R280, R281). The task of a killed job then
ends (R318). -/
def endOp (s : State) (e : EngId) (o : EngOp) (err : BitVec 4) (drop : Nat) : State :=
  let s := s.setEngine e none
  let s := s.onCore o.core fun c => { c with locks := c.locks.filter fun l => !(l.op = o.op && l.task = o.task && !l.matrix) }
  let s := s.onShadow o.core (isExch e) fun h => { h with
    errs := sset 0 h.errs o.task.toNat err, done := h.done + 1, dropped := h.dropped + BitVec.ofNat 32 drop }
  let s := wakeEngine (wakeLocks s) o.core (isExch e)
  if o.dropped then
    let job := (s.task o.task).job
    finishKill (terminate s o.task) job
  else s

/-- What the active operation does next; a stop leaves performed what was finished (R282). -/
inductive EngNext
  | idle
  | waits
  | ends (s : State) (err : BitVec 4) (drop : Nat) (prog : Nat)
  | stops (s : State) (st : EngStop)
  deriving DecidableEq, Repr

/-- The die whose engine holds rank q of the exchange of operation o (R284, R411, R412, R499). -/
def memberDie (s : State) (o : EngOp) (q : Nat) : Option Nat :=
  let c := xcCfg o.regs
  let fits := fun d => match (s.die d).eng with
    | some p =>
      let b := xcCfg p.regs
      p.checked && !p.joined && !p.faulted && !b.pod && b.match_ = c.match_ && b.size = c.size && b.rank = q
    | none => false
  if o.err = 0 then (let d := o.peer.getD q 0 % 8; if fits d then some d else none)
  else (List.range 8).find? fits

/-- Every rank of an exchange, by die; none while one is missing. -/
def membersOf (s : State) (o : EngOp) : Option (List Nat) := (List.range (xcCfg o.regs).size).mapM (memberDie s o)

def exchOp (s : State) (d : Nat) : EngOp := (s.die d).eng.getD (engOpOf 0 true 0 .zero 0)

/-- Bytes from an address to the end of its 64 KiB page. -/
def pageRest (a : Nat) : Nat := 65536 - a % 65536

/-- Moves bytes from XC_SRC + os of operation a to XC_DST + od of operation b, from byte k on up to n, page by page: the state, how
many are then moved, and a stop with the die whose access it is (R282, R412). -/
def moveBytes (dr : Nat) (a : EngOp) (os dq : Nat) (b : EngOp) (od n : Nat) : Nat → State → Nat → State × Nat × Option (Nat × EngStop)
  | 0, s, k => (s, k, none)
  | fuel + 1, s, k =>
    let m := min (n - k) (min (pageRest ((engAddr a.core (engReg a.regs 0)).1 + os + k))
      (pageRest ((engAddr b.core (engReg b.regs 1)).1 + od + k)))
    if m = 0 then (s, k, none)
    else match engRead s (.exch dr) a 0 (os + k) m with
      | .error (s, st) => (s, k, some (dr, st))
      | .ok (s, bs) =>
        match engWrite s (.exch dq) b 1 (od + k) bs with
        | .error (s, st) => (s, k, some (dq, st))
        | .ok s => moveBytes dr a os dq b od n fuel s (k + m)

/-- Bytes that an operation has moved to a rank. -/
def movedTo (o : EngOp) (q : Nat) : Nat := match o.moved.find? fun p => p.1 = q with | some p => p.2 | none => 0

/-- Moves what is left of rank r's bytes for rank q, the smaller of the two counts in all (R412). -/
def movePair (s : State) (dr dq r q : Nat) : State × Option (Nat × EngStop) :=
  let a := exchOp s dr
  let b := exchOp s dq
  let (cs, os) := a.send.getD q (0, 0)
  let (cr, or_) := b.recv.getD r (0, 0)
  let n := min cs cr
  let (s, k, st) := moveBytes dr a os dq b or_ n (n / 32768 + 4) s (movedTo a q)
  (s.setEngine (.exch dr) (some { a with moved := (q, k) :: a.moved.filter fun p => p.1 ≠ q }), st)

/-- The write of rank r's bytes at rank q stalls (R201). -/
def pairHeld (s : State) (a b : EngOp) (r q : Nat) : Bool :=
  let (cr, or_) := b.recv.getD r (0, 0)
  writeHeld s b 1 or_ (min (a.send.getD q (0, 0)).1 cr)

/-- A write of an exchange among dies stalls (R201). -/
def exchHeld (s : State) (ds : List Nat) : Bool :=
  let n := ds.length
  (List.range n).any fun r => (List.range n).any fun q => pairHeld s (exchOp s (ds.getD r 0)) (exchOp s (ds.getD q 0)) r q

def movePairs (s : State) (ds : List Nat) : List (Nat × Nat) → State × Option (Nat × EngStop)
  | [] => (s, none)
  | (r, q) :: ps =>
    match movePair s (ds.getD r 0) (ds.getD q 0) r q with
    | (s, none) => movePairs s ds ps
    | x => x

/-- The smaller nonzero error (R281). -/
def firstErr (a b : BitVec 4) : BitVec 4 := if a = 0 then b else if b = 0 then a else if a.toNat ≤ b.toNat then a else b

/-- The outcome of the moves at one rank: unequal counts end with err 3 at the sender, 4 at the receiver; the notes due
(R284, R412). `mine` and `theirs` are, by rank, this rank's and the peers' counts: sent here, wanted there, received here, sent
there. -/
def settle (o : EngOp) (sent wanted recv offered : List Nat) : EngOp :=
  let c := xcCfg o.regs
  let e3 := if (sent.zip wanted).any fun p => p.1 ≠ p.2 then 3#4 else 0
  let e4 := if (recv.zip offered).any fun p => p.1 ≠ p.2 then 4#4 else 0
  let got := (recv.zip offered).map fun p => min p.1 p.2
  let amounts := got.map fun n => if c.rows then n / c.rowBytes else n
  { o with joined := true, err := if o.err = 0 then firstErr e3 e4 else o.err, prog := BitVec.ofNat 64 got.sum,
           notes := if c.note && o.err = 0 && !o.dropped then (amounts.zipIdx.filter fun p => p.1 ≠ 0).map fun p => (p.2, p.1) else [] }

/-- Joins an exchange among the dies of this chip (R412): done, or stopped with what was moved (R282). -/
def joinDies (s : State) (ds : List Nat) : State × Option (Nat × EngStop) :=
  let n := ds.length
  let pairs := (List.range n).flatMap fun r => (List.range n).map fun q => (r, q)
  let (s, st) := movePairs s ds pairs
  let ops := ds.map (exchOp s)
  let f := fun (i : Nat) (o : EngOp) =>
    if st.isNone then
      settle o (o.send.map (·.1)) (ops.map fun b => (b.recv.getD i (0, 0)).1) (o.recv.map (·.1)) (ops.map fun a => (a.send.getD i (0, 0)).1)
    else { o with prog := BitVec.ofNat 64 (ops.map fun a => movedTo a i).sum }
  (ds.zipIdx.foldl (fun s p => s.setEngine (.exch p.1) (some (f p.2 (exchOp s p.1)))) s, st)

/-- What the active operation of an engine does next (R280, R282, R356, R498, R499). -/
def engNext (s : State) (e : EngId) : EngNext :=
  match s.engine e with
  | none => .idle
  | some o =>
    if o.faulted then .waits
    else match e with
      | .route _ =>
        if o.err ≠ 0 then .ends s o.err 0 0
        else if routeHeld s e o then .waits
        else match routeRun s e o with
          | (s', none) => .ends s' 0 ((s'.engine e).getD o).drop (rtCfg o.regs).ntok
          | (s', some st) => .stops s' st
      | .exch d =>
        if o.joined then (if o.notes = [] then .ends s o.err 0 o.prog.toNat else .waits)
        else if !o.checked then
          (match exchTables s e o with | .error (s', st) => .stops s' st | .ok _ => .waits)
        else if (xcCfg o.regs).pod then .waits
        else match membersOf s o with
          | none => .waits
          | some ds =>
            if exchHeld s ds then .waits
            else match joinDies s ds with
            | (s', some (x, st)) => if x = d then .stops s' st else .waits
            | (_, none) => .waits

/-- ENGINE_COMPLETION (R280): release, ranges removed, then the note of a routing operation (R283), one with an invalid register as well. -/
def execEngineCompletion (e : EngId) (s : State) : Out :=
  match s.engine e, engNext s e with
  | some o, .ends s' err drop _ =>
    let s' := endOp s' e o err drop
    let c := rtCfg o.regs
    .next (if isExch e || !c.note then s' else noteSlot s' o c.slot 1)
  | _, _ => .next s

/-- The information word of ENGINE_FAULT (R282). -/
def engFaultInfo (e : Bool) (va : Nat) (w : Bool) : W64 := BitVec.ofNat 64 (va % 2 ^ 52 + bit w 52 + bit e 53)

/-- An operation that ends early leaves its exchange: what the other ranks moved for it counts no more. -/
def leaveExchange (s : State) (e : EngId) (o : EngOp) : State :=
  if isExch e then
    let c := xcCfg o.regs
    (List.range 8).foldl (fun s d =>
      match (s.die d).eng with
      | some p =>
        if (xcCfg p.regs).match_ = c.match_ && (xcCfg p.regs).size = c.size then
          s.setEngine (.exch d) (some { p with moved := p.moved.filter fun m => m.1 ≠ c.rank })
        else s
      | none => s) s
  else s

/-- The stop of an operation: FAULTED with ENGINE_FAULT, or its end with BUS_ERROR or MEM_UE (R282, R356, R498). A faulted
operation of a killed job is dropped (log entry 22). -/
def engStop (s : State) (e : EngId) (o : EngOp) : EngStop → State
  | .fault va w =>
    if o.dropped then endOp s e o 0 0
    else
      let info := engFaultInfo (isExch e) va w
      raiseAsync ((s.setEngine e (some { o with faulted := true })).onShadow o.core (isExch e) fun h => { h with faddr := info })
        o.task .engineFault info
  | .bus va => endOp (let s := leaveExchange s e o; if o.dropped then s else raiseAsync s o.task .busError (BitVec.ofNat 64 va)) e o 0xE 0
  | .ue va pa =>
    let s := match pa with | some p => closeFramesOf s o.core o.task p 1 | none => s
    endOp (let s := leaveExchange s e o; if o.dropped then s else raiseAsync s o.task .memUe (BitVec.ofNat 64 va)) e o 0xF 0

/-- The stop that the active operation meets next, over the state with what it finished. -/
def stopNow (s : State) (e : EngId) (sel : EngStop → Bool) : Out :=
  match engNext s e with
  | .stops s' st =>
    match s'.engine e with
    | some o => .next (if sel st then engStop s' e o st else s)
    | none => .next s
  | _ => .next s

/-- ENGINE_FAULT (R282). -/
def execEngineFault (e : EngId) (s : State) : Out := stopNow s e fun st => match st with | .fault _ _ => true | _ => false
/-- ENGINE_BUS_ERROR (R498). -/
def execEngineBusError (e : EngId) (s : State) : Out := stopNow s e fun st => match st with | .bus _ => true | _ => false
/-- ENGINE_UE (R356). -/
def execEngineUe (e : EngId) (s : State) : Out := stopNow s e fun st => match st with | .ue _ _ => true | _ => false

/-- Moves between this die's rank and one rank of another chip (R412); a replay absorbs what is sent (R421). -/
def moveOff (s : State) (d : Nat) (p : ExPeer) : EngTry State := do
  let o := exchOp s d
  let (cs, os) := o.send.getD p.rank (0, 0)
  let (cr, or_) := o.recv.getD p.rank (0, 0)
  let (s, bs) ← engRead s (.exch d) o 0 os (min cs p.want)
  let s ← engWrite s (.exch d) o 1 or_ (p.data.take cr)
  .ok (if s.fabric.alogCtl.getLsbD 3 then s
    else { s with sent := s.sent ++ [.exchange d p.rank (BitVec.ofNat 8 (o.peer.getD p.rank 0 / 2 ^ 8)) bs] })

def moveOffs (s : State) (d : Nat) : List ExPeer → State × Option EngStop
  | [] => (s, none)
  | p :: ps =>
    match moveOff s d p with
    | .ok s => moveOffs s d ps
    | .error (s, st) => (s, some st)

/-- Joins an exchange between chips, whose other ranks arrive from outside (R412). One that stops keeps what it wrote, and its
pairs move again when it goes on (R282). -/
def joinPod (s : State) (d : Nat) (o : EngOp) (l : List ExPeer) : State × Option EngStop :=
  let c := xcCfg o.regs
  let at_ := fun (q : Nat) => l.find? fun p => p.rank = q
  let (s1, st) := match movePair s d d c.rank c.rank with | (s, none) => moveOffs s d l | (s, some x) => (s, some x.2)
  if st.isSome then ({ s1 with sent := s.sent }, st)
  else
  let wanted := (List.range c.size).map fun q => match at_ q with | some p => p.want | none => (o.recv.getD c.rank (0, 0)).1
  let offered := (List.range c.size).map fun q => match at_ q with | some p => p.data.length | none => (o.send.getD c.rank (0, 0)).1
  (s1.setEngine (.exch d) (some (settle o (o.send.map (·.1)) wanted (o.recv.map (·.1)) offered)), none)

/-- A write of an exchange between chips stalls (R201). -/
def podHeld (s : State) (o : EngOp) (l : List ExPeer) : Bool :=
  let r := (xcCfg o.regs).rank
  pairHeld s o o r r || l.any fun p =>
    let (cr, or_) := o.recv.getD p.rank (0, 0)
    writeHeld s o 1 or_ (min cr p.data.length)

/-- What off-chip ranks bring is one entry for every other rank. -/
def bringsAll (c : XcCfg) (l : List ExPeer) : Bool :=
  (List.range c.size).all fun q => if q = c.rank then !(l.any fun p => p.rank = q) else (l.filter fun p => p.rank = q).length = 1

/-- Logs what the ranks of other chips bring to the exchange engine, at the router of cluster 36 (R412, R419). -/
def logExchange (s : State) (die : Nat) (o : EngOp) (l : List ExPeer) : State :=
  l.foldl (fun s p =>
    let chip : Byte := BitVec.ofNat 8 (o.peer.getD p.rank 0 / 2 ^ 8)
    alogPut s ((podFibre s chip).getD 0) ⟨chip, false, 320 * die + 144, Config.podHeader s.tick, p.data⟩ (.exchange die p)) s

/-- What is at hand for an exchange of a die, the first of each rank: what a replay has re-injected (R421), or what had arrived when its
operation faulted (R282). -/
def replayedFor (s : State) (die : Nat) (c : XcCfg) : List ExPeer :=
  (List.range c.size).filterMap fun q =>
    if q = c.rank then none else (s.fabric.replayed.find? fun p => p.1 = die && p.2.rank = q).map fun p => p.2

/-- Data at hand for an exchange is used up. -/
def useUp (s : State) (die : Nat) (l : List ExPeer) : State :=
  { s with fabric := { s.fabric with replayed := l.foldl (fun r p => r.erase (die, p)) s.fabric.replayed } }

/-- The exchange between chips joins what `l` brings. What arrives now is logged, however the join ends (R419); a faulted operation keeps it at
hand for when it goes on (R282). -/
def joinChips (s : State) (die : Nat) (o : EngOp) (l : List ExPeer) : State :=
  let fresh := !l.all fun p => s.fabric.replayed.contains (die, p)
  match joinPod (if fresh then logExchange s die o l else s) die o l with
  | (s', none) => useUp s' die l
  | (s', some (.fault va w)) =>
    let s' := if fresh then { s' with fabric := { s'.fabric with replayed := s'.fabric.replayed ++ l.map fun p => (die, p) } } else s'
    engStop s' (.exch die) (exchOp s' die) (.fault va w)
  | (s', some st) => engStop (useUp s' die l) (.exch die) (exchOp s' die) st

/-- EXCHANGE_JOIN (R412): once every rank carries the same match and size, the bytes of all pairs move. In a replay the ports take
nothing from their fibres (R421, R452). -/
def execExchangeJoin (die : Nat) (arrived : List ExPeer) (s : State) : Out :=
  match (s.die die).eng with
  | none => .next s
  | some o =>
    if o.faulted || o.joined then .next s
    else if !o.checked then .next (match exchCheck s die o with | .ok s' => s' | .error _ => s)
    else if (xcCfg o.regs).pod then
      let had := replayedFor s die (xcCfg o.regs)
      let l := if s.fabric.alogCtl.getLsbD 3 || bringsAll (xcCfg o.regs) had then had else arrived
      (if bringsAll (xcCfg o.regs) l && l.all (fun p => p.rank < (xcCfg o.regs).size) && !podHeld s o l then .next (joinChips s die o l)
       else .next s)
    else match membersOf s o with
      | none => .next s
      | some ds => .next (if exchHeld s ds then s else match joinDies s ds with | (s', none) => s' | (_, some _) => s)

/-- EXCHANGE_NOTE (R284): the bytes of one rank are noted. -/
def execExchangeNote (die rank : Nat) (s : State) : Out :=
  match (s.die die).eng with
  | some o =>
    match o.notes.find? fun p => p.1 = rank with
    | some (_, n) =>
      .next (noteSlot (s.setEngine (.exch die) (some { o with notes := o.notes.filter fun p => p.1 ≠ rank })) o (xcCfg o.regs).slot n)
    | none => .next s
  | none => .next s

end Sys2Proof.Machine
end

