-- ==== Sys2Proof/Machine/SysRegs.lean ====
section
/-! DEFINITION. The system registers by number (R35 to R41, R141, R276, R327, R359, R433, R438, R439, R442): what a read
returns, what a write does. -/

namespace Sys2Proof.Machine

/-- Registers of supervisor level (R35, R276, R359, R433, R438, R442). -/
def supervisorSr (n : Nat) : Bool :=
  (0x100 ≤ n && n ≤ 0x2FF) || (0x402 ≤ n && n ≤ 0x404) || (0x500 ≤ n && n ≤ 0x50C) || n = 0x601

/-- GOV_EST (R433). -/
def govEst (s : State) (k : Nat) : W64 :=
  let g := (s.core k).gov
  let st := match g.kind with | .unheld => 0 | .active => 1 | .ballast => 2
  BitVec.ofNat 64 (g.est % 2 ^ 16 + st * 2 ^ 16 + g.q % 8 * 2 ^ 18 + bit (s.pinnedCore k) 21)

/-- Ballast cycles with those of the run in progress (R428, R433). -/
def ballastNow (s : State) (c : Core) : BitVec 48 := c.gov.ballast + BitVec.ofNat 48 (c.ballastRun s.timebase)

/-- Cycles that tasks of a core waited for tickets, with those of the waits in progress: queued starts and held wakes (R426, R433). -/
def rampwNow (s : State) (k : Nat) : BitVec 48 :=
  let g := (s.core k).gov
  g.rampw + ((g.held.map fun p => p.2) ++ (s.heldStarts k).map fun t => t.since).foldl (fun n a => n + (s.timebase - a).setWidth 48) 0

/-- GOV_RAMPW is written: waits in progress count from then on (R433). -/
def rampwWrite (s : State) (k : Nat) (v : BitVec 48) : State :=
  let s := (s.heldStarts k).foldl (fun s t => s.onTask t.gtid fun x => { x with since := s.timebase }) s
  s.onCore k fun c => { c with gov := { c.gov with rampw := v, held := c.gov.held.map fun p => (p.1, s.timebase) } }

/-- A handler is bound to a counter slot by BIND (R28, R260); an endpoint's link binds none. -/
def slotBound (c : Core) (n : Nat) : Bool := (c.counter n).trig.isSome

/-- Bits [95:64] of a counter slot (R28, R35). -/
def cslotHigh (c : Core) (n : Nat) : W64 :=
  BitVec.ofNat 64 (bit (c.counter n).phase 0 + bit (slotBound c n) 1 + (c.counter n).fire.toNat * 2 ^ 16)

/-- A ring's register at an offset from its control register: 0 control, 1 base, 2 length, 3 written, 4 start or lost (R438,
R442). -/
def slogRead (r : Ring) : Nat → W64
  | 0 => r.ctl | 1 => r.base | 2 => r.len | 3 => r.wr | 4 => r.t0 | _ => r.lost.setWidth 64

/-- A register of the task (R35, R141, R327, R359, R439). -/
def taskSr (x : Task) (n : Nat) : Option W64 :=
  match n with
  | 0x000 => some x.tstat | 0x001 => some x.tr.tvec | 0x002 => some x.tr.tepc | 0x003 => some x.tr.tcause
  | 0x004 => some x.tr.tinfo | 0x008 => some (x.gtid.setWidth 64) | 0x009 => some (x.job.setWidth 64) | 0x00B => some x.khdr
  | 0x00C => some x.l0.lb | 0x00D => some x.l0.le | 0x00E => some x.l1.lb | 0x00F => some x.l1.le
  | 0x011 => some (x.fflags.setWidth 64) | 0x012 => some (BitVec.ofNat 64 (bit x.sat 0)) | 0x013 => some ((x.p ||| 1).setWidth 64)
  | 0x014 => some (x.l0.lc.setWidth 64) | 0x015 => some (x.l1.lc.setWidth 64)
  | 0x020 => some (x.counts.blocks.setWidth 64) | 0x021 => some (x.counts.squash.setWidth 64)
  | 0x022 => some (x.counts.fetchb.setWidth 64) | 0x023 => some (x.counts.hops.setWidth 64)
  | 0x100 => some x.sstat | 0x102 => some x.sup.sepc | 0x103 => some x.sup.scause | 0x104 => some x.sup.sinfo
  | 0x106 => some x.sup.spccm
  | 0x510 => some (x.counts.lod.setWidth 64) | 0x511 => some (x.counts.mxw.setWidth 64) | 0x512 => some (x.counts.hint.setWidth 64)
  | 0x600 => some (x.asid.setWidth 64)
  | 0x610 => some (x.counts.dmiss.setWidth 64) | 0x611 => some (x.counts.walks.setWidth 64)
  | 0x612 => some (x.counts.parks.setWidth 64) | 0x613 => some (x.counts.parkcc.setWidth 64)
  | _ => none

/-- A register of the core (R35, R41, R359, R433, R438, R442). DESIGN CHOICE: CYCLE counts from the reset event itself, also while the
cores are held until phase 3 (R5, R49, R454; log entry 28). -/
def coreSr (s : State) (k n : Nat) : W64 :=
  let c := s.core k
  match n with
  | 0x00A => coreId s.chip k
  | 0x010 => s.timebase - c.cycle0
  | 0x101 => c.stvec
  | 0x105 => c.sscratch
  | 0x120 => BitVec.ofNat 64 (bit c.debugEn 0)
  | 0x400 => govEst s k
  | 0x402 => (ballastNow s c).setWidth 64
  | 0x403 => (rampwNow s k).setWidth 64
  | 0x404 => c.gov.tickets.setWidth 64
  | 0x508 => c.trc.ctl
  | 0x509 => c.trc.base
  | 0x50A => c.trc.len
  | 0x50B => c.trc.wr
  | 0x50C => c.trc.lost.setWidth 64
  | 0x601 => c.lasid.setWidth 64
  | n =>
    if 0x200 ≤ n && n ≤ 0x20F then (c.counter (n - 0x200)).target ++ (c.counter (n - 0x200)).count
    else if 0x210 ≤ n && n ≤ 0x21F then cslotHigh c (n - 0x210)
    else if 0x500 ≤ n && n ≤ 0x505 then slogRead c.slog (n - 0x500)
    else 0

/-- MFS: a system register of the executing task (R275). -/
def srRead (s : State) (n : Nat) : W64 := (taskSr s.curTask n).getD (coreSr s s.cur n)

/-- A write to a register of the task; read-only ones stay (R8, R35, R36 to R40). -/
def taskSrWrite (x : Task) (n : Nat) (v : W64) : Task :=
  let c := v.setWidth 48
  match n with
  | 0x000 => { x with tr := { x.tr with inTrap := v.getLsbD 0 } }
  | 0x001 => { x with tr := { x.tr with tvec := v &&& ~~~3 } }
  | 0x002 => { x with tr := { x.tr with tepc := v } }
  | 0x003 => { x with tr := { x.tr with tcause := v &&& causeBits } }
  | 0x004 => { x with tr := { x.tr with tinfo := v } }
  | 0x00C => { x with l0 := { x.l0 with lb := v } }
  | 0x00D => { x with l0 := { x.l0 with le := v } }
  | 0x00E => { x with l1 := { x.l1 with lb := v } }
  | 0x00F => { x with l1 := { x.l1 with le := v } }
  | 0x011 => { x with fflags := x.fflags &&& ~~~(v.setWidth 5) }
  | 0x012 => { x with sat := v.getLsbD 0 }
  | 0x013 => { x with p := v.setWidth 8 ||| 1 }
  | 0x014 => { x with l0 := { x.l0 with lc := v.setWidth 32 } }
  | 0x015 => { x with l1 := { x.l1 with lc := v.setWidth 32 } }
  | 0x020 => { x with counts := { x.counts with blocks := c } }
  | 0x021 => { x with counts := { x.counts with squash := c } }
  | 0x022 => { x with counts := { x.counts with fetchb := c } }
  | 0x023 => { x with counts := { x.counts with hops := c } }
  | 0x100 => { x with sup := { x.sup with prevPriv := v.getLsbD 1 } }
  | 0x102 => { x with sup := { x.sup with sepc := v } }
  | 0x103 => { x with sup := { x.sup with scause := v &&& causeBits } }
  | 0x104 => { x with sup := { x.sup with sinfo := v } }
  | 0x510 => { x with counts := { x.counts with lod := c } }
  | 0x511 => { x with counts := { x.counts with mxw := c } }
  | 0x512 => { x with counts := { x.counts with hint := c } }
  | 0x610 => { x with counts := { x.counts with dmiss := c } }
  | 0x611 => { x with counts := { x.counts with walks := c } }
  | 0x612 => { x with counts := { x.counts with parks := c } }
  | 0x613 => { x with counts := { x.counts with parkcc := c } }
  | _ => x

/-- A write to a control register of a ring: `kinds` are its record-kind bits; full is W1C; en going to 1 restarts the count
and the start time (R438, R442). -/
def ringCtl (r : Ring) (now v kinds : W64) : Ring :=
  let full := r.ctl &&& 4 &&& ~~~v
  let r' := { r with ctl := (v &&& (3 ||| kinds)) ||| full }
  if v.getLsbD 0 && !r.ctl.getLsbD 0 then { r' with wr := 0, t0 := now } else r'

/-- A write to SLOG_CTL: log state is timed from en's rise (R436, R438). -/
def slogControl (s : State) (k : Nat) (v : W64) : State :=
  s.onCore k fun c => { c with slog := ringCtl c.slog s.timebase v 0,
                               logAt := if v.getLsbD 0 && !c.slog.ctl.getLsbD 0 then s.timebase else c.logAt }

/-- Base and length bits of a ring (R438). -/
def ringBase (v : W64) : W64 := v &&& 0x3FFFFFFFFFC0
def ringLen (v : W64) : W64 := v &&& 0xFFFFFFC0

/-- A write to a register of the core; read-only ones stay (R35, R41, R359, R433, R438, R442). -/
def coreSrWrite (s : State) (k n : Nat) (v : W64) : State :=
  let c48 := v.setWidth 48
  match n with
  | 0x101 => s.onCore k fun c => { c with stvec := v }
  | 0x105 => s.onCore k fun c => { c with sscratch := v }
  | 0x120 => s.onCore k fun c => { c with debugEn := v.getLsbD 0 }
  | 0x402 => (s.settleBallast k).onCore k fun c => { c with gov := { c.gov with ballast := c48 } }
  | 0x403 => rampwWrite s k c48
  | 0x404 => s.onCore k fun c => { c with gov := { c.gov with tickets := c48 } }
  | 0x500 => slogControl s k v
  | 0x501 => s.onCore k fun c => { c with slog := { c.slog with base := ringBase v } }
  | 0x502 => s.onCore k fun c => { c with slog := { c.slog with len := ringLen v } }
  | 0x505 => s.onCore k fun c => { c with slog := { c.slog with lost := c48 } }
  | 0x508 => s.onCore k fun c => { c with trc := ringCtl c.trc s.timebase v 0x38 }
  | 0x509 => s.onCore k fun c => { c with trc := { c.trc with base := ringBase v } }
  | 0x50A => s.onCore k fun c => { c with trc := { c.trc with len := ringLen v } }
  | 0x50C => s.onCore k fun c => { c with trc := { c.trc with lost := c48 } }
  | 0x601 => s.onCore k fun c => { c with lasid := v.setWidth 16 }
  | n =>
    if 0x200 ≤ n && n ≤ 0x20F then
      slotUpdate s k (n - 0x200) fun c => { c with count := v.setWidth 32, target := v.extractLsb' 32 32 }
    else s

/-- MTS: a write to a system register by the executing task (R275). -/
def srWrite (s : State) (n : Nat) (v : W64) : State :=
  if (taskSr s.curTask n).isSome then s.onCur fun x => taskSrWrite x n v else coreSrWrite s s.cur n v

end Sys2Proof.Machine
end

