-- ==== Sys2Proof/Machine/System.lean ====
section
/-! DEFINITION. Traps by instruction and returns (R274), asynchronous entry (R270, R272), HANDLER_BUDGET (R273), MFS and MTS
(R275), TLBI (R277), towers (R285 to R288, R427), pinning (R289), trace marks (R291), acknowledgements (R158), parking and
replay events (R346 to R353). -/

namespace Sys2Proof.Machine

/-! Traps and returns -/

/-- TRAP (R274). -/
def execTrap (g : Guard) (i : BitVec 11) (s : State) : Out :=
  guarded g 4 s fun _ => .error (.trap .syscall (i.setWidth 64))

/-- BRK (R274, R445). -/
def execBrk (g : Guard) (s : State) : Out :=
  guarded g 4 s fun s => .error (if s.me.debugEn then .brk 0 else .trap .illegalInstr (wordInfo (.brk g)))

/-- TRET (R274): it transfers control. -/
def execTret (g : Guard) (s : State) : Out :=
  .next (s.onCur fun x => if x.guardOk g then x.settle.tret else x.advance 4)

/-- SRET (R274): privileged; a held asynchronous trap is taken at the restored boundary. -/
def execSret (g : Guard) (s : State) : Out :=
  guarded g 4 s fun s => do
    failIf (!s.curTask.sup.priv) (.trap .priv (headInfo (.sret g)))
    pure (takeHeld (s.onCur fun x => x.settle.sret) s.curTid)

/-- The task of a core that takes an asynchronous trap next: the one that issues, else one that waits in an instruction
(R270, R272). -/
def asyncTask (s : State) (k : Nat) : Option (BitVec 48) :=
  let ok := fun (x : Task) => !x.waitOver && x.held.any x.takeable
  match (s.core k).issuing with
  | some t => if ok (s.task t) then some t else waiting s k ok
  | none => waiting s k ok
where
  waiting (s : State) (k : Nat) (ok : Task → Bool) : Option (BitVec 48) :=
    ((s.tasksOn k).find? fun x => x.status = .waitMsg && x.wait.isSome && x.wait ≠ some .saving && x.ship.isNone && ok x).map fun x => x.gtid

/-- ASYNC_TRAP_ENTRY (R270, R272). -/
def execAsyncTrapEntry (core : Nat) (s : State) : Out :=
  .next (match asyncTask s core with | some t => takeHeld s t | none => s)

/-- HANDLER_BUDGET (R273): 16,384 cc after a high-level task's first instruction, once. -/
def execHandlerBudget (core : Nat) (s : State) : Out :=
  let due := fun (x : Task) =>
    x.high && !x.budgetDone && x.status ≠ .ended && x.status ≠ .stopped
      && (match x.firstIssue with | some n => decide (16384 ≤ (s.timebase - n).toNat) | none => false)
  .next (match (s.tasksOn core).find? due with
    | some x => raiseAsync (s.onTask x.gtid fun x => { x with budgetDone := true }) x.gtid .handlerBudget (x.gtid.setWidth 64)
    | none => s)

/-- POSTED_ATOMIC_UE (R153, R356): MEM_UE in the issuing task, asynchronous. -/
def execPostedAtomicUe (core : Nat) (s : State) : Out :=
  .next (match (s.core core).postedUe with
    | (t, a) :: ps => raiseAsync (s.onCore core fun c => { c with postedUe := ps }) t .memUe a
    | [] => s)

/-! System registers -/

/-- The checks of MFS and MTS at execution (R34, R275): level, and an empty vector queue for FFLAGS. -/
def srCheck (s : State) (n : BitVec 12) (i : Instr) : Eff Unit := do
  failIf (supervisorSr n.toNat && !s.curTask.sup.priv) (.trap .priv (headInfo i))
  failIf (n = 0x011 && s.me.vecq ≠ []) (.wait .vecq)

/-- MFS (R275). -/
def execMfs (g : Guard) (d : BitVec 5) (n : BitVec 12) (s : State) : Out :=
  guarded g 4 s fun s => do
    srCheck s n (.mfs g d n)
    let v := srRead s n.toNat
    pure (s.onCur fun x => (x.setR64 d v).advance 4)

/-- MTS (R275): the loop-end test of its own retirement sees what it wrote (R26). -/
def execMts (g : Guard) (a : BitVec 5) (n : BitVec 12) (s : State) : Out :=
  guarded g 4 s fun s => do
    srCheck s n (.mts g a n)
    let v := s.curTask.r64 a
    let t := s.curTid
    pure (if (taskSr s.curTask n.toNat).isSome then retire (s.onCur fun x => taskSrWrite x n.toNat v) 4
      else coreSrWrite (retireOf s t 4) s.cur n.toNat v)

/-! TLBI -/

/-- Entries that TLBI of kind k removes (R277). -/
def tlbiHits (k : Nat) (asid : W16) (va : Nat) (x : TlbEntry) : Bool :=
  match k with
  | 0 => x.covers asid va
  | 1 => x.asid = asid
  | 2 => x.covers x.asid va
  | _ => true

/-- TLBI over every structure of the package; kinds 1 and 3 clear the walkers' roots (R277, R344). -/
def tlbi (s : State) (k : Nat) (asid : W16) (va : Nat) : State :=
  let keep := fun (l : List TlbEntry) => l.filter fun x => !tlbiHits k asid va x
  let roots := fun (l : List (W16 × W64)) => if k = 1 || 3 ≤ k then [] else l
  { s with
    cores := s.cores.map fun p => (p.1, { p.2 with itlb := keep p.2.itlb, dtlb := keep p.2.dtlb }),
    clusters := s.clusters.map fun p => (p.1, { p.2 with
      l2 := keep p.2.l2, roots := roots p.2.roots, roots1 := roots p.2.roots1 }),
    dies := s.dies.map fun p => (p.1, { p.2 with dtc := keep p.2.dtc, roots := roots p.2.roots }) }

/-- TLBI (R277): privileged. -/
def execTlbi (g : Guard) (a k : BitVec 5) (s : State) : Out :=
  guarded g 4 s fun s => do
    failIf (!s.curTask.sup.priv) (.trap .priv (headInfo (.tlbi g a k)))
    let v := (s.curTask.reg a).bits
    pure (retire (tlbi s k.toNat (v.extractLsb' 64 16) (v.extractLsb' 0 52).toNat) 4)

/-! Towers -/

/-- The core of a bit of a member set, in the aligned 2 by 2 region of clusters that holds a core (R285). -/
def regionCore (k b : Nat) : Nat :=
  let c := k / 4 % 80
  let row := c / 8 / 2 * 2 + b / 4 / 2
  let col := c % 8 / 2 * 2 + b / 4 % 2
  dieOf k * 320 + (row * 8 + col) * 4 + b % 4

/-- The members of a set, in increasing bit order (R285, R321). -/
def memberCores (k : Nat) (m : W16) : List Nat := ((List.range 16).filter fun b => m.getLsbD b).map (regionCore k)

/-- The condition of R287 that a COMPOSE meets first. -/
def composeReason (s : State) (m : W16) : Option Nat :=
  let ms := memberCores s.cur m
  if ms.length < 2 || !ms.contains s.cur then some 0
  else if ms.any s.harvested then some 1
  else if s.curTask.tower ≠ [] then some 2
  else if s.curTask.high then some 3
  else none

/-- Admission to a core is stopped by this COMPOSE, or by another one that is still to drain; a member of another tower never drains
(R285, R287). -/
def memberOpen (s : State) (t : BitVec 48) (k : Nat) : Bool :=
  match (s.core k).towerOf with
  | some o => o = t || ((s.task o).tower = [] && (s.task o).drainedAt.isNone)
  | none => false

/-- A member that has drained: admission to it is stopped, and no task but the initiator runs or is ready (R285). -/
def memberDrained (s : State) (t : BitVec 48) (k : Nat) : Bool :=
  memberOpen s t k
    && !(s.tasksOn k).any fun x => x.gtid ≠ t && (x.status = .running || x.status = .ready || x.status = .suspended)

/-- Tickets that forming a pinned tower takes in the current slot: one for each UNHELD member beside the initiator's core but those whose
ticket's slot has begun, which is charged already (R288, R425, R426, R430). -/
def towerTickets (s : State) (k : Nat) (ms : List Nat) : Nat :=
  (ms.filter fun j => j ≠ k && (s.core j).gov.kind = .unheld && !startDue s j).length

/-- The tickets by which a pinned COMPOSE passes what remains of the slot (R430, site 3). -/
def composeExcess (s : State) (x : Task) (ms : List Nat) : Nat :=
  if x.pinned && !x.rvSkips then towerTickets s x.core ms - (s.gov.rcap - s.gov.rise) else 0

/-- The bank of a register or predicate number, and the load-store bank of an address, among n members (R321). -/
def bankOf (n k : Nat) : Nat := k % n
def lineBank (n : Nat) (a : W64) : Nat := a.toNat / 64 % n
/-- The member that fetches the block at an address (R322). -/
def fetchMember (n : Nat) (a : W64) : Nat := (a.extractLsb' 2 5 ^^^ a.extractLsb' 7 5 ^^^ a.extractLsb' 12 5).toNat % n

/-- Starts COMPOSE: admission stops at every member, and the task waits for them to drain (R285). -/
def beginCompose (s : State) (ms : List Nat) (timeout : W32) : State :=
  let t := s.curTid
  let s := ms.foldl (fun s k => s.onCore k fun c => { c with towerOf := if c.towerOf.isNone then some t else c.towerOf }) s
  s.onTask t fun x => { x with composeTill := some (s.timebase + timeout.setWidth 64), composeSet := ms, drainedAt := none }

/-- The drain of a COMPOSE is in time and complete (R285). -/
def drainDue (s : State) (t : BitVec 48) : Bool :=
  let x := s.task t
  x.drainedAt.isNone && x.composeSet.all (memberDrained s t)
    && match x.composeTill with | some n => decide (s.timebase.toNat ≤ n.toNat) | none => false

/-- Each UNHELD member that holds no ticket takes one, for a pinned COMPOSE one of the current slot (R425, R426, R427); a pinned COMPOSE without enough of them traps and forms no tower
(R288, R430). -/
def bindMembers (s : State) (t : BitVec 48) (f : Task → Task) : State :=
  let x := s.task t
  let n := composeExcess s x x.composeSet
  if n ≠ 0 then
    wake (discardCopies (raise (dissolveTower s t) t .rampViolation (rampInfo 3 0 n) false) x (if x.sup.inStrap then [] else allCopies)) t
  else
    let unheld := x.composeSet.filter fun k =>
      k ≠ x.core && (s.core k).gov.kind = .unheld && (if x.pinned then !startDue s k else (s.core k).gov.start.isNone)
    (unheld.foldl (fun s k => takeTicket s k x.pinned) s).onTask t f

/-- The drain of a COMPOSE, tested within its timeout (R285): once every member has drained, they are the initiator's, that cycle is
kept, and the tickets are requested (R427). -/
def testDrain (s : State) (t : BitVec 48) : State :=
  if drainDue s t then
    let s := (s.task t).composeSet.foldl (fun s k => s.onCore k fun c => { c with towerOf := some t }) s
    bindMembers s t fun x => { x with drainedAt := some s.timebase }
  else s

/-- The drain of every COMPOSE that waits, at the end of each step: a drain within the timeout is seen in its own cycle (R285). -/
def testDrains (s : State) : State :=
  ((s.tasks.map fun p => p.2).filter fun x => x.composeSet ≠ [] && x.drainedAt.isNone).foldl (fun s x => testDrain s x.gtid) s

/-- A drained tower may form: 16 cc after the drain, and every member's ramp slot has begun (R427). -/
def towerReady (s : State) (x : Task) : Bool :=
  (match x.drainedAt with | some n => decide (n.toNat + 16 ≤ s.timebase.toNat) | none => false)
    && x.composeSet.all fun k => (s.core k).gov.kind ≠ .unheld || startDue s k

/-- 16 cc after the drain a member is UNHELD without a ticket: its ballast has tapered away since (R427, R429). -/
def towerLate (s : State) (x : Task) : Bool :=
  (match x.drainedAt with | some n => decide (n.toNat + 16 ≤ s.timebase.toNat) | none => false)
    && x.composeSet.any fun k => (s.core k).gov.kind = .unheld && (s.core k).gov.start.isNone

/-- COMPOSE (R285, R287, R430): its answer comes with TOWER_FORM or COMPOSE_TIMEOUT. -/
def execCompose (g : Guard) (p : BitVec 3) (a b : BitVec 5) (s : State) : Out :=
  guarded g 4 s fun s =>
    let x := s.curTask
    match x.composeTill, x.answer with
    | some _, some v => .ok (s.onCur fun x => ({ x with composeTill := none, answer := none }.setPred p (v = 1)).advance 4)
    | some _, none => .error (.wait .compose)
    | none, _ => do
      let m : W16 := (x.r64 a).setWidth 16
      match composeReason s m with
      | some r => throw (.trap .compose (BitVec.ofNat 64 (m.toNat + r * 2 ^ 16)))
      | none => pure ()
      let ms := memberCores s.cur m
      let n := composeExcess s x ms
      failIf (n ≠ 0) (.trap .rampViolation (rampInfo 3 0 n))
      throw (.after (testDrain (beginCompose s ms ((x.r64 b).setWidth 32)) s.curTid) (.wait .compose))

/-- The task of a core that waits in COMPOSE. -/
def composing (s : State) (k : Nat) : Option Task :=
  (s.tasksOn k).find? fun x => x.status = .waitMsg && x.wait = some .compose && x.composeTill.isSome && x.answer.isNone

/-- TOWER_FORM (R285, R425, R427): every member drained in time, 16 cc ago, and a ticket for each UNHELD one in a slot that has
begun; the energy the initiator's core counts from then on is the tower's (R422). -/
def execTowerForm (core : Nat) (s : State) : Out :=
  match composing s core with
  | none => .next s
  | some x =>
    let t := x.gtid
    if x.drainedAt.isNone then .next (testDrain s t)
    else if !towerReady s x then .next (if towerLate s x then bindMembers s t id else s)
    else
      let s := x.composeSet.foldl (fun s k => (govStart s k x.pinned).1) s
      let s := s.onCore x.core fun c => { c with gov := { c.gov with own := c.gov.energy, energy := 0 } }
      let s := s.onTask t fun x => { x with tower := x.composeSet, composeSet := [], drainedAt := none, answer := some 1, blockLen := 0 }
      .next (wake (x.composeSet.foldl logSlot s) t)

/-- COMPOSE_TIMEOUT (R285): a member has not drained in time; admission resumes, and nothing else changed. -/
def execComposeTimeout (core : Nat) (s : State) : Out :=
  match composing s core, (composing s core).bind fun x => x.composeTill with
  | some x, some till =>
    let t := x.gtid
    if x.drainedAt.isSome || s.timebase.toNat ≤ till.toNat then .next s
    else
      let ms := (s.cores.filter fun p => p.2.towerOf = some t).map fun p => p.1
      let s := s.onTask t fun x => { x with composeSet := [], answer := some 0 }
      .next (wake (ms.foldl (fun s k => dispatch (govIdle (freeMember s k) k) k) s) t)
  | _, _ => .next s

/-- RELEASE (R286, R322): outside a tower it only retires. -/
def execRelease (g : Guard) (s : State) : Out :=
  guarded g 4 s fun s =>
    let t := s.curTid
    .ok (dissolveTower (retire s 4) t)

/-! Pinning, marks -/

/-- GOV.PIN (R289). -/
def execGovPin (g : Guard) (s : State) : Out := alu g 4 s fun x => { x with pinned := true }

/-- GOV.UNPIN (R289): a task of a PINNED launch stays pinned. -/
def execGovUnpin (g : Guard) (s : State) : Out := alu g 4 s fun x => { x with pinned := x.launchPinned }

/-- TRC.MARK (R291, R441). -/
def execTrcMark (g : Guard) (a : BitVec 5) (i : BitVec 11) (s : State) : Out :=
  guarded g 4 s fun s =>
    let x := s.curTask
    .ok (retire (traceRecord s s.cur 0 i.toNat x.gtid (x.r64 a) x.pc) 4)

/-! Acknowledgements, parking, replay -/

/-- WRITE_ACKNOWLEDGEMENT (R158): the oldest unacknowledged write, atomic or send of a task. -/
def execWriteAcknowledgement (task : Nat) (s : State) : Out :=
  let t : BitVec 48 := BitVec.ofNat 48 task
  .next (if (s.task t).unacked = [] then s else s.onTask t fun x => { x with unacked := x.unacked.drop 1 })

/-- PAGE_FAULT_PARK (R346 to R349): the steps of a task whose walk faulted. -/
def execPageFaultPark (task : Nat) (s : State) : Out :=
  let t : BitVec 48 := BitVec.ofNat 48 task
  .next (if (s.task t).status = .waitMem then parkTask s t else s)

/-- FB_STAT_WRITE (R350). -/
def execFbStatWrite (cluster : Nat) (value : W64) (s : State) : Out := .next (fbStatWrite s cluster value)

/-- REPLAY_ALL (R352). -/
def execReplayAll (cluster : Nat) (s : State) : Out := .next (replayAll s cluster)

/-- REPLAY_RERUN (R352): the next replayed access runs again. -/
def execReplayRerun (cluster : Nat) (s : State) : Out := .next (replayNext s cluster)

end Sys2Proof.Machine
end

