-- ==== Sys2Proof/Machine/Governor.lean ====
section
/-! DEFINITION. The ramp slot boundary of the governor (R422, R423, R426, R429, R432). -/

namespace Sys2Proof.Machine

/-- Length of a ramp slot in the package's timebase (R423). -/
def slotCc : Nat := 1600

/-- Some enabled die runs dome-only service, so the clock is at 1.0 GHz (R455). -/
def State.slowClock (s : State) : Bool := (List.range 8).any fun d => s.dieEnabled d && (s.die d).bootPhase = 3

/-- E_c in mW from a slot's energy in eighths of a picojoule (R422). -/
def estimate (s : State) (e : Nat) : Nat := if s.slowClock then e / 12800 else e / 8000

/-- The energy a core is credited with: its own, and its share of what the initiator's core counts for its tower (R422). -/
def creditedEnergy (s : State) (k : Nat) : Nat :=
  match (s.core k).towerOf with
  | some t => let x := s.task t; if x.tower.contains k then towerCredit s x k else (s.core k).gov.energy
  | none => (s.core k).gov.energy

/-- The cycle in which the current slot ends (R423). -/
def slotEnd (s : State) : W64 := BitVec.ofNat 64 (slotCc * (s.gov.slot + 1))

/-- Energy of the ballast a core ran in the slot that ends, in eighths of a picojoule (R422; log entry 24). -/
def ballastEnergy (g : CoreGov) : Nat := 2640 * g.slotBallast

/-- The estimates of a slot that ends; the counts begin again (R422, R432). -/
def closeSlot (s : State) : State :=
  let s := (s.cores.map fun p => p.1).foldl (fun (s : State) k => s.onCore k fun c => c.settleBallast (slotEnd s)) s
  let es := s.cores.map fun p => (p.1, estimate s (creditedEnergy s p.1))
  let mw := (es.map fun p => p.2).sum + (s.cores.map fun p => estimate s (ballastEnergy p.2.gov)).sum
  let s := es.foldl (fun s p => s.onCore p.1 fun c => { c with gov := { c.gov with est := p.2, energy := 0, own := 0, slotBallast := 0 } }) s
  { s with gov := { s.gov with watts := BitVec.ofNat 16 (mw / 1000 + 400) } }

/-- Lowers one core in BALLAST by as much as a budget allows (R429): the state, and what is left. -/
def taperCore (s : State) (b k : Nat) : State × Nat :=
  let g := (s.core k).gov
  let d := min b g.q
  if d = 0 then (s, b)
  else
    let s := s.onCore k fun c => { c with gov := { c.gov with q := g.q - d, kind := if g.q = d then .unheld else .ballast } }
    let s := if g.q = d then logSlot { s with gov := { s.gov with order := s.gov.order.filter (· ≠ k) } } k else s
    (s, b - d)

/-- Ballast tapers, oldest first, within the fall capacity that a deficit leaves (R423, R429). -/
def taper (s : State) : State :=
  let b := s.gov.fcap - s.gov.fall
  let (s, left) := s.gov.order.foldl (fun (p : State × Nat) k => taperCore p.1 p.2 k) (s, b)
  { s with gov := { s.gov with fall := s.gov.fall + (b - left) } }

/-- The next slot begins: written limits take effect, what was used beyond a capacity is carried, tickets granted ahead are
charged (R423, R426, R432). -/
def openSlot (s : State) : State :=
  let g := s.gov
  let rise := g.rise - g.rcap
  let fall := g.fall - g.fcap
  let n := g.slot + 1
  { s with gov := { g with
    cfg := g.newCfg.getD g.cfg, newCfg := none, slot := n, rise := rise + sget 0 g.ahead n, fall := fall, ahead := sdel g.ahead n } }

/-- The first cycle of the current slot (R423). -/
def slotStart (s : State) : W64 := BitVec.ofNat 64 (slotCc * s.gov.slot)

/-- UNHELD cores the slot of whose ticket has begun (R426). -/
def dueCores (s : State) : List Nat :=
  (s.cores.filter fun p => p.2.gov.kind = .unheld && match p.2.gov.start with | some n => decide (n ≤ s.gov.slot) | none => false).map fun p => p.1

/-- What waited on a core for the slot that begins (R426): held wakes go on where there are any, and queued starts wait no longer. -/
def dueStart (wakes : Bool) (s : State) (k : Nat) : State :=
  if wakes then releaseStart s k (slotStart s) else settleHeld s k none (slotStart s)

/-- The package timebase has passed the end of the current slot (R423). -/
def slotPassed (s : State) : Bool := s.gov.slot < s.timebase.toNat / slotCc

/-- A launch has tickets and groups still to deliver to a core (R426, R430). -/
def launchWants (s : State) (k : Nat) (j : Job) : Bool :=
  match j.launch with
  | some l =>
    (j.state = .dealing || (j.state = .pending && l.pinned))
      && match (l.cores s).idxOf? k with
        | some i => decide (sget 0 j.delivered k < groupsOn l (l.cores s).length i)
        | none => false
  | none => false

/-- A start still waits for the ticket of a core (R426): a held wake, a queued first task of a job, a COMPOSE that binds the core, or a launch
that is still to deliver there. -/
def startWanted (s : State) (k : Nat) : Bool :=
  let c := s.core k
  c.gov.held ≠ [] || !(s.heldStarts k).isEmpty
    || (c.runBase.any fun e => !((s.baseTasks k).any fun t => isOfJob t.job e))
    || (s.tasks.any fun p => p.2.composeTill.isSome && p.2.composeSet.contains k)
    || s.spire.jobs.any fun p => launchWants s k p.2

/-- Tickets of UNHELD cores that no start waits for any more are not used (R425, R426). -/
def dropStarts (s : State) : State :=
  (s.cores.filter fun p => p.2.gov.kind = .unheld && p.2.gov.start.isSome && !startWanted s p.1).foldl
    (fun s p => s.onCore p.1 fun c => { c with gov := { c.gov with start := none } }) s

def enabledList (s : State) : List Nat := (List.range 8).filter s.dieEnabled

/-- Every enabled die is in phase 3 with its HBM trained (R454, R456). -/
def serviceDue (s : State) : Bool := (enabledList s).all fun d => (s.die d).bootPhase = 3 && (s.die d).trained

/-- Full service begins for the whole package at a slot boundary (R456). -/
def startService (s : State) : State :=
  if serviceDue s then (enabledList s).foldl (fun s d => s.onDie d fun x => { x with bootPhase := 4 }) s else s

/-- What a slot boundary brings about: the slot closes, the next one opens, ballast tapers, held starts whose slot has begun go
on, and full service begins when it is due (R423, R426, R429, R456). -/
def slotBoundary (s : State) : State :=
  let s := taper (openSlot (closeSlot s))
  startService ((dueCores s).foldl (fun u k => dueStart (!(s.heldStarts k).isEmpty) u k) s)

/-- RAMP_SLOT_BOUNDARY (R423, R426, R429). -/
def execRampSlotBoundary (s : State) : Out := .next (if slotPassed s then slotBoundary s else s)

/-! The governor block's words (R432) -/

def clampTo (lo hi v : Nat) : Nat := max lo (min hi v)

/-- GOV_CFG as written, clamped (R432). -/
def govCfg (v : W64) : W64 :=
  BitVec.ofNat 64 (clampTo 10 400 (v.extractLsb' 0 9).toNat + clampTo 10 400 (v.extractLsb' 9 9).toNat * 2 ^ 9
    + clampTo 100 4000 (v.extractLsb' 20 12).toNat * 2 ^ 20)

/-- GOV_SLOT (R432). -/
def govSlot (g : Gov) : W64 := BitVec.ofNat 64 (g.slot % 2 ^ 32 + min g.rise 4095 * 2 ^ 32 + min g.fall 16383 * 2 ^ 44)

end Sys2Proof.Machine
end

