-- ==== Sys2Proof/Machine/Debug.lean ====
section
/-! DEFINITION. Debug commands (R447) and the state log's enable (R438). -/

namespace Sys2Proof.Machine

/-- The BREAK information word of a command, and of a step (R446). -/
def cmdInfo : W64 := 16
def stepInfo : W64 := 24

/-- A shipped task that waits in its new core's run queue (R319). -/
def isShipped (t : BitVec 48) : RunEntry → Bool
  | .saved v => v.task.gtid = t && v.rec_.isNone
  | .desc _ => false

/-- A task on its way to a home-execute page. -/
def inTransit (s : State) (t : BitVec 48) : Bool :=
  (s.task t).ship.isSome || s.ships.any (fun p => p.2.task.gtid = t) || s.cores.any fun p => p.2.runBase.any (isShipped t)

def Saved.stopDue (v : Saved) : Saved := { v with task := { v.task with stopDue := true } }

/-- Command 1 (R447): a task that is shipped stops on arrival. -/
def dbgStop (s : State) (t : BitVec 48) : State :=
  if inTransit s t then
    let mark := fun (e : RunEntry) => if isShipped t e then (match e with | .saved v => .saved v.stopDue | e => e) else e
    { s.onTask t (fun x => if x.ship.isSome then { x with stopDue := true } else x) with
      ships := s.ships.map (fun p => if p.2.task.gtid = t then (p.1, p.2.stopDue) else p),
      cores := s.cores.map fun p => (p.1, if p.2.runBase.any (isShipped t) then { p.2 with runBase := p.2.runBase.map mark } else p.2) }
  else match (s.task t).status with
    | .ended | .stopped => s
    | _ => debugStop s t cmdInfo

/-- A task is stopped for the debugger (R443, R448). -/
def dbgStopped (x : Task) : Bool := x.status = .stopped && x.forDebug

/-- A shadow set as a stop record holds it: a stopped task keeps the sets that it owns (R278, R447). -/
def Shadow.reload (h : Shadow) (x : Task) (i : Nat) : Shadow :=
  match x.stopSets.find? fun p => p.1 = i with
  | some p => p.2.backTo h
  | none => h

/-- The queued work that the latest stop record holds is the task's again, with its ranges (R315, R447; log entry 17): its shadow sets, and
its matrix operations behind those of other tasks; what finds its tile queue full stands behind that queue and enters in order as it has
room, before anything that issues (R198). -/
def requeue (s : State) (t : BitVec 48) : State :=
  let x := s.task t
  s.onWork x.core fun c =>
    let back := fun (q : Nat) (l : List MxOp) =>
      l.filter (fun o => o.task ≠ t) ++ (x.stopWork.filter fun p => p.1 = q).map fun p => physNumbers x c p.2
    let mine := ((c.mx0 ++ c.mx1).filter fun o => o.task = t).map (fun o => o.id) ++ x.stopWork.map fun p => p.2.id
    { c with mx0 := back 0 c.mx0, mx1 := back 1 c.mx1, sh0 := c.sh0.reload x 0, sh1 := c.sh1.reload x 1,
             locks := c.locks.filter (fun l => l.task ≠ t || !l.matrix || !mine.contains l.op) ++ x.stopLocks }

/-- Commands 2 and 3 (R447): registers, region and queued work return from the latest stop record; the handler budget's pause
ends (R445). A resumption on an idle core is a start (log entry 24). -/
def dbgResume (s : State) (t : BitVec 48) (step : Bool) : State :=
  let x := s.task t
  if !dbgStopped x || x.inPlace || (s.job x.job).state = .preempting || (s.job x.job).state = .saved then s
  else
    let s := match x.stopRec with
      | some a => reloadRecord (requeue s t) t a
      | none => s
    restartTask s t step

/-- A command of DBG_CMD (R443, R447). -/
def dbgCommand (s : State) (t : BitVec 48) (cmd : Nat) : State :=
  match cmd with
  | 1 => dbgStop s t
  | 2 => dbgResume s t false
  | 3 => dbgResume s t true
  | _ => s

/-- DBG_CMD_NONE (R443). -/
def execDbgCmdNone (gtid : BitVec 48) (s : State) : Out := .next (dbgCommand s gtid 0)
/-- DBG_STOP (R445, R447). -/
def execDbgStop (gtid : BitVec 48) (s : State) : Out := .next (dbgCommand s gtid 1)
/-- DBG_RESUME (R447). -/
def execDbgResume (gtid : BitVec 48) (s : State) : Out := .next (dbgCommand s gtid 2)
/-- DBG_STEP (R447). -/
def execDbgStep (gtid : BitVec 48) (s : State) : Out := .next (dbgCommand s gtid 3)

/-- DBG_STAT (R443). -/
def dbgStat (s : State) : W64 :=
  BitVec.ofNat 64 (((s.tasks.map fun p => p.2).filter dbgStopped).length % 2 ^ 16 + bit s.dbg.noarea 16)

/-- SLOG_ENABLE (R438): en goes to 1 by a write that keeps the other fields. -/
def execSlogEnable (core : Nat) (s : State) : Out := .next (slogControl s core (((s.core core).slog.ctl &&& 3) ||| 1))
/-- SLOG_DISABLE (R437, R438). -/
def execSlogDisable (core : Nat) (s : State) : Out := .next (slogControl s core ((s.core core).slog.ctl &&& 2))

end Sys2Proof.Machine
end

