-- ==== Sys2Proof/Machine/Fabric.lean ====
section
/-! DEFINITION. Circuits (R394, R395), the pod ports with their arrival log and replay (R418 to R421, R450 to R452). -/

namespace Sys2Proof.Machine

/-! Circuits -/

/-- Fields of CT_ENTRY (R394). -/
def ctSrc (w : W64) : Nat × Nat := ((w.extractLsb' 1 3).toNat, (w.extractLsb' 4 3).toNat)
def ctDst (w : W64) : Nat × Nat := ((w.extractLsb' 20 3).toNat, (w.extractLsb' 23 3).toNat)
def ctWaves (w : W64) : Nat × Nat := ((w.extractLsb' 7 6).toNat, (w.extractLsb' 7 6).toNat + (w.extractLsb' 13 6).toNat)
def ctCount (w : W64) : Nat := (w.extractLsb' 13 6).toNat + 1
def ctFibre (w : W64) : Nat := (w.extractLsb' 26 4).toNat
def ctToPod (w : W64) : Bool := w.getLsbD 19
def ctState (w : W64) : Nat := (w.extractLsb' 32 2).toNat

/-- A circuit that is in SETUP or UP (R395). -/
def ctHeld (w : W64) : Bool := ctState w = 1 || ctState w = 2

/-- Two circuits share a wavelength at a port (R395). -/
def ctClash (a b : W64) : Bool :=
  let (a0, a1) := ctWaves a
  let (b0, b1) := ctWaves b
  decide (a0 ≤ b1) && decide (b0 ≤ a1) && (ctSrc a = ctSrc b || (!ctToPod a && !ctToPod b && ctDst a = ctDst b))

/-- Whether a valid entry is rejected (R395). `others` are the entries held by other circuits. -/
def ctRejected (s : State) (w : W64) (others : List W64) : Bool :=
  63 < (ctWaves w).2
    || !s.dieEnabled (ctSrc w).1 || (!ctToPod w && !s.dieEnabled (ctDst w).1)
    || (!ctToPod w && (ctSrc w).1 = (ctDst w).1)
    || (if ctToPod w then ctDst w ≠ (0, 0) else ctFibre w ≠ 0)
    || others.any (ctClash w)
    || (ctToPod w && 50 < ctCount w + ((others.filter fun o => ctToPod o && ctFibre o = ctFibre w).map ctCount).sum)

/-- A write to CT_ENTRY e (R395). -/
def ctWrite (s : State) (e : Nat) (v : W64) : State :=
  let w := v &&& 0x3FFFFFFF
  let others := ((s.fabric.ct.filter fun p => p.1 ≠ e).map fun p => p.2).filter ctHeld
  let w := if w.getLsbD 0 then (if ctRejected s w others then w ||| (3#64 <<< 32) else w ||| (1#64 <<< 32)) else w
  { s with fabric := { s.fabric with ct := sset 0 s.fabric.ct e w, ctAt := sset 0 s.fabric.ctAt e s.timebase } }

/-- CT_ENTRY_WRITE (R395): the fabric answers from phase 1, and not in recovery (R454, R459). -/
def execCtEntryWrite (e : BitVec 9) (value : W64) (s : State) : Out := .next (if s.spireUp then ctWrite s e.toNat value else s)

/-- CIRCUIT_UP (R395): 2,400 cc after SETUP. -/
def execCircuitUp (e : BitVec 9) (s : State) : Out :=
  let w := sget 0 s.fabric.ct e.toNat
  .next (if s.spireUp && ctState w = 1 && 2400 ≤ (s.timebase - sget 0 s.fabric.ctAt e.toNat).toNat then
    { s with fabric := { s.fabric with ct := sset 0 s.fabric.ct e.toNat ((w &&& ~~~(3#64 <<< 32)) ||| (2#64 <<< 32)) } }
  else s)

/-! The arrival log -/

/-- A write to ALOG_CTL (R419, R421, R450): en going to 1 restarts the log, replay going to 1 starts re-injection. -/
def alogControl (s : State) (v : W64) : State :=
  let f := s.fabric
  let up := fun (b : Nat) => v.getLsbD b && !f.alogCtl.getLsbD b
  let g := { f with alogCtl := (v &&& 0xB) ||| (f.alogCtl &&& 4 &&& ~~~v) }
  let g := if up 0 then { g with alogWr := 0, alogOrigin := s.timebase, records := 0 } else g
  let g := if up 3 then { g with replayAt := s.timebase, replayPos := 0, injected := 0, diverged := false, heldBack := [], replayed := [] } else g
  let g := if f.alogCtl.getLsbD 3 && !v.getLsbD 3 then { g with heldBack := [], replayed := [] } else g
  { s with fabric := g }

/-- ALOG_ENABLE (R450, R451, R454). -/
def execAlogEnable (value : W64) (s : State) : Out := .next (if s.spireUp then alogControl s (value ||| 1) else s)
/-- ALOG_REPLAY_START (R421, R451, R454). -/
def execAlogReplayStart (value : W64) (s : State) : Out := .next (if s.spireUp then alogControl s (value ||| 8) else s)

/-- POD_ARRIVAL (R419, R421): a message from another chip arrives on a fibre whose link is up, and is logged whatever its destination;
in replay the ports take none. -/
def execPodArrival (fibre : BitVec 4) (m : Msg) (s : State) : Out :=
  if s.fabric.alogCtl.getLsbD 3 || s.fabric.down.getLsbD fibre.toNat || m.dst.chip ≠ s.chip || m.src.chip = s.chip then .next s
  else
    let s := { s with fabric := { s.fabric with replays := sset 0 s.fabric.replays fibre.toNat 0 } }
    .next ((alogPut s fibre.toNat (podEntry m) (.msg m)).post m)

/-- Bytes of the record that starts at an address, by its payload length (R420). -/
def recordSize (s : State) (a : Nat) : Nat := 32 + ceilDiv (s.readNat (a + 12) 4) 32 * 32

/-- The position from which replay reads its next record: a record never splits across the end of the ring (R420). -/
def replayFrom (s : State) : Nat :=
  let f := s.fabric
  let len := f.alogLen.toNat
  let room := len - f.replayPos % len
  if (s.firstBad (f.alogBase.toNat + f.replayPos % len) 32).isNone && room < recordSize s (f.alogBase.toNat + f.replayPos % len) then f.replayPos + room else f.replayPos

/-- What a record stands for: what the log wrote it for, else what its bytes say (R420, R421; log entry 25). -/
def recordMeans (s : State) (bs : List Byte) : Option Logged :=
  match s.fabric.logged.find? fun p => p.1 = bs with
  | some p => some p.2
  | none => Config.podLogged bs

/-- A record comes in again: a return or resync word that its slot cannot take yet is held (R452), exchange data waits for its
join. -/
def reinject (s : State) : Logged → State
  | .msg m => if heldReady s m then s.post m else { s with fabric := { s.fabric with heldBack := s.fabric.heldBack ++ [m] } }
  | .exchange d p => { s with fabric := { s.fabric with replayed := s.fabric.replayed ++ [(d, p)] } }

/-- REPLAY_REINJECT (R421, R450 to R453): the next record of the ring, at its logged time. No data of a codeword with an
uncorrectable error comes in (R356): with one in its header replay stands, since its time and length are not known; with one
behind it the record is passed over and not counted (log entry 25, DESIGN CHOICE). -/
def execReplayReinject (s : State) : Out :=
  let f := s.fabric
  let p := replayFrom s
  let a := f.alogBase.toNat + p % f.alogLen.toNat
  let n := recordSize s a
  if !f.alogCtl.getLsbD 3 || f.alogLen = 0 || (s.firstBad a 32).isSome || f.alogEnd.toNat < p + n || !s.backed a n
      || (s.timebase - f.replayAt).toNat < (BitVec.ofNat 64 (s.readNat a 8) - f.alogOrigin).toNat then .next s
  else
    let s1 := { s with fabric := { f with replayPos := p + n, injected := f.injected + if (s.firstBad a n).isSome then 0 else 1 } }
    .next (if (s.firstBad a n).isSome then s1 else match recordMeans s (s.readBytes a n) with | some l => reinject s1 l | none => s1)

/-- ALOG_RSTAT (R450). -/
def alogRstat (f : Fabric) : W64 :=
  let held := (f.heldBack.filter fun m => match m.body with | .slotReturn _ _ => true | _ => false).length
  BitVec.ofNat 64 (f.injected.toNat + held % 2 ^ 16 * 2 ^ 32 + bit f.diverged 48)

/-! Pod links -/

/-- LINK_REPLAY (R379, R418): the link layer replays its flits once more; no message is lost. -/
def execLinkReplay (fibre : BitVec 4) (s : State) : Out :=
  .next { s with fabric := { s.fabric with replays := sset 0 s.fabric.replays fibre.toNat (sget 0 s.fabric.replays fibre.toNat + 1) } }

/-- Endpoint slots whose peer is on a chip that no live route reaches. -/
def cutSlots (s : State) : List (Nat × Nat) :=
  s.cores.flatMap fun c => (c.2.eps.filter fun p =>
    p.2.status = .connected && (match p.2.peer with | some l => l.at_.chip ≠ s.chip && (podFibre s l.at_.chip).isNone | none => false)).map
      fun p => (c.1, p.1)

/-- LINK_DOWN (R418): after ten successive failed replays. The channels to chips that stop answering begin a count exchange,
which R401 ends with reason 3 (log entry 25). -/
def execLinkDown (fibre : BitVec 4) (s : State) : Out :=
  if sget 0 s.fabric.replays fibre.toNat < 10 then .next s
  else
    let s := { s with fabric := { s.fabric with down := s.fabric.down ||| (1#16 <<< fibre.toNat) } }
    .next ((cutSlots s).foldl (fun s p => enterResync s p.1 p.2 ((s.ep p.1 p.2).rsSeq + 1)) s)

end Sys2Proof.Machine
end

