-- ==== Sys2Proof/Machine/TileWalk.lean ====
section
/-! DEFINITION. The tile-walk engine of a cluster and its memory peers (R402 to R408, R498). -/

namespace Sys2Proof.Machine

/-- Characters of a name. -/
def asciiOf (l : List Nat) : List Byte := l.map (BitVec.ofNat 8)

/-- The standard images (R403): transitions and names by kind and granule format. -/
def standardStates (kind fmt : Nat) : List PState :=
  let req : PState := ⟨[0x00087013], asciiOf [114, 101, 113]⟩
  let done : PState := ⟨[0x0000000D], asciiOf [100, 111, 110, 101]⟩
  match kind with
  | 0 => [req, ⟨[BitVec.ofNat 32 (0x00904021 + 0x400 * fmt)], asciiOf [116, 105, 108, 101, 95, 119, 97, 105, 116]⟩, done]
  | 1 => [req, ⟨[BitVec.ofNat 32 (0x00904033 + 0x400 * fmt)], asciiOf [116, 105, 108, 101, 95, 105, 110]⟩,
          ⟨[0x0000C041], asciiOf [97, 99, 107]⟩, done]
  | _ => [req, ⟨[0x00907851], asciiOf [100, 97, 116, 97]⟩, done]

/-- The first error of an adoption, in the order 3, 1, 2, 4 of R408, or 0. -/
def adoptErr (s : State) (c : Nat) (v : W64) : BitVec 4 :=
  let k := 4 * c + (v.extractLsb' 0 2).toNat
  let kind := (v.extractLsb' 8 2).toNat
  let fmt := (v.extractLsb' 10 4).toNat
  let e := s.ep k (v.extractLsb' 2 6).toNat
  if kind = 3 || fmt = 0 || 11 < fmt then 3
  else if e.status ≠ .bound then 1
  else if e.image.states ≠ standardStates kind fmt then 2
  else if 16 ≤ (s.cluster c).peers.length then 4
  else 0

/-- A write to TW_ADOPT (R402, R408). -/
def twAdopt (s : State) (c : Nat) (v : W64) : State :=
  let err := adoptErr s c v
  let y := s.cluster c
  let n := (v.extractLsb' 2 6).toNat
  let s := s.onCluster c fun y => { y with twErr := err }
  if err ≠ 0 then s
  else
    let p : Peer :=
      { slot := (v.extractLsb' 0 2).toNat, ep := n, kind := (v.extractLsb' 8 2).toNat, fmt := (v.extractLsb' 10 4).toNat,
        asid := v.extractLsb' 16 16, base := y.twBase, len := y.twLen, offset := 0, stride := 0, count := 0, done := 0, busy := false }
    (s.onCluster c fun y => { y with peers := y.peers ++ [p] }).onEp (4 * c + p.slot) n fun e => { e with owner := some peerOwner }

/-- TW_ADOPT (R402). -/
def execTwAdopt (cluster : Nat) (value : W64) (s : State) : Out := .next (twAdopt s cluster value)

/-- A parked access of the tile-walk engine (R407). -/
def Parked.isWalker : Parked → Bool
  | .walker _ _ => true
  | .task _ => false

/-- The memory peer at an endpoint slot, when its engine is not parked (R407). -/
def peerAt (s : State) (core ep : Nat) : Option Peer :=
  let y := s.cluster (clusterOf core)
  if y.walkFault.isSome || (y.parked ++ y.replaying).any Parked.isWalker then none
  else y.peers.find? fun p => p.slot = core % 4 && p.ep = ep

def onPeer (s : State) (core ep : Nat) (f : Peer → Peer) : State :=
  s.onCluster (clusterOf core) fun y => { y with peers := y.peers.map fun p => if p.slot = core % 4 && p.ep = ep then f p else p }

/-- Size of an item (R404). -/
def Peer.item (p : Peer) : Nat := if p.kind = 2 then 4096 else (winOf p.fmt).foot

/-- Region offset of item k, as an integer (R404). -/
def Peer.at_ (p : Peer) (k : Nat) : Int := (p.offset.toNat : Int) + (k : Int) * p.stride.toInt

/-- An item lies in the region (R404). -/
def Peer.holds (p : Peer) (k : Nat) : Bool := decide (0 ≤ p.at_ k) && decide (p.at_ k + p.item ≤ p.len.toNat)

/-- The request of a payload, missing bytes reading as zero (R227, R404): none when a reserved byte is set, a field is
misaligned or an item lies outside; items lie on a line, so the first and the last decide. -/
def requestOf (p : Peer) (bs : List Byte) : Option Peer :=
  let f := fun o n => leNat ((bs.drop o).take n)
  let q := { p with offset := BitVec.ofNat 64 (f 8 8), stride := BitVec.ofNat 64 (f 16 8), count := f 0 4, done := 0, busy := true }
  if f 0 4 / 2 ^ 17 ≠ 0 || f 4 4 ≠ 0 || f 24 40 ≠ 0 || q.offset.toNat % 32 ≠ 0 || q.stride.toNat % 32 ≠ 0 then none
  else if q.holds 0 && q.holds (q.count - 1) then some q else none

/-- The head message of a peer, taken by the transition of the current state of a kind and direction. -/
def peerTake (s : State) (core ep : Nat) (t : W32) (c : BitVec 17) : State :=
  giveBack (s.onEp core ep fun e => { e.take t c with buf := e.buf.drop 1, lastType := tType t }) core ep

/-- TILE_PEER_REQUEST (R404): a request with an uncorrectable error closes the channel with reason 2 (R235, R356). -/
def execTilePeerRequest (core ep : Nat) (s : State) : Out :=
  let e := s.ep core ep
  match peerAt s core ep, e.head, e.find true 0 (some 1) with
  | some p, some ⟨.data 1 12 w c bs, i, h⟩, some t =>
    if e.status ≠ .connected || e.state ≠ 0 then .next s
    else if frameBad s core ep ⟨.data 1 12 w c bs, i, h⟩ then .next (failClose s core ep 2 0 peerOwner)
    else match requestOf p bs with
      | none => .next (failClose s core ep 1 0x05 peerOwner)
      | some q => .next (pump (peerTake (onPeer s core ep fun _ => q) core ep t c) core ep)
  | _, _, _ => .next s

/-- Why an access of a peer stops (R407, R498). -/
inductive PeerStop
  | park (f : WalkFault)
  | close (reason cause : Nat)
  deriving DecidableEq, Repr

/-- Physical pieces of parts of an item, at the adopting level (R407). No address below 16 MiB is translated (R337): the peer
closes as at a BUS_ERROR condition (log entry 23). A stop keeps what the walker used (R344). -/
def peerParts (s : State) (c : Nat) (p : Peer) (u : Use) : List (Nat × Nat) → Except (State × PeerStop) (State × List (Nat × Nat))
  | [] => .ok (s, [])
  | (a, n) :: ps =>
    if 2 ^ 52 ≤ a || a < 0x1000000 then .error (s, .close 1 0x18)
    else
      let (s, _, r) := s.translate ⟨none, some c, dieOfCluster c⟩ p.asid a u true
      match r with
      | .ok pa _ =>
        if s.backed pa n then do
          let (s, l) ← peerParts s c p u ps
          .ok (s, (pa, n) :: l)
        else .error (s, .close 1 0x18)
      | .fault 0 lv => .error (s, .park ⟨p.asid, BitVec.ofNat 36 (a / 2 ^ 16), 0, BitVec.ofNat 2 (lv - 1), u.acc true⟩)
      | .fault 1 _ => .error (s, .close 1 0x06)
      | .fault _ _ => .error (s, .close 1 0x18)
      | .bus => .error (s, .close 1 0x18)
      | .ue => .error (s, .close 2 0)

/-- The pieces of item k: the sum of base and offset is a 64-bit address. -/
def itemParts (s : State) (c : Nat) (p : Peer) (k : Nat) (u : Use) : Except (State × PeerStop) (State × List (Nat × Nat)) :=
  peerParts s c p u (pageParts (p.base.toNat + (p.at_ k).toNat) p.item)

/-- A stopped access: the engine parks, or the peer closes its channel (R407, R498). -/
def peerStop (s : State) (core ep : Nat) : PeerStop → State
  | .park f => parkWalker s core ep f
  | .close r c => failClose s core ep r c peerOwner

/-- Sends a message of a peer's channel, which needs no send queue (R405, R406). -/
def peerEmit (s : State) (core ep : Nat) (b : ChBody) : State :=
  match (s.ep core ep).peer with
  | some l => (raiseSent s core ep).emit core false l.at_ (.chan l (s.epLoc core ep) none b)
  | none => s

/-- TILE_PEER_SEND (R405): the next item is read and sent while the peer holds a permit. -/
def execTilePeerSend (core ep : Nat) (s : State) : Out :=
  let e := s.ep core ep
  match peerAt s core ep, e.find false 0 none with
  | some p, some t =>
    if e.status ≠ .connected || !p.busy || p.kind = 1 || p.count ≤ p.done || e.permits = 0 then .next s
    else match itemParts s (clusterOf core) p p.done .load with
      | .error (s', st) => .next (peerStop s' core ep st)
      | .ok (s', ps) =>
        if piecesBad s' ps then .next (failClose s' core ep 2 0 peerOwner)
        else
          let s := peerEmit s' core ep (.data (tType t) (tShape t) 0 0 (pieceBytes s' ps))
          .next (onPeer (s.onEp core ep fun e => e.take t 0) core ep fun p => { p with done := p.done + 1, busy := p.done + 1 < p.count })
  | _, _ => .next s

/-- Writes bytes over physical pieces. -/
def writeParts (s : State) : List (Nat × Nat) → List Byte → State
  | [], _ => s
  | (pa, n) :: ps, bs => writeParts (s.write pa (bs.take n)) ps (bs.drop n)

/-- The end of TILE_WRITE (R405, R406): `ack` with the count written, then the peer's own orderly close, recorded once. -/
def peerAck (s : State) (core ep : Nat) (p : Peer) (t : W32) : State :=
  let s := peerEmit s core ep (.data (tType t) 0 (BitVec.ofNat 64 p.count) 0 [])
  let s := s.onEp core ep fun e => e.take t 0
  let e := s.ep core ep
  let w := e.word 0 0
  let s := match e.peer with
    | some l => s.emit core false l.at_ (.chan l (s.epLoc core ep) none (.close w peerOwner))
    | none => s
  let s := s.onEp core ep fun e => { e with status := .closing, ownClose := true, closeWord := w }
  peerRecord (onPeer s core ep fun p => { p with busy := false }) core ep w peerOwner

/-- TILE_PEER_WRITE (R405): the item at the head is written and its slot returned; after the last one, `ack` and close. -/
def execTilePeerWrite (core ep : Nat) (s : State) : Out :=
  let e := s.ep core ep
  match peerAt s core ep with
  | none => .next s
  | some p =>
    if e.status ≠ .connected || !p.busy || p.kind ≠ 1 then .next s
    else if p.count ≤ p.done then
      match e.find false 0 none with
      | some t => .next (if e.permits = 0 then s else peerAck s core ep p t)
      | none => .next s
    else match e.head, e.find true 0 (some 3) with
      | some ⟨.data 3 sh w c bs, i, h⟩, some t =>
        if frameBad s core ep ⟨.data 3 sh w c bs, i, h⟩ then .next (failClose s core ep 2 0 peerOwner)
        else match itemParts s (clusterOf core) p p.done .store with
        | .error (s, st) => .next (peerStop s core ep st)
        | .ok (s, ps) =>
          let s := writeParts s ps bs
          let s := peerTake s core ep t c
          .next (pump (onPeer s core ep fun p => { p with done := p.done + 1 }) core ep)
      | _, _ => .next s

end Sys2Proof.Machine
end

