-- ==== Sys2Proof/Machine/HostRdma.lean ====
section
/-! DEFINITION. The host ports (R413 to R417): the region table, queue-pair contexts, RDMA requests, pauses. A port's registers
are numbered 8 p + offset / 8, a context's words 8 (512 p + q) + word. -/

namespace Sys2Proof.Machine

/-! Registers -/

def State.hp (s : State) (p i : Nat) : W64 := sget 0 s.host.ports (8 * p + i)
def State.setHp (s : State) (p i : Nat) (v : W64) : State := { s with host := { s.host with ports := sset 0 s.host.ports (8 * p + i) v } }

def State.qpWord (s : State) (c i : Nat) : W64 := sget 0 s.host.qp (8 * c + i)
def State.setQpWord (s : State) (c i : Nat) (v : W64) : State := { s with host := { s.host with qp := sset 0 s.host.qp (8 * c + i) v } }

/-- Word 0 of a context as written: 3 is 0 for state and mtu, 0 is 1 for rd_max (R417). -/
def qpWord0 (v : W64) : W64 :=
  let v := if v.extractLsb' 0 2 = 3 then v &&& ~~~3 else v
  let v := if v.extractLsb' 6 2 = 3 then v &&& ~~~0xC0 else v
  let v := if v.extractLsb' 8 5 = 0 then v ||| 0x100 else v
  v &&& 0x00FFFFFF00001FFF

/-- Sets the state of a context. -/
def qpState (s : State) (c st : Nat) : State := s.setQpWord c 0 ((s.qpWord c 0 &&& ~~~3) ||| BitVec.ofNat 64 st)

/-- Word 0 of a context as read: rd_max 0 reads as 1 (R417). -/
def qpShown (i : Nat) (v : W64) : W64 := if i = 0 && v.extractLsb' 8 5 = 0 then v ||| 0x100 else v

/-- A write to a context's word over the management port (R417). A context in ERROR must first be written RESET: READY leaves it
there (log entry 26). -/
def qpWrite (s : State) (c i : Nat) (v : W64) : State :=
  let s' := if i ≠ 0 && (s.qpWord c 0).extractLsb' 0 2 = 1 then qpState s c 0 else s
  match i with
  | 0 =>
    let w := qpWord0 v
    s.setQpWord c 0 (if (s.qpWord c 0).extractLsb' 0 2 = 2 && w.extractLsb' 0 2 = 1 then (w &&& ~~~3) ||| 2 else w)
  | 1 => s'.setQpWord c 1 (v &&& 0x0000FFFF00FFFFFF)
  | 2 => s'.setQpWord c 2 (v &&& 0x0000FFFFFFFFFFFF)
  | 3 => s'.setQpWord c 3 v
  | 4 => s'.setQpWord c 4 v
  | _ => s'

/-- QP_CONTEXT_WRITE (R417). -/
def execQpContextWrite (port : BitVec 2) (q : BitVec 9) (word : BitVec 3) (value : W64) (s : State) : Out :=
  .next (qpWrite s (512 * port.toNat + q.toNat) word.toNat value)

/-- A write to a register of host port p over the management port (R416). -/
def hpWrite (s : State) (p i : Nat) (v : W64) : State :=
  match i with
  | 0 => s.setHp p 0 (v &&& 0x3FFFF)
  | 1 => s.setHp p 1 (v &&& 0x0000FFFFFFFFFFFF)
  | 2 => s.setHp p 2 (v &&& 0xFFFFFFFF)
  | 3 => s.setHp p 3 v
  | 4 => s.setHp p 4 v
  | _ => s

/-- A priority on which pauses are honoured (R416). -/
def lossless (ctl : W64) (prio : BitVec 3) : Bool :=
  (ctl.getLsbD 6 && ctl.extractLsb' 3 3 = prio) || (ctl.getLsbD 10 && ctl.extractLsb' 7 3 = prio)

/-- A pause is in force on a priority of a port, as long as the priority is lossless (R416). -/
def pausedOn (s : State) (p : Nat) (prio : BitVec 3) : Bool :=
  lossless (s.hp p 0) prio && s.host.pausedTill.any fun x => x.1 = 8 * p + prio.toNat

/-- A pause is in force on a lossless priority of a port (R416). -/
def paused (s : State) (p : Nat) : Bool := (List.range 8).any fun i => pausedOn s p (BitVec.ofNat 3 i)

/-- A register of host port p (R416). -/
def hpRead (s : State) (p i : Nat) : W64 :=
  if i = 5 then (s.hp p 5 &&& 1) ||| BitVec.ofNat 64 (bit (paused s p) 1) else s.hp p i

/-! Requests -/

/-- The context that a request names, when it is READY (R417). -/
def readyContext (s : State) (r : RdmaReq) : Option Nat :=
  let q := r.qpn.toNat
  if 0x1000 + 512 * r.port ≤ q && q < 0x1000 + 512 * (r.port + 1) && (s.qpWord (q - 0x1000) 0).extractLsb' 0 2 = 1 then some (q - 0x1000)
  else none

def send (s : State) (x : Sent) : State := { s with sent := s.sent ++ [x] }

/-- A NAK: the last syndrome is kept, and every one but a sequence error ends in ERROR (R417). -/
def nak (s : State) (c : Nat) (r : RdmaReq) (syn : Nat) : State :=
  let s := s.setQpWord c 5 ((s.qpWord c 5 &&& 0xFFFFFF) ||| (BitVec.ofNat 64 syn <<< 32))
  send (if syn = 1 then s else qpState s c 2) (.rdmaNak r.port r.qpn syn)

/-- The region that a request's R_Key names (R414): its number. -/
def regionOf (s : State) (r : RdmaReq) : Option Nat :=
  let i := (r.rkey.extractLsb' 0 8).toNat
  if (sget 0 s.host.regLow i).getLsbD 0 && (sget 0 s.host.regHigh i).extractLsb' 40 24 = r.rkey.extractLsb' 8 24 then some i else none

def regionBase (s : State) (i : Nat) : Nat := ((sget 0 s.host.regLow i).extractLsb' 12 34).toNat * 2 ^ 12

/-- The whole region lies in backed space, in HBM or a dome (R414, R415). -/
def regionBacked (s : State) (i : Nat) : Bool :=
  let len := ((sget 0 s.host.regHigh i).extractLsb' 0 40).toNat
  s.backed (regionBase s i) len && regionBase s i % 2 ^ 43 < 0x060000000000

/-- Physical address of n bytes of a region, when R415 allows the access. -/
def regionPa (s : State) (i : Nat) (va n : Nat) (write : Bool) : Option Nat :=
  let low := sget 0 s.host.regLow i
  let len := ((sget 0 s.host.regHigh i).extractLsb' 0 40).toNat
  let a := regionBase s i + va
  if low.getLsbD 3 || !low.getLsbD (if write then 2 else 1) || len < va + n || !regionBacked s i || !s.backed a n then none
  else some a

/-- The doorbell region takes a write within its 8 bytes (R414). -/
def doorbellOk (s : State) (i va n : Nat) : Bool :=
  (sget 0 s.host.regLow i).getLsbD 3 && (sget 0 s.host.regLow i).getLsbD 2 && va + n ≤ 8

/-- Sequence numbers that a request takes: one packet for each path MTU. -/
def psnsOf (s : State) (c n : Nat) : Nat := max 1 (ceilDiv n (1024 * 2 ^ ((s.qpWord c 0).extractLsb' 6 2).toNat))

/-- A request is done: epsn moves past it, msn counts it (R417). -/
def served (s : State) (c : Nat) (r : RdmaReq) (n : Nat) : State :=
  let e : BitVec 24 := r.psn + BitVec.ofNat 24 (psnsOf s c n)
  let m : BitVec 24 := (s.qpWord c 5).setWidth 24 + 1
  (s.setQpWord c 1 ((s.qpWord c 1 &&& ~~~0xFFFFFF) ||| e.setWidth 64)).setQpWord c 5 ((s.qpWord c 5 &&& ~~~0xFFFFFF) ||| m.setWidth 64)

/-- The new value of a register of which bytes from o are written. -/
def patchBytes (old : W64) (o : Nat) (bs : List Byte) : W64 :=
  let l := leBytes 8 old.toNat
  BitVec.ofNat 64 (leNat ((l.take o ++ bs ++ l.drop (o + bs.length)).take 8))

/-- A WRITE at its turn (R414, R415). -/
def writeAt (s : State) (c : Nat) (r : RdmaReq) : State :=
  let n := r.data.length
  match regionOf s r with
  | none => nak s c r 3
  | some i =>
    if doorbellOk s i r.va.toNat n then
      send (served (lqTailWrite s (patchBytes (s.spire.lqTail.setWidth 64) r.va.toNat r.data)) c r n) (.rdmaAck r.port r.qpn r.psn)
    else match regionPa s i r.va.toNat n true with
      | some a => send (served (s.write a r.data) c r n) (.rdmaAck r.port r.qpn r.psn)
      | none => nak s c r 3

/-- A READ at its turn or repeated (R415, R417). -/
def readAt (s : State) (c : Nat) (r : RdmaReq) (again : Bool) : State :=
  match (regionOf s r).bind fun i => regionPa s i r.va.toNat r.len false with
  | none => nak s c r 3
  | some a =>
    if (s.firstBad a r.len).isSome then nak s c r 4
    else send (if again then s else served s c r r.len) (.rdmaData r.port r.qpn r.psn (s.readBytes a r.len))

/-- What a port does with a packet before its transport (R413, R416, R417): the context, or the packet is dropped. -/
def receive (s : State) (r : RdmaReq) : State × Option Nat :=
  let ctl := s.hp r.port 0
  if 4 ≤ r.port || !ctl.getLsbD 0 || !(s.hp r.port 5).getLsbD 0 then (s, none)
  else
    let drop := s.setHp r.port 6 ((s.hp r.port 6 + 1) &&& 0xFFFFFFFFFFFF)
    if r.bad then (drop, none)
    else match readyContext s r with
      | none => (drop, none)
      | some c =>
        if !ctl.getLsbD (if (s.qpWord c 0).getLsbD 2 then 2 else 1) then (s, none)
        else (if r.ce && ctl.getLsbD 17 then send s (.cnp r.port r.qpn) else s, some c)

/-- Where a request's PSN lies: 0 expected, 1 ahead, 2 a duplicate (R417). -/
def psnPlace (s : State) (c : Nat) (r : RdmaReq) : Nat :=
  let d := (r.psn - (s.qpWord c 1).setWidth 24).toNat
  if d = 0 then 0 else if d < 2 ^ 23 then 1 else 2

/-- A request that names a context whose responses a pause holds up. -/
def heldByPause (s : State) (r : RdmaReq) : Option (BitVec 3) :=
  match receive s r with
  | (_, some c) => let q : BitVec 3 := (s.qpWord c 0).extractLsb' 3 3; if pausedOn s r.port q then some q else none
  | _ => none

/-- A request through its port and queue pair, with what it does at its turn and when it is repeated. While a pause is in force on
the priority of its responses the port takes none, and pauses that priority towards the sender (R413, R416; log entry 26). -/
def request (s : State) (r : RdmaReq) (turn again : State → Nat → State) : Out :=
  match heldByPause s r with
  | some q => .next (send s (.pfcPause r.port q (Config.pauseQuanta s.tick)))
  | none =>
  match receive s r with
  | (s, none) => .next s
  | (s, some c) =>
    match psnPlace s c r with
    | 0 => .next (turn s c)
    | 1 => .next (nak s c r 1)
    | _ => .next (again s c)

/-- RDMA_WRITE (R415, R417). -/
def execRdmaWrite (r : RdmaReq) (s : State) : Out :=
  request s r (fun s c => writeAt s c r) fun s _ => send s (.rdmaAck r.port r.qpn r.psn)

/-- RDMA_READ (R415, R417). -/
def execRdmaRead (r : RdmaReq) (s : State) : Out :=
  request s r (fun s c => readAt s c r false) fun s c => readAt s c r true

/-- RDMA_UNSUPPORTED (R413). -/
def execRdmaUnsupported (r : RdmaReq) (s : State) : Out := request s r (fun s c => nak s c r 2) fun s c => nak s c r 2

/-! Pauses and links -/

/-- Cycles of a pause: a quantum is 512 bit times at 400 Gbit/s (IEEE 802.1Qbb, R416; log entry 26). -/
def pauseCycles (s : State) (quanta : W16) : Nat := ceilDiv (quanta.toNat * 512) (if s.slowClock then 400 else 250)

/-- PFC_PAUSE (R416): a pause of no quanta ends the one in force. -/
def execPfcPause (port : Nat) (prio : BitVec 3) (quanta : W16) (s : State) : Out :=
  if 4 ≤ port || !lossless (s.hp port 0) prio then .next s
  else
    let till := if quanta = 0 then 0 else s.timebase + BitVec.ofNat 64 (pauseCycles s quanta)
    .next { s with host := { s.host with pausedTill := sset 0 s.host.pausedTill (8 * port + prio.toNat) till } }

/-- PFC_PAUSE_EXPIRY (R416). -/
def execPfcPauseExpiry (port : Nat) (s : State) : Out :=
  .next { s with host := { s.host with
    pausedTill := s.host.pausedTill.filter fun x => !(x.1 / 8 = port && x.2.toNat ≤ s.timebase.toNat) } }

/-- ETHERNET_LINK_CHANGE (R416): in recovery the ports stay down (R459). -/
def execEthernetLinkChange (port : Nat) (up : Bool) (s : State) : Out :=
  .next (if 4 ≤ port || (up && (s.die 0).bootPhase = 5) then s else s.setHp port 5 (BitVec.ofNat 64 (bit up 0)))

end Sys2Proof.Machine
end

