-- ==== Sys2Proof/Machine/Shake.lean ====
section
/-! DEFINITION. SHAKE256 with 256-bit output, the hash of R458, as FIPS 202 lays it down: the sponge over Keccak-f[1600] with a rate
of 136 bytes. A state is its 25 lanes, lane x + 5 y for column x and row y. -/

namespace Sys2Proof.Machine

/-- n steps of the walk of the step rho over the lanes, from column x and row y on: each lane with its rotation. -/
def rhoWalk : Nat → Nat → Nat → Nat → List (Nat × Nat)
  | 0, _, _, _ => []
  | n + 1, k, x, y => (x + 5 * y, (k + 1) * (k + 2) / 2 % 64) :: rhoWalk n (k + 1) y ((2 * x + 3 * y) % 5)

/-- The rotation of a lane; lane 0 stays as it is. -/
def rhoOf (i : Nat) : Nat := (((rhoWalk 24 0 1 0).find? fun p => p.1 = i).map (·.2)).getD 0

/-- The first n outputs of the shift register of the step iota: its lowest bit leaves, and it steps by x^8 = x^6 + x^5 + x^4 + 1. -/
def iotaBits : Nat → Nat → List Bool
  | 0, _ => []
  | n + 1, r => (r % 2 = 1) :: iotaBits n (if 128 ≤ r then (2 * r) ^^^ 0x171 else 2 * r)

/-- The constant of the step iota from its seven bits: bit j stands at place 2^j - 1. -/
def iotaWord (bs : List Bool) : W64 :=
  (List.range 7).foldl (fun w j => if bs.getD j false then w ||| (1#64 <<< (2 ^ j - 1)) else w) 0

/-- The constants of the 24 rounds. -/
def keccakConsts : List W64 :=
  let bs := iotaBits 168 1
  (List.range 24).map fun k => iotaWord (bs.drop (7 * k))

/-- The 25 lanes that a function of column and row gives. -/
def lanesOf (f : Nat → Nat → W64) : List W64 := (List.range 25).map fun i => f (i % 5) (i / 5)

def laneAt5 (a : List W64) (x y : Nat) : W64 := a.getD (x % 5 + 5 * (y % 5)) 0

/-- One round: theta, rho with pi, chi, iota. -/
def keccakRound (a : List W64) (rc : W64) : List W64 :=
  let c := (List.range 5).map fun x => (List.range 5).foldl (fun v y => v ^^^ laneAt5 a x y) 0
  let d := fun x => c.getD ((x + 4) % 5) 0 ^^^ (c.getD ((x + 1) % 5) 0).rotateLeft 1
  let t := lanesOf fun x y => laneAt5 a x y ^^^ d x
  let b := lanesOf fun x y => (laneAt5 t (x + 3 * y) x).rotateLeft (rhoOf ((x + 3 * y) % 5 + 5 * x))
  let e := lanesOf fun x y => laneAt5 b x y ^^^ (~~~laneAt5 b (x + 1) y &&& laneAt5 b (x + 2) y)
  e.set 0 (e.getD 0 0 ^^^ rc)

def keccakF (a : List W64) : List W64 := keccakConsts.foldl keccakRound a

/-- A message with its suffix 1111 and its padding, in whole blocks. -/
def shakePad (m : List Byte) : List Byte :=
  let z := 135 - m.length % 136
  if z = 0 then m ++ [0x9F] else m ++ [0x1F] ++ List.replicate (z - 1) 0 ++ [0x80]

/-- Absorbs blocks. -/
def shakeAbsorb : Nat → List W64 → List Byte → List W64
  | 0, a, _ => a
  | n + 1, a, m =>
    let b := (List.range 17).map fun i => (BitVec.ofNat 64 (leNat ((m.drop (8 * i)).take 8)) : W64)
    shakeAbsorb n (keccakF (a.zipWith (· ^^^ ·) (b ++ List.replicate 8 0))) (m.drop 136)

/-- SHAKE256 with 256-bit output, its first byte lowest (R458, R460). -/
def shake256 (m : List Byte) : BitVec 256 :=
  let p := shakePad m
  let a := shakeAbsorb (p.length / 136) (List.replicate 25 0) p
  (a.getD 3 0 ++ a.getD 2 0 ++ a.getD 1 0 ++ a.getD 0 0 : BitVec 256)

end Sys2Proof.Machine
end

