-- ==== Sys2Proof/Machine/Boot.lean ====
section
/-! DEFINITION. Power, the boot phases (R454 to R456), firmware and recovery (R458, R459), the degradation registers (R302,
R462), attestation (R460, R461) and thermal events (R464). -/

namespace Sys2Proof.Machine

def State.inRecovery (s : State) : Bool := (s.die 0).bootPhase = 5

/-- The rollback floor: what was fused last, else the fuses at manufacture (R457, R458). -/
def State.floor (s : State) : W16 := s.trust.floor.getD Config.rollback

/-- The ROM accepts an image (R458). -/
def State.accepts (s : State) (img : List Byte) : Bool :=
  Config.imageVerifies img && decide (s.floor.toNat ≤ (Config.imageVersion img).toNat)

/-- Puts every die in a phase (R454). -/
def setPhase (s : State) (p : BitVec 3) : State := (List.range 8).foldl (fun s d => s.onDie d fun x => { x with bootPhase := p }) s

/-- The ROM enters recovery: every die in phase 5, the Ethernet links down (R454, R459). -/
def enterRecovery (s : State) : State := (List.range 4).foldl (fun s p => s.setHp p 5 0) (setPhase s 5)

/-- The boot ROM verifies the image in flash (R458): its version is fused as the floor, or the part enters recovery. -/
def verifyFirmware (s : State) : State × Bool :=
  match s.trust.image with
  | some img =>
    if s.accepts img then ({ s with trust := { s.trust with floor := some (Config.imageVersion img) } }, true)
    else (enterRecovery s, false)
  | none => (enterRecovery s, false)

/-- The cores after a core reset of the package at a time (R5, R49): CYCLE counts from it. -/
def resetCores (now : W64) : Sparse Core :=
  if now = 0 then [] else (List.range 2560).map fun k => (k, { Core.zero with cycle0 := now })

/-- The machine at the start of phase 0 (R49, R454). Flash, fuses and the signature counter stay; what has left the package
and the model's own step number and inputs to come are not the part's. The timebase is 0 at power-on reset alone (R5). -/
def restart (s : State) (now : W64) : State :=
  { State.reset with
    tick := s.tick, agenda := s.agenda, sent := s.sent, trust := s.trust, timebase := now, cores := resetCores now,
    gov := { Gov.zero with slot := now.toNat / slotCc } }

/-- POWER_ON_RESET (R5, R49, R454, R458). -/
def execPowerOnReset (s : State) : Out := .next (verifyFirmware (restart s 0)).1

/-- PACKAGE_RESET (R5, R454): the boot phases begin again; no rule changes memory (log entry 27). Without power nothing happens. -/
def execPackageReset (s : State) : Out :=
  .next (if s.power = .off then s else (verifyFirmware { restart s s.timebase with mem := s.mem, tags := s.tags, ue := s.ue }).1)

/-- POWER_LOSS (R459): in recovery the image may be half written, and none is valid. -/
def execPowerLoss (s : State) : Out :=
  let s' := { s with power := .off }
  .next (if s.inRecovery then { s' with trust := { s.trust with image := none } } else s')

/-- RECOVERY_IMAGE (R459): in recovery an image that the ROM accepts is written to flash, and the part resets. -/
def execRecoveryImage (image : List Byte) (s : State) : Out :=
  if s.power ≠ .on || !s.inRecovery || !s.accepts image then .next s
  else execPackageReset { s with trust := { s.trust with image := some image } }

/-! Phases -/

/-- The dies the fuses enable; one with every lattice lane out is disabled (R1, R462). -/
def fusedDies : BitVec 8 :=
  (List.range 8).foldl (fun m d => if Config.enabledDies.getLsbD d && Config.latmap d ≠ 0xFF then m ||| (1#8 <<< d) else m) 0

/-- n words of a register group. -/
def wordsOf (n : Nat) (f : Nat → W64) : Sparse W64 := (List.range n).foldl (fun m w => sset 0 m w (f w)) []

/-- The harvest map of a die, its bits for cores 0 to 319 (R302). -/
def loadHarvest (s : State) (d : Nat) : State :=
  ({ s with enabled := fusedDies, chip := Config.chip }).onDie d fun x => { x with hmap := wordsOf 5 (Config.hmap d) }

/-- The degradation registers of a die (R462). -/
def loadDegradation (s : State) (d : Nat) : State :=
  s.onDie d fun x => { x with
    qmap := wordsOf 5 (Config.qmap d), pcmap := wordsOf 2 (Config.pcmap d), wlmap := wordsOf 8 (Config.wlmap d), latmap := Config.latmap d }

/-- The version of the image that runs (R457). -/
def runningVersion (s : State) : W16 := match s.trust.image with | some img => Config.imageVersion img | none => 0

/-- The supervisor tasks that boot firmware starts on a die wait in their cores' run queues when phase 3 begins (R31, R306). DESIGN CHOICE:
which tasks they are, and that their arguments carry DATA tags only (log entry 27). -/
def startFirst (s : State) (die : Nat) : State :=
  ((Config.firstTasks die).filter fun f => !s.harvested (die * 320 + f.core % 320)).foldl (fun s f =>
    let k := die * 320 + f.core % 320
    queueDesc (jobRaise s f.job) k
      { entry := ⟨f.entry ||| (1#128 <<< 121), .entry⟩, args := f.args.map fun v => ⟨v, .data⟩, job := f.job, asid := f.asid,
        src := s.here k, by_ := 0, am := false, launched := false, onCore := 0, pinned := false, binder := none }) s

/-- BOOT_PHASE_ADVANCE (R454): phase 0 ends when the image verifies, phase 1 when every enabled die answers. -/
def execBootPhaseAdvance (die : Nat) (s : State) : Out :=
  let go := fun (s : State) (p : BitVec 3) => s.onDie die fun x => { x with bootPhase := p }
  if s.power ≠ .on || 8 ≤ die then .next s
  else match (s.die die).bootPhase.toNat with
    | 0 =>
      match verifyFirmware s with
      | (s, false) => .next s
      | (s, true) =>
        let s := loadHarvest s die
        .next (if s.dieEnabled die then go (s.onDie die fun x => { x with fwVer := runningVersion s }) 1 else s)
    | 1 =>
      .next (if (List.range 8).all fun d => !s.dieEnabled d || (s.die d).bootPhase ≠ 0 then go (loadDegradation s die) 2 else s)
    | 2 => .next (go (startFirst s die) 3)
    | _ => .next s

/-- Pseudo-channels of a die that are mapped out (R462). -/
def channelsOut (x : Die) : List Nat := (List.range 128).filter fun j => (sget 0 x.pcmap (j / 64)).getLsbD (j % 64)

/-- pc(a): the pseudo-channel of the line at a die offset of a die with every pseudo-channel in service (R332). -/
def fullChannel (a : Nat) : Nat :=
  let w := BitVec.ofNat 37 a
  (w.extractLsb' 8 7 ^^^ w.extractLsb' 15 7 ^^^ w.extractLsb' 22 7 ^^^ w.extractLsb' 29 7 ^^^ (w.extractLsb' 36 1).setWidth 7).toNat

/-- Where the line at a die offset lies: its pseudo-channel, of which bit 6 names the stack, and its line position there (R332, R463). -/
def linePlace (x : Die) (a : Nat) : Nat × Nat :=
  let n := a / 256
  if channelsOut x = [] then (fullChannel a, n / 128)
  else
    let live := (List.range 128).filter fun j => !(channelsOut x).contains j
    (live.getD (n % live.length) 0, n / live.length)

/-- Training of one die (R454, R457, R463): HBM_TOP is K GiB; each mapped-out unit is logged. -/
def trainDie (s : State) (d : Nat) : State :=
  let out := channelsOut (s.die d)
  let s := s.onDie d fun x => { x with trained := true, hbmTop := BitVec.ofNat 38 ((128 - out.length) * 2 ^ 30), hbmFail := out ≠ [] }
  out.foldl (fun s j => errorLog s d 4 0 (Config.eventInfo (128 * d + j))) s

/-- HBM_TRAINING_DONE (R454): in phase 3 of every enabled die. -/
def execHbmTrainingDone (s : State) : Out :=
  let ds := enabledList s
  .next (if ds.all fun d => (s.die d).bootPhase = 3 && !(s.die d).trained then ds.foldl trainDie s else s)

/-- FULL_SERVICE_START (R456): at a ramp slot boundary, for the whole package at once; the slot that ends still ran at the lower
clock. -/
def execFullServiceStart (s : State) : Out := .next (if slotPassed s && serviceDue s then slotBoundary s else s)

/-! Attestation -/

def attestMagic : Nat := 0x4B574154

/-- A response (R461): header and body; the kind is the request's. -/
def attestReply (req : List Byte) (status : Nat) (body : List Byte) : List Byte :=
  leBytes 4 attestMagic ++ leBytes 2 1 ++ leBytes 1 (leNat ((req.drop 6).take 1)) ++ leBytes 1 status ++ leBytes 4 body.length ++ leBytes 4 0 ++ body

/-- A request of a kind is well formed: its header, and a body of n bytes (R461). -/
def attestWell (req : List Byte) (kind n : Nat) : Bool :=
  leNat (req.take 4) = attestMagic && leNat ((req.drop 4).take 2) = 1 && leNat ((req.drop 6).take 1) = kind
    && leNat ((req.drop 7).take 1) = 0 && leNat ((req.drop 8).take 4) = n && leNat ((req.drop 12).take 4) = 0 && req.length = 16 + n

def respond (s : State) (req : List Byte) (status : Nat) (body : List Byte) : State := send s (.attest (attestReply req status body))

/-- ATTEST_IDENTITY_REQUEST (R460, R461): answered in recovery as well, and refused once the index is exhausted. A well-formed request of the other kind is that row's. -/
def execAttestIdentityRequest (datagram : List Byte) (s : State) : Out :=
  .next (if attestWell datagram 2 32 then s
    else if attestWell datagram 1 0 then
      if 2 ^ 20 ≤ s.trust.index.toNat then respond s datagram 2 [] else respond s datagram 0 (leBytes 16 Config.serial.toNat ++ leBytes 68 Config.identityKey.toNat ++ leBytes 2500 Config.certificate.toNat)
    else respond s datagram 3 [])

/-- Active cores of a die (R302): ACTIVE.count. -/
def activeCores (s : State) (d : Nat) : List Nat := (List.range 320).filter fun j => !(sget 0 (s.die d).hmap (j / 64)).getLsbD (j % 64)

/-- The 22 words of a die in a report (R461). -/
def dieWords (s : State) (d : Nat) : List W64 :=
  if !s.dieEnabled d then List.replicate 22 0
  else
    let x := s.die d
    (List.range 5).map (sget 0 x.hmap) ++ [BitVec.ofNat 64 (activeCores s d).length] ++ (List.range 5).map (sget 0 x.qmap)
      ++ (List.range 2).map (sget 0 x.pcmap) ++ (List.range 8).map (sget 0 x.wlmap) ++ [x.latmap.setWidth 64]

/-- Bytes 0 to 1,487 of a report (R461). -/
def reportBody (s : State) (nonce : List Byte) : List Byte :=
  nonce ++ leBytes 32 (shake256 (s.trust.image.getD [])).toNat ++ leBytes 2 (runningVersion s).toNat ++ leBytes 2 s.floor.toNat
    ++ leBytes 4 s.trust.index.toNat ++ leBytes 8 s.enabled.toNat
    ++ (List.range 8).flatMap fun d => (dieWords s d).flatMap fun w => leBytes 8 w.toNat

/-- One report request that finds n pending before it (R460, R461): the index advances before the signature leaves. -/
def serveReport (p : State × Nat) (req : List Byte) : State × Nat :=
  let (s, n) := p
  if attestWell req 1 0 then p
  else if !attestWell req 2 32 then (respond s req 3 [], n)
  else if s.inRecovery then (respond s req 4 [], n)
  else if 8 ≤ n then (respond s req 1 [], n)
  else if 2 ^ 20 ≤ s.trust.index.toNat then (respond s req 2 [], n + 1)
  else
    let b := reportBody s (req.drop 16)
    let sig := leBytes 2820 (Config.sign s.trust.index b).toNat
    (respond { s with trust := { s.trust with index := s.trust.index + 1 } } req 0 (b ++ sig), n + 1)

/-- ATTEST_REPORT_REQUEST (R460, R461): requests that arrive together, signed one after the other; beyond eight they are
refused. -/
def execAttestReportRequest (datagrams : List (List Byte)) (s : State) : Out := .next (datagrams.foldl serveReport (s, 0)).1

/-! Thermal events -/

/-- GOV_CFG with the rise and fall of another (R432). -/
def withLimits (cfg lim : W64) : W64 := (cfg &&& ~~~0x3FFFF) ||| (lim &&& 0x3FFFF)

/-- rise and fall of 10 W/µs (R464). -/
def throttleLimits : W64 := 10#64 ||| (10#64 <<< 9)

def thermalRecord (s : State) (d : Nat) : State := errorLog s d 3 0 (Config.eventInfo s.tick)

/-- THERMAL_THROTTLE (R464). -/
def execThermalThrottle (die : Nat) (s : State) : Out :=
  if !s.dieEnabled die then .next s
  else
    let cfg := s.gov.newCfg.getD s.gov.cfg
    .next (thermalRecord { s with gov := { s.gov with
      newCfg := some (withLimits cfg throttleLimits), before := some (s.gov.before.getD (cfg, die)) } } die)

/-- THERMAL_RESTORE (R464): the previous rise and fall return. -/
def execThermalRestore (s : State) : Out :=
  match s.gov.before with
  | some (lim, d) =>
    .next (thermalRecord { s with gov := { s.gov with newCfg := some (withLimits (s.gov.newCfg.getD s.gov.cfg) lim), before := none } } d)
  | none => .next s

/-- THERMAL_CLOCK_STOP (R464): the part holds until reset. -/
def execThermalClockStop (die : Nat) (s : State) : Out :=
  if !s.dieEnabled die then .next s else .next { thermalRecord s die with power := .clockStopped }

end Sys2Proof.Machine
end

