-- ==== Sys2Proof/Machine/CapInstr.lean ====
section
/-! DEFINITION. Capability instructions (R127 to R134). -/

namespace Sys2Proof.Machine

/-- A task-register effect that may trap, with its retirement. -/
def aluTrap (g : Guard) (len : Nat) (s : State) (f : Task → Eff Task) : Out :=
  guarded g len s fun s => do
    let x ← f s.curTask
    pure (s.setTask s.curTid (x.advance len))

/-- CSETB (R127, R128). -/
def execCsetb (g : Guard) (d a b : BitVec 5) (s : State) : Out :=
  aluTrap g 4 s fun x =>
    let c := x.reg a
    match c.tag with
    | .mem =>
      match capSetb c.bits (x.r64 b).toNat with
      | some v => .ok (x.setReg d ⟨v, .mem⟩)
      | none => .error (.trap .capBounds (x.r64 a))
    | .entry => .ok (x.setReg d ⟨c.bits, .data⟩)
    | _ => .error (.trap .capTag (x.r64 a))

/-- CRESTR (R127, R129). -/
def execCrestr (g : Guard) (d a b : BitVec 5) (s : State) : Out :=
  aluTrap g 4 s fun x =>
    let c := x.reg a
    match c.tag with
    | .mem =>
      .ok (x.setReg d ⟨(capPerm c.bits &&& (x.r64 b).setWidth 8 &&& 0x7F) ++ c.bits.extractLsb' 0 120, .mem⟩)
    | .entry => .ok (x.setReg d ⟨c.bits, .data⟩)
    | _ => .error (.trap .capTag (x.r64 a))

/-- CADD (R127, R130): the tag stands only for a MEM source and under R19; an exponent above 38 never keeps it. -/
def execCadd (g : Guard) (d a b : BitVec 5) (s : State) : Out :=
  alu g 4 s fun x => x.setReg d (moveCursor (x.reg a) (x.r64 a + x.r64 b))

/-- The field that CGET reads (R131). -/
def capField (c : GVal) (f : Nat) : W128 :=
  let isCap := c.tag = .mem || c.tag = .entry
  let (lo, hi) := memBounds c.bits
  match f with
  | 0 => (cursor c.bits).setWidth 128
  | 1 => if isCap then BitVec.ofNat 128 lo else 0
  | 2 => if isCap then BitVec.ofNat 128 hi else 0
  | 3 => if isCap then BitVec.ofNat 128 (hi - lo) else 0
  | 4 => if c.tag = .data then 0 else (capPerm c.bits).setWidth 128
  | _ => match c.tag with | .data => 0 | .mem => 1 | .endp => 2 | .entry => 3

/-- CGET (R131). -/
def execCget (g : Guard) (d a f : BitVec 5) (s : State) : Out :=
  alu g 4 s fun x => x.setReg d ⟨capField (x.reg a) f.toNat, .data⟩

/-- CCLR (R132). -/
def execCclr (g : Guard) (d a : BitVec 5) (s : State) : Out :=
  alu g 4 s fun x => x.setReg d ⟨(x.reg a).bits, .data⟩

/-- The permission byte of an ENTRY made from a source (R23, R133). -/
def entryPerm (c : W128) (k : BitVec 2) : Byte :=
  0#1 ++ BitVec.ofBool (c.getLsbD 126) ++ 0#3 ++ 1#1 ++ BitVec.ofBool (k.getLsbD 1) ++ BitVec.ofBool (k.getLsbD 0)

/-- CSEAL with its checks in order (R127, R133); the cursor is compared with the bounds as it stands. -/
def execCseal (g : Guard) (d a : BitVec 5) (k : BitVec 2) (s : State) : Out :=
  aluTrap g 4 s fun x => do
    let c := x.reg a
    let v := x.r64 a
    failIf (k.getLsbD 1 && !x.sup.priv) (.trap .priv (headInfo (.cseal g d a k)))
    failIf (c.tag ≠ .mem) (.trap .capTag v)
    failIf (capPerm c.bits &&& permEx = 0) (.trap .capPerm v)
    failIf (v.extractLsb' 0 6 ≠ 0) (.trap .align v)
    let (lo, hi) := memBounds c.bits
    failIf (v.toNat < lo + 64 || hi < v.toNat + 4) (.trap .capBounds v)
    pure (x.setReg d ⟨entryPerm c.bits k ++ c.bits.extractLsb' 0 120, .entry⟩)

/-- The test of CTEST (R134). -/
def capTest (c : GVal) (n : W64) : Bool :=
  let (lo, hi) := memBounds c.bits
  let a := foldAddr hi (cursor c.bits).toNat
  c.tag = .mem && lo ≤ a && a + n.toNat ≤ hi

/-- CTEST (R134). -/
def execCtest (g : Guard) (p : BitVec 3) (a b : BitVec 5) (s : State) : Out :=
  alu g 4 s fun x => x.setPred p (capTest (x.reg a) (x.r64 b))

end Sys2Proof.Machine
end

