-- ==== Sys2Proof/Machine/Control.lean ====
section
/-! DEFINITION. Branches, calls, hardware loops, YIELD and NOP (R135 to R142, R144). END and SAFEPT are in TasksMsg. -/

namespace Sys2Proof.Machine

/-- BR (R135). -/
def execBr (g : Guard) (x : BitVec 21) (s : State) : Out :=
  .next (s.onCur fun t => if t.guardOk g then t.jump (moveCursor t.pcc (branchTarget t.pc x)) else t.advance 4)

/-- The link of a call: pcc with the cursor after the instruction (R136). -/
def Task.link (x : Task) : GVal := moveCursor x.pcc (x.pc + 4)

/-- CALL (R136). -/
def execCall (g : Guard) (x : BitVec 21) (s : State) : Out :=
  .next (s.onCur fun t =>
    if t.guardOk g then (t.setReg 31 t.link).jump (moveCursor t.pcc (branchTarget t.pc x)) else t.advance 4)

/-- JR: the target is read before the link is written (R137). -/
def execJr (g : Guard) (d a : BitVec 5) (s : State) : Out :=
  guarded g 4 s fun s => do
    let x := s.curTask
    let t := x.reg a
    let c := cursor t.bits
    failIf (t.tag ≠ .mem) (.trap .capTag c)
    failIf (capPerm t.bits &&& permEx = 0) (.trap .capPerm c)
    failIf (c.extractLsb' 0 2 ≠ 0) (.trap .align c)
    pure (s.onCur fun x => (x.setReg d x.link).jump t)

/-- The word that stands at an address, as a fetch would read it; none where a fetch would stop (log entry 20). -/
def peekWord (s : State) (a : W64) : Option W32 :=
  match fetchWord s a with
  | .ok (_, w) => some w
  | .error _ => none

/-- The address of the instruction that follows the one at an address (R86, R138). -/
def afterInstr (s : State) (a : W64) : W64 :=
  match peekWord s a with
  | some w => if hasLiteral w then a + 8 else a + 4
  | none => a + 4

/-- Arms a loop counter (R138). -/
def Task.arm (x : Task) (n : BitVec 1) (l : LoopRegs) : Task := if n = 0 then { x with l0 := l } else { x with l1 := l }

/-- The effect of LOOP and LOOPI with a count (R138). -/
def loopEffect (s : State) (n : BitVec 1) (count : W32) (dist : BitVec 20) (isIdx : Bool) (idx : BitVec 5) (step : BitVec 11) :
    State :=
  let lb := s.curTask.pc + 8
  let le := lb + (dist.setWidth 64) * 4
  if count = 0 then s.onCur fun x => x.jump (moveCursor x.pcc (afterInstr s le))
  else s.onCur fun x => (x.arm n ⟨count, lb, le, isIdx, idx, step⟩).advance 8

/-- LOOP (R138). -/
def execLoop (g : Guard) (a : BitVec 5) (n : BitVec 1) (dist : BitVec 20) (s : State) : Out :=
  guarded g 8 s fun s => .ok (loopEffect s n ((s.curTask.r64 a).setWidth 32) dist false 0 0)

/-- LOOPI (R138). -/
def execLoopi (g : Guard) (d a : BitVec 5) (step : BitVec 11) (n : BitVec 1) (dist : BitVec 20) (s : State) : Out :=
  guarded g 8 s fun s => .ok (loopEffect s n ((s.curTask.r64 a).setWidth 32) dist true d step)

/-- NOP (R142). -/
def execNop (g : Guard) (s : State) : Out := alu g 4 s fun x => x

/-- YIELD (R144). -/
def execYield (g : Guard) (s : State) : Out :=
  guarded g 4 s fun s =>
    let x := s.curTask
    let t := s.curTid
    let s := retire s 4
    .ok (if x.high || x.tower ≠ [] || s.me.readyBase = [] then s else makeReady s t)

end Sys2Proof.Machine
end

