-- ==== Sys2Proof/Machine/Ctl.lean ====
section
/-! DEFINITION. The control window of a die (R330): what each register reads as and what a write to it does, by 64-bit word.
A 32-bit access reads or writes one half (R151; log entry 28). -/

namespace Sys2Proof.Machine

/-- The register of a regular group that starts at `base`, has `n` members `step` bytes apart and lies at offset `o`. -/
def memberAt (o base step n : Nat) : Option Nat :=
  if base ≤ o && (o - base) % step = 0 && (o - base) / step < n then some ((o - base) / step) else none

/-- Package-wide notification targets keep [16:0] (R351). -/
def notifyBits (v : W64) : W64 := v &&& 0x1FFFF

/-! Reads -/

/-- Entry k of the logical-to-physical table (R302). -/
def l2p (s : State) (d k : Nat) : Nat := match (activeCores s d)[k]? with | some p => p + 2 ^ 31 | none => 0

/-- The harvest block (R302, R462). -/
def harvestRead (s : State) (d o : Nat) : Option W64 :=
  let x := s.die d
  if let some w := memberAt o 0 8 5 then some (sget 0 x.hmap w)
  else if o = 0x40 then some (BitVec.ofNat 64 (activeCores s d).length)
  else if let some w := memberAt o 0x80 8 5 then some (sget 0 x.qmap w)
  else if let some w := memberAt o 0xC0 8 2 then some (sget 0 x.pcmap w)
  else if let some w := memberAt o 0xD0 8 8 then some (sget 0 x.wlmap w)
  else if o = 0x110 then some (x.latmap.setWidth 64)
  else (memberAt o 0x1000 8 160).map fun k => BitVec.ofNat 64 (l2p s d (2 * k) + l2p s d (2 * k + 1) * 2 ^ 32)

/-- The spire's registers (R299, R300). -/
def spireRead (s : State) (o : Nat) : Option W64 :=
  let p := s.spire
  match o with
  | 0x00 => some p.lqBase | 0x08 => some p.lqCfg | 0x10 => some (p.lqHead.setWidth 64) | 0x18 => some (p.lqTail.setWidth 64)
  | 0x20 => some p.codeBase | 0x28 => some p.codeTop | 0x30 => some p.argBase | 0x38 => some p.argTop
  | 0x40 => some 0 | 0x48 => some (jobStatValue s) | 0x50 => some p.jobArea | 0x58 => some p.jobAreaLen | 0x60 => some p.preemptDl
  | _ => none

/-- ASTAB: lsize 13 to 15 read as 12 (R331). -/
def astabRead (s : State) : W64 := if 12 < (s.astab.extractLsb' 0 4).toNat then (s.astab &&& ~~~15) ||| 12 else s.astab

/-- A cluster's translation block (R351). -/
def transRead (y : Cluster) (o : Nat) : Option W64 :=
  match o with
  | 0x00 => some (fbStat y) | 0x08 => some y.fbNotify | 0x10 => some 0
  | o =>
    match memberAt o 0x40 16 8, memberAt o 0x48 16 8 with
    | some e, _ => some (sget FbEntry.free y.fb e).low
    | none, some e => some (fbHigh y e)
    | none, none => none

/-- The fabric block (R394, R419, R450). -/
def fabricRead (s : State) (o : Nat) : Option W64 :=
  let f := s.fabric
  if let some e := memberAt o 0x1000 8 512 then some (sget 0 f.ct e)
  else if let some c := memberAt o 0x2000 8 256 then some (sget 0 f.route c)
  else match o with
    | 0x3000 => some f.alogBase | 0x3008 => some f.alogLen | 0x3010 => some f.alogWr | 0x3018 => some f.alogCtl
    | 0x3020 => some f.alogOrigin | 0x3028 => some f.alogEnd | 0x3030 => some (alogRstat f)
    | _ => none

/-- The host block (R414, R416, R417). -/
def hostRead (s : State) (o : Nat) : Option W64 :=
  if o < 0x400 then (if o % 0x100 < 0x38 then some (hpRead s (o / 0x100) (o % 0x100 / 8)) else none)
  else if let some i := memberAt o 0x1000 16 256 then some (sget 0 s.host.regLow i)
  else if let some i := memberAt o 0x1008 16 256 then some (sget 0 s.host.regHigh i)
  else (memberAt o 0x10000 8 16384).map fun w => qpShown (w % 8) (s.qpWord (w / 8) (w % 8))

/-- The governor block (R432). -/
def govRead (s : State) (o : Nat) : Option W64 :=
  match o with
  | 0x00 => some (s.gov.newCfg.getD s.gov.cfg) | 0x08 => some (govSlot s.gov) | 0x10 => some (s.gov.watts.setWidth 64)
  | 0x18 => some (s.gov.viol.setWidth 64)
  | _ => none

/-- A cluster's tile-walk block (R408). -/
def walkRead (y : Cluster) (o : Nat) : Option W64 :=
  match o with
  | 0x00 => some 0 | 0x08 => some y.twBase | 0x10 => some y.twLen
  | 0x18 => some (BitVec.ofNat 64 (y.twErr.toNat + y.peers.length * 16))
  | 0x20 => some y.twCloseLo | 0x28 => some y.twCloseHi | 0x30 => some (y.twCloseCnt.setWidth 64) | 0x38 => some y.twNotify
  | _ => none

/-- The debug block (R443): words of entry e are numbered 4 e. -/
def debugRead (s : State) (o : Nat) : Option W64 :=
  match o with
  | 0x00 => some s.dbg.area | 0x08 => some s.dbg.areaLen | 0x10 => some 0 | 0x18 => some (dbgStat s) | 0x20 => some s.dbg.next
  | o => (memberAt o 0x100 8 32).bind fun w => if w % 4 = 3 then none else some (sget 0 s.dbg.bp w)

/-- BOOT_STAT (R457). -/
def bootStat (s : State) (d : Nat) : W64 :=
  let x := s.die d
  BitVec.ofNat 64 (x.bootPhase.toNat + bit x.hbmFail 3 + x.fwVer.toNat * 2 ^ 16 + s.floor.toNat * 2 ^ 32)

/-- The boot and error-log block (R457). -/
def bootRead (s : State) (d o : Nat) : Option W64 :=
  let x := s.die d
  match o with
  | 0x00 => some (bootStat s d) | 0x08 => some x.elogBase | 0x10 => some x.elogLen | 0x18 => some x.elogWr | 0x20 => some x.eccCe
  | 0x28 => some x.elogNotify
  | _ => none

/-- A block of the window by number of mebibytes, with the offset in it: blocks of clusters are 0x100 bytes apart. -/
def clusterBlock (d o : Nat) : Option (Nat × Nat) := if o < 0x5000 then some (d * 80 + o / 0x100, o % 0x100) else none

/-- The 64-bit word of a die's control window at an offset that is a multiple of 8; none where no block assigns it (R330). -/
def ctlRead (s : State) (d off : Nat) : Option W64 :=
  let o := off % 0x100000
  match off / 0x100000 with
  | 0 => harvestRead s d o
  | 1 => spireRead s o
  | 3 => if o = 0 then some ((s.hbmTop d).setWidth 64) else if o = 8 then some (astabRead s) else none
  | 4 => (clusterBlock d o).bind fun p => transRead (s.cluster p.1) p.2
  | 5 => fabricRead s o
  | 6 => hostRead s o
  | 7 => govRead s o
  | 8 => (clusterBlock d o).bind fun p => walkRead (s.cluster p.1) p.2
  | 9 => debugRead s o
  | 10 => bootRead s d o
  | _ => none

/-! Writes -/

/-- Bits of a register of which a mask is written: W1C bits outside it must read as 0 in what is merged (R8). -/
def merge (old v mask w1c : W64) : W64 := (old &&& ~~~mask &&& ~~~w1c) ||| (v &&& mask)

/-- A write to the spire block (R299, R300). DESIGN CHOICE: a PREEMPT_DL outside 1 to 2^32 − 1 becomes the nearer bound, and a base
that is not 64-byte aligned is rounded down (log entry 28). -/
def spireWrite (s : State) (o : Nat) (v : W64) : State :=
  let p := s.spire
  match o with
  | 0x00 => { s with spire := { p with lqBase := v &&& 0x3FFFFFFFFFC0 } }
  | 0x08 => { s with spire := { p with lqCfg := (v &&& 0x1FFFFF) ||| (p.lqCfg &&& ~~~v &&& 0x200000) } }
  | 0x18 => lqTailWrite s v
  | 0x20 => { s with spire := { p with codeBase := v &&& 0xFFFFFFFFFFFFF } }
  | 0x28 => { s with spire := { p with codeTop := v &&& 0xFFFFFFFFFFFFF } }
  | 0x30 => { s with spire := { p with argBase := v &&& 0xFFFFFFFFFFFFF } }
  | 0x38 => { s with spire := { p with argTop := v &&& 0xFFFFFFFFFFFFF } }
  | 0x40 => jobCommand s (v.setWidth 32) (v.extractLsb' 32 2).toNat
  | 0x48 => { s with spire := { p with jobStat := p.jobStat &&& ~~~(v &&& 0x1000000000) } }
  | 0x50 => { s with spire := { p with jobArea := v &&& 0x3FFFFFFFFFC0 } }
  | 0x58 => { s with spire := { p with jobAreaLen := v } }
  | 0x60 => { s with spire := { p with preemptDl := BitVec.ofNat 64 (clampTo 1 (2 ^ 32 - 1) v.toNat) } }
  | _ => s

def transWrite (s : State) (c o : Nat) (v : W64) : State :=
  match o with
  | 0x00 => fbStatWrite s c v
  | 0x08 => s.onCluster c fun y => { y with fbNotify := notifyBits v }
  | 0x10 => if v.getLsbD 0 then replayAll s c else s
  | _ => s

/-- A write to the fabric block (R394, R419, R450). DESIGN CHOICE: an ALOG_BASE or ALOG_LEN that is not a multiple of 4 KiB is rounded
down (log entry 28). -/
def fabricWrite (s : State) (o : Nat) (v : W64) : State :=
  let f := s.fabric
  if let some e := memberAt o 0x1000 8 512 then ctWrite s e v
  else if let some c := memberAt o 0x2000 8 256 then { s with fabric := { f with route := sset 0 f.route c (v &&& 0x1F) } }
  else match o with
    | 0x3000 => { s with fabric := { f with alogBase := v &&& 0x3FFFFFFFF000 } }
    | 0x3008 => { s with fabric := { f with alogLen := v &&& ~~~0xFFF } }
    | 0x3018 => alogControl s v
    | 0x3028 => { s with fabric := { f with alogEnd := v } }
    | _ => s

/-- The host block through the control window takes writes to the region table alone (R414, R416, R417). -/
def hostWrite (s : State) (o : Nat) (v : W64) : State :=
  let h := s.host
  if let some i := memberAt o 0x1000 16 256 then { s with host := { h with regLow := sset 0 h.regLow i (v &&& 0x3FFFFFFFF00F) } }
  else if let some i := memberAt o 0x1008 16 256 then { s with host := { h with regHigh := sset 0 h.regHigh i v } }
  else s

/-- The host block over the management port (R416, R417, R464). -/
def mgmtWrite (s : State) (o : Nat) (v : W64) : State :=
  if o < 0x400 then hpWrite s (o / 0x100) (o % 0x100 / 8) v
  else match memberAt o 0x10000 8 16384 with
    | some w => qpWrite s (w / 8) (w % 8) v
    | none => hostWrite s o v

def walkWrite (s : State) (c o : Nat) (v : W64) : State :=
  match o with
  | 0x00 => twAdopt s c v
  | 0x08 => s.onCluster c fun y => { y with twBase := v &&& 0xFFFFFFFFFFFE0 }
  | 0x10 => s.onCluster c fun y => { y with twLen := v &&& 0xFFFFFFFFFF }
  | 0x38 => s.onCluster c fun y => { y with twNotify := notifyBits v }
  | _ => s

/-- A write to the debug block (R444 to R446). DESIGN CHOICE: a stop area that is not 64-byte aligned is rounded down (log entry
28). -/
def debugWrite (s : State) (o : Nat) (v : W64) : State :=
  let g := s.dbg
  match o with
  | 0x00 => { s with dbg := { g with area := v &&& 0x3FFFFFFFFFC0 } }
  | 0x08 => { s with dbg := { g with areaLen := v } }
  | 0x10 => dbgCommand s (v.setWidth 48) (v.extractLsb' 48 2).toNat
  | 0x20 => { s with dbg := { g with next := v } }
  | o =>
    match memberAt o 0x100 8 32 with
    | some w =>
      let v := match w % 4 with | 1 => v &&& 0xFFFFFFFFFFFF | 2 => v &&& 0xFFFFFFFFFFFFF | _ => v
      { s with dbg := { g with bp := sset 0 g.bp w v } }
    | none => s

/-- A write to the boot block (R457). DESIGN CHOICE: an ELOG base or length off its alignment is rounded down (log entry 28). -/
def bootWrite (s : State) (d o : Nat) (v : W64) : State :=
  match o with
  | 0x08 => s.onDie d fun x => { x with elogBase := v &&& 0x3FFFFFFFFFC0 }
  | 0x10 => s.onDie d fun x => { x with elogLen := v &&& ~~~63 }
  | 0x20 => s.onDie d fun x => { x with eccCe := v }
  | 0x28 => s.onDie d fun x => { x with elogNotify := notifyBits v }
  | _ => s

/-- W1C bits of the word at an offset (R8): LQ_CFG, JOB_STAT, FB_STAT, ALOG_CTL. -/
def w1cBits (off : Nat) : W64 :=
  if off = 0x100008 then 0x200000
  else if off = 0x100048 then 0x1000000000
  else if off / 0x100000 = 4 && off % 0x100 = 0 then 0x1FF
  else if off = 0x503018 then 4
  else 0

/-- A whole word of a die's control window is written. -/
def ctlPut (s : State) (d off : Nat) (v : W64) : State :=
  let o := off % 0x100000
  match off / 0x100000 with
  | 1 => spireWrite s o v
  | 3 => if o = 8 then { s with astab := v &&& 0x3FFFFFFFF00F } else s
  | 4 => match clusterBlock d o with | some p => transWrite s p.1 p.2 v | none => s
  | 5 => fabricWrite s o v
  | 6 => hostWrite s o v
  | 7 => if o = 0 then { s with gov := { s.gov with newCfg := some (govCfg v) } } else s
  | 8 => match clusterBlock d o with | some p => walkWrite s p.1 p.2 v | none => s
  | 9 => debugWrite s o v
  | 10 => bootWrite s d o v
  | _ => s

/-- The word that a write of 4 or 8 bytes at an offset presents, and its offset. -/
def ctlWord (old v : W64) (off n : Nat) : W64 :=
  if n = 8 then v
  else if off % 8 = 4 then merge old (v <<< 32) 0xFFFFFFFF00000000 (w1cBits (off - 4))
  else merge old v 0xFFFFFFFF (w1cBits off)

/-- A write of 4 or 8 bytes to a die's control window; nothing where no block assigns the offset (R8, R151, R330). -/
def ctlWrite (s : State) (d off n : Nat) (v : W64) : State :=
  let o := off - off % 8
  match ctlRead s d o with
  | some old => ctlPut s d o (ctlWord old v off n)
  | none => s

/-- CONTROL_REGISTER_WRITE (R8, R464): through the control window, or over the management port, which reaches the host block.
A die answers from phase 1 on (R454). -/
def execControlRegisterWrite (mgmt : Bool) (die off size : Nat) (value : W64) (s : State) : Out :=
  let p := (s.die die).bootPhase
  if !s.dieEnabled die || p = 0 || p = 5 || !(size = 4 || size = 8) || off % size ≠ 0 then .next s
  else if mgmt then
    if off / 0x100000 = 6 then
      match ctlRead s die (off - off % 8) with
      | some old => .next (mgmtWrite s ((off - off % 8) % 0x100000) (ctlWord old value off size))
      | none => .next s
    else .next s
  else .next (ctlWrite s die off size value)

end Sys2Proof.Machine
end

