-- ==== Sys2Proof/Machine/LoadStore.lean ====
section
/-! DEFINITION. LD and ST (R154, R155), with element accesses in the plane windows (R70, R73, R150) and control registers
(R151). -/

namespace Sys2Proof.Machine

/-- Sign or zero extension of a loaded value by sz (R154). -/
def loadValue (z : BitVec 3) (n v : Nat) : GVal :=
  match z.toNat with
  | 1 | 3 | 5 => data64 (BitVec.ofInt 64 (sxInt v (8 * n)))
  | _ => ⟨BitVec.ofNat 128 v, .data⟩

/-- The sizes at which an access may reach an element (R150), where check 1 covers the granule's footprint (R70); for the
other sizes, which check 3 refuses, check 1 covers the bytes of the access (log entry 28). -/
def elemSize (z : BitVec 3) : Bool := z = 4 || z = 5 || z = 6

/-- A control register is named by a naturally aligned 32-bit or 64-bit access (R151): the word it lies in. An access of
another size traps ALIGN before it is asked whether the mapping has the supervisor bit or a block assigns the offset (log
entry 28). -/
def ctlTarget (s : State) (a : W64) (n d off : Nat) (sup : Bool) : Eff W64 :=
  if n ≠ 4 && n ≠ 8 then .error (.after s (.trap .align a))
  else if !sup then .error (.after s (.trap .busError a))
  else match ctlRead s d (off - off % 8) with
    | some w => .ok w
    | none => .error (.after s (.trap .busError a))

/-- The value of a control register access (R151). -/
def ctlPart (w : W64) (off n : Nat) : Nat := if n = 8 then w.toNat else w.toNat / 2 ^ (8 * (off % 8)) % 2 ^ 32

/-- LD (R154): an element keeps zeros above it (R73). -/
def execLd (g : Guard) (d a : BitVec 5) (o : BitVec 8) (z : BitVec 3) (s : State) : Out :=
  guarded g 4 s fun s => do
    let c := s.curTask.reg a
    let n := szBytes z
    let e := eaM c o n
    let (s, t) ← resolve s c permLd e n n .load (elemSize z)
    match t, planeWin e with
    | .mem pa, some w =>
      let (b, i) := elemAt w e
      failIf (elemBad s (spadPa s.cur) w b i) (.after (closeFrames s (spadPa s.cur + e.toNat % 0x100000) 1) (.trap .memUe e))
      let (v, fl) := loadElem s w e
      pure ((s.chargeCur pa n).onCur fun x => ((x.addFlags fl).setReg d ⟨BitVec.ofNat 128 v, .data⟩).advance 4)
    | .mem pa, none =>
      loadable s e pa n
      pure ((s.chargeCur pa n).onCur fun x => (x.setReg d (loadValue z n (s.seenNat e pa n))).advance 4)
    | .ctl die off sup, _ =>
      let w ← ctlTarget s e n die off sup
      pure (s.onCur fun x => (x.setReg d (loadValue z n (ctlPart w off n))).advance 4)

/-- ST (R155): a capability is stored as plain data. A control-register write acts when the instruction has retired. -/
def execSt (g : Guard) (d a : BitVec 5) (o : BitVec 8) (z : BitVec 3) (s : State) : Out :=
  guarded g 4 s fun s => do
    let c := s.curTask.reg a
    let n := szBytes z
    let e := eaM c o n
    let v := (s.curTask.reg d).bits.toNat
    let (s, t) ← resolve s c permSt e n n .store (elemSize z)
    match t, planeWin e with
    | .mem pa, some w =>
      let (s, fl) := storeElem s s.curTask.sat .rne w e (v % 2 ^ (8 * n))
      pure (((s.chargeOut pa n).owe 4).onCur fun x => (x.addFlags fl).advance 4)
    | .mem pa, none => pure (retire (((s.store e pa (leBytes n v)).chargeOut pa n).owe 4) 4)
    | .ctl die off sup, _ =>
      let _ ← ctlTarget s e n die off sup
      pure (ctlWrite (retire s 4) die off n (BitVec.ofNat 64 v))

end Sys2Proof.Machine
end

