-- ==== Sys2Proof/Machine/Vector.lean ====
section
/-! DEFINITION. The vector unit (R177 to R191): its queue, lane arithmetic, conversions, permutations, compares, moves and
reductions. The effect of a vector instruction is made at its dispatch (R178); its queue entry carries the flags. -/

namespace Sys2Proof.Machine

/-- Lane width and format of a lane type (R181); integers have no format. -/
def laneWidth (t : Nat) : Nat :=
  match t with
  | 0 => 32 | 1 => 16 | 2 => 16 | 3 => 64 | 4 => 8 | 5 => 16 | 6 => 32 | _ => 64
def laneFmt (t : Nat) : Option Fmt :=
  match t with
  | 0 => some fp32 | 1 => some bf16 | 2 => some fp16 | 3 => some fp64 | _ => none
def laneCount (t : Nat) : Nat := 512 / laneWidth t

def laneOf (v : W512) (w i : Nat) : Nat := (v.extractLsb' (w * i) w).toNat

/-- Lanes packed into a register, lane 0 lowest. -/
def packNat (w : Nat) : List Nat → Nat
  | [] => 0
  | x :: xs => x % 2 ^ w + 2 ^ w * packNat w xs
def packLanes (w : Nat) (l : List Nat) : W512 := BitVec.ofNat 512 (packNat w l)

/-- Lanes 0 to n - 1: an active lane takes f's value and flags, another keeps the old one (R182). -/
def lanesOr (n : Nat) (act : Nat → Bool) (old : Nat → Nat) (f : Nat → Nat × Flags) : List Nat × Flags :=
  (List.range n).foldr (fun i acc => let r := if act i then f i else (old i, 0); (r.1 :: acc.1, r.2 ||| acc.2)) ([], 0)

/-- What dome-only service withholds (R455). -/
def withheld (s : State) (i : Instr) (b : Bool) : Eff Unit := failIf (b && s.domeOnly) (.trap .illegalInstr (wordInfo i))

/-- Entry of a task's instruction into the vector queue; a full queue stalls it (R177). -/
def vecEnter (s : State) (fl : Flags) (ue : Option W64) : Eff State :=
  if 16 ≤ s.me.vecq.length then .error (.wait .vecq)
  else .ok (s.onCore s.cur fun c => { c with vecq := c.vecq ++ [⟨s.curTid, fl, ue, .none⟩] })

/-- A vector instruction on registers alone. -/
def vecOp (g : Guard) (i : Instr) (f64 : Bool) (s : State) (f : Task → Task × Flags) : Out :=
  guarded g 4 s fun s => do
    withheld s i f64
    let (x, fl) := f s.curTask
    vecEnter (s.setTask s.curTid (x.advance 4)) fl none

/-- Writes the active lanes of vd (R182). -/
def mapLanes (x : Task) (d : BitVec 4) (m : BitVec 2) (t : Nat) (f : Nat → Nat × Flags) : Task × Flags :=
  let w := laneWidth t
  let (l, fl) := lanesOr (laneCount t) (fun i => (x.mask m).getLsbD i) (laneOf (x.vec d) w) f
  (x.setVec d (packLanes w l), fl)

/-- An exact floating-point value in a lane type (R183). -/
def toLane (f : Fmt) (r : FVal × Flags) : Nat × Flags :=
  let (c, fl) := fconv f false .rne r.1
  (c, fl ||| r.2)

/-- a * b + c, exactly; a NaN operand sets invalid only when it signals (R63). -/
def ffma (a b c : FVal) : FVal × Flags :=
  if a.isNan || b.isNan || c.isNan then (.nan false, sigFlag a ||| sigFlag b ||| sigFlag c)
  else
    let (p, f1) := fmul a b
    if p.isNan then (p, f1) else fadd p c

/-- VMAX and VMIN of values (R185). -/
def fmaxmin (isMax : Bool) (a b : FVal) : FVal × Flags :=
  let fl := sigFlag a ||| sigFlag b
  if a.isNan then (if b.isNan then .nan false else b, fl)
  else if b.isNan then (a, fl)
  else if flt true a b = isMax then (b, fl) else (a, fl)

/-- A two- or three-operand lane operation on floating-point values (R184, R185). -/
def vecFp (op : Nat) (a b c : FVal) : FVal × Flags :=
  match op with
  | 0 => fadd a b
  | 1 => fadd a (fneg b)
  | 2 => fmul a b
  | 3 => ffma a b c
  | 4 => fmaxmin true a b
  | 5 => fmaxmin false a b
  | 6 => (fabs a, sigFlag a)
  | _ => (fneg a, sigFlag a)

/-- The same on integers (R183, R184). -/
def vecInt (op w : Nat) (a b c : Int) : Nat :=
  wrapInt (match op with
    | 0 => a + b
    | 1 => a - b
    | 2 => a * b
    | 3 => a * b + c
    | 4 => if a ≤ b then b else a
    | 5 => if a ≤ b then a else b
    | 6 => if a < 0 then -a else a
    | _ => -a) w

/-- A lane of the arithmetic of major 0x40, func 0 to 7 (R184). -/
def vecLane (op t a b c : Nat) : Nat × Flags :=
  match laneFmt t with
  | some f => toLane f (vecFp op (fdecode f a) (fdecode f b) (fdecode f c))
  | none => let w := laneWidth t; (vecInt op w (sxInt a w) (sxInt b w) (sxInt c w), 0)

/-- An arithmetic vector instruction (R184). -/
def vecArith (g : Guard) (i : Instr) (op : Nat) (d a b : BitVec 4) (m : BitVec 2) (t : BitVec 3) (s : State) : Out :=
  vecOp g i (t = 3) s fun x =>
    let w := laneWidth t.toNat
    mapLanes x d m t.toNat fun k => vecLane op t.toNat (laneOf (x.vec a) w k) (laneOf (x.vec b) w k) (laneOf (x.vec d) w k)

/-- VADD (R184). -/
def execVadd (g : Guard) (d a b : BitVec 4) (m : BitVec 2) (t : BitVec 3) (s : State) : Out :=
  vecArith g (.vadd g d a b m t) 0 d a b m t s

/-- VSUB (R184). -/
def execVsub (g : Guard) (d a b : BitVec 4) (m : BitVec 2) (t : BitVec 3) (s : State) : Out :=
  vecArith g (.vsub g d a b m t) 1 d a b m t s

/-- VMUL (R184). -/
def execVmul (g : Guard) (d a b : BitVec 4) (m : BitVec 2) (t : BitVec 3) (s : State) : Out :=
  vecArith g (.vmul g d a b m t) 2 d a b m t s

/-- VFMA (R184). -/
def execVfma (g : Guard) (d a b : BitVec 4) (m : BitVec 2) (t : BitVec 3) (s : State) : Out :=
  vecArith g (.vfma g d a b m t) 3 d a b m t s

/-- VMAX (R184, R185). -/
def execVmax (g : Guard) (d a b : BitVec 4) (m : BitVec 2) (t : BitVec 3) (s : State) : Out :=
  vecArith g (.vmax g d a b m t) 4 d a b m t s

/-- VMIN (R184, R185). -/
def execVmin (g : Guard) (d a b : BitVec 4) (m : BitVec 2) (t : BitVec 3) (s : State) : Out :=
  vecArith g (.vmin g d a b m t) 5 d a b m t s

/-- VABS (R184). -/
def execVabs (g : Guard) (d a : BitVec 4) (m : BitVec 2) (t : BitVec 3) (s : State) : Out :=
  vecArith g (.vabs g d a m t) 6 d a a m t s

/-- VNEG (R184). -/
def execVneg (g : Guard) (d a : BitVec 4) (m : BitVec 2) (t : BitVec 3) (s : State) : Out :=
  vecArith g (.vneg g d a m t) 7 d a a m t s

/-- A function of one operand, in a floating-point lane type (R186). -/
def vecFunc (g : Guard) (i : Instr) (f : Fmt → FVal → Nat × Flags) (d a : BitVec 4) (m : BitVec 2) (t : BitVec 3) (s : State) : Out :=
  vecOp g i (t = 3) s fun x =>
    let w := laneWidth t.toNat
    let ft := (laneFmt t.toNat).getD fp32
    mapLanes x d m t.toNat fun k => f ft (fdecode ft (laneOf (x.vec a) w k))

/-- VEXP2 (R186). -/
def execVexp2 (g : Guard) (d a : BitVec 4) (m : BitVec 2) (t : BitVec 3) (s : State) : Out :=
  vecFunc g (.vexp2 g d a m t) fexp2 d a m t s

/-- VLOG2 (R186). -/
def execVlog2 (g : Guard) (d a : BitVec 4) (m : BitVec 2) (t : BitVec 3) (s : State) : Out :=
  vecFunc g (.vlog2 g d a m t) flog2 d a m t s

/-- VRCP (R186). -/
def execVrcp (g : Guard) (d a : BitVec 4) (m : BitVec 2) (t : BitVec 3) (s : State) : Out :=
  vecFunc g (.vrcp g d a m t) frcp d a m t s

/-- VRSQ (R186). -/
def execVrsq (g : Guard) (d a : BitVec 4) (m : BitVec 2) (t : BitVec 3) (s : State) : Out :=
  vecFunc g (.vrsq g d a m t) frsq d a m t s

/-- cvt of R187: lane of type t to lane of type r under FCTL.sat. A wider or equal floating-point type is exact (R64). -/
def cvtLane (sat : Bool) (t r v : Nat) : Nat × Flags :=
  let ws := laneWidth t
  let wr := laneWidth r
  match laneFmt t, laneFmt r with
  | some fs, some fr => fconv fr (sat && !(t = r || ws < wr)) .rne (fdecode fs v)
  | some fs, none => iconv wr .rne (fdecode fs v)
  | none, some fr => fconv fr sat .rne (ofInt (sxInt v ws))
  | none, none => if ws ≤ wr then (wrapInt (sxInt v ws) wr, 0) else iconv wr .rne (ofInt (sxInt v ws))

/-- VCVT (R187). -/
def execVcvt (g : Guard) (d a : BitVec 4) (f : BitVec 3) (m : BitVec 2) (t : BitVec 3) (s : State) : Out :=
  vecOp g (.vcvt g d a f m t) (t = 3 || f = 3) s fun x =>
    mapLanes x d m t.toNat fun k =>
      if k < laneCount f.toNat then cvtLane x.sat f.toNat t.toNat (laneOf (x.vec a) (laneWidth f.toNat) k) else (0, 0)

/-- VSEL: every lane, the mask selects (R188). -/
def execVsel (g : Guard) (d a b : BitVec 4) (m : BitVec 2) (t : BitVec 3) (s : State) : Out :=
  vecOp g (.vsel g d a b m t) (t = 3) s fun x =>
    let w := laneWidth t.toNat
    let l := (List.range (laneCount t.toNat)).map fun k => laneOf (if (x.mask m).getLsbD k then x.vec a else x.vec b) w k
    (x.setVec d (packLanes w l), 0)

/-- VSHF (R188). -/
def execVshf (g : Guard) (d a b : BitVec 4) (m : BitVec 2) (t : BitVec 3) (s : State) : Out :=
  vecOp g (.vshf g d a b m t) (t = 3) s fun x =>
    let w := laneWidth t.toNat
    mapLanes x d m t.toNat fun k => (laneOf (x.vec a) w (laneOf (x.vec b) w k % laneCount t.toNat), 0)

/-- VIOTA: every lane, the set mask bits below it (R188). -/
def execViota (g : Guard) (d : BitVec 4) (m : BitVec 2) (t : BitVec 3) (s : State) : Out :=
  vecOp g (.viota g d m t) (t = 3) s fun x =>
    let l := (List.range (laneCount t.toNat)).map fun k => ((List.range k).filter fun j => (x.mask m).getLsbD j).length
    (x.setVec d (packLanes (laneWidth t.toNat) l), 0)

/-- MAND (R188). -/
def execMand (g : Guard) (d a b : BitVec 2) (s : State) : Out :=
  vecOp g (.mand g d a b) false s fun x => (x.setMask d (x.mask a &&& x.mask b), 0)
/-- MOR (R188). -/
def execMor (g : Guard) (d a b : BitVec 2) (s : State) : Out :=
  vecOp g (.mor g d a b) false s fun x => (x.setMask d (x.mask a ||| x.mask b), 0)
/-- MNOT (R188). -/
def execMnot (g : Guard) (d a : BitVec 2) (s : State) : Out :=
  vecOp g (.mnot g d a) false s fun x => (x.setMask d (~~~x.mask a), 0)

/-- A compare of values by condition code (R189). -/
def vcmpFp (cc : Nat) (a b : FVal) : Bool :=
  let un := a.isNan || b.isNan
  match cc with
  | 0 => feq a b
  | 1 => !feq a b
  | 2 => !un && flt false a b
  | 3 => !un && !flt false b a
  | 4 => un || flt false a b
  | _ => un || !flt false b a

def vcmpInt (cc w a b : Nat) : Bool :=
  match cc with
  | 0 => a = b
  | 1 => a ≠ b
  | 2 => sxInt a w < sxInt b w
  | 3 => sxInt a w ≤ sxInt b w
  | 4 => a < b
  | _ => a ≤ b

/-- The bit and the flags of a compared lane (R189). -/
def vcmpLane (cc t a b : Nat) : Bool × Flags :=
  match laneFmt t with
  | some f => let x := fdecode f a; let y := fdecode f b; (vcmpFp cc x y, sigFlag x ||| sigFlag y)
  | none => (vcmpInt cc (laneWidth t) a b, 0)

/-- VCMP (R189). -/
def execVcmp (g : Guard) (d : BitVec 2) (a b : BitVec 4) (m : BitVec 2) (t : BitVec 3) (c : BitVec 4) (s : State) : Out :=
  vecOp g (.vcmp g d a b m t c) (t = 3) s fun x =>
    let w := laneWidth t.toNat
    let n := laneCount t.toNat
    let (l, fl) := lanesOr n (fun i => (x.mask m).getLsbD i) (fun _ => 0) fun k =>
      let (r, fl) := vcmpLane c.toNat t.toNat (laneOf (x.vec a) w k) (laneOf (x.vec b) w k)
      (bit r 0, fl)
    (x.setMask d (BitVec.ofNat 64 (packNat 1 l + (x.mask d).toNat / 2 ^ n * 2 ^ n)), fl)

/-- A 5-bit v field (R93). -/
def vreg (r : BitVec 5) : BitVec 4 := r.setWidth 4

/-- VBCST (R190). -/
def execVbcst (g : Guard) (d a : BitVec 5) (m : BitVec 2) (t : BitVec 3) (s : State) : Out :=
  vecOp g (.vbcst g d a m t) (t = 3) s fun x =>
    mapLanes x (vreg d) m t.toNat fun _ => ((x.r64 a).toNat % 2 ^ laneWidth t.toNat, 0)

/-- VINS (R190). -/
def execVins (g : Guard) (d a b : BitVec 5) (t : BitVec 3) (s : State) : Out :=
  vecOp g (.vins g d a b t) (t = 3) s fun x =>
    let w := laneWidth t.toNat
    let n := laneCount t.toNat
    let l := (List.range n).map fun k =>
      if k = (x.r64 b).toNat % n then (x.r64 a).toNat % 2 ^ w else laneOf (x.vec (vreg d)) w k
    (x.setVec (vreg d) (packLanes w l), 0)

/-- VEXT (R190). -/
def execVext (g : Guard) (d a b : BitVec 5) (t : BitVec 3) (s : State) : Out :=
  vecOp g (.vext g d a b t) (t = 3) s fun x =>
    let w := laneWidth t.toNat
    let v := laneOf (x.vec (vreg a)) w ((x.r64 b).toNat % laneCount t.toNat)
    (x.setR64 d (BitVec.ofNat 64 (if (laneFmt t.toNat).isSome then v else wrapInt (sxInt v w) 64)), 0)

/-- The active lanes of a register. -/
def activeLanes (x : Task) (a : BitVec 5) (m : BitVec 2) (t : Nat) : List Nat :=
  ((List.range (laneCount t)).filter fun k => (x.mask m).getLsbD k).map fun k => laneOf (x.vec (vreg a)) (laneWidth t) k

/-- The sum of VREDS (R191). -/
def reduceSum (t : Nat) (l : List Nat) : Nat × Flags :=
  match laneFmt t with
  | some f => toLane (if t = 3 then fp64 else fp32) (exactSum (l.map (fdecode f)))
  | none => (wrapInt ((l.map fun v => sxInt v (laneWidth t)).sum) 64, 0)

/-- VREDS (R191). -/
def execVreds (g : Guard) (d a : BitVec 5) (m : BitVec 2) (t : BitVec 3) (s : State) : Out :=
  vecOp g (.vreds g d a m t) (t = 3) s fun x =>
    let (v, fl) := reduceSum t.toNat (activeLanes x a m t.toNat)
    (x.setR64 d (BitVec.ofNat 64 v), fl)

/-- The maximum of VREDM (R185, R191). -/
def reduceMax (t : Nat) (l : List Nat) : Nat × Flags :=
  match laneFmt t with
  | some f =>
    (match l.map (fdecode f) with
     | [] => (signBit f true + f.emax * 2 ^ f.fbits, 0)
     | v :: vs =>
       toLane f (vs.foldl (fun acc y => let r := fmaxmin true acc.1 y; (r.1, acc.2 ||| r.2)) (v, sigFlag v)))
  | none =>
    let w := laneWidth t
    let m := (l.map fun v => sxInt v w).foldl (fun a b => if a ≤ b then b else a) (-(2 ^ (w - 1) : Nat) : Int)
    (wrapInt m 64, 0)

/-- VREDM (R191). -/
def execVredm (g : Guard) (d a : BitVec 5) (m : BitVec 2) (t : BitVec 3) (s : State) : Out :=
  vecOp g (.vredm g d a m t) (t = 3) s fun x =>
    let (v, fl) := reduceMax t.toNat (activeLanes x a m t.toNat)
    (x.setR64 d (BitVec.ofNat 64 v), fl)

/-- The head of a core's vector queue leaves it; a full or waited-for queue has changed (R177, R178). -/
def vecPop (s : State) (k : Nat) : State :=
  let s := s.onCore k fun c => { c with vecq := c.vecq.drop 1, gov := { c.gov with energy := c.gov.energy + vectorEnergy } }
  wakeWhere s k fun w => w = .vecq

/-- VECTOR_QUEUE_EXECUTE: the head executes, and its flags join FFLAGS (R177, R183). -/
def execVectorQueueExecute (core : Nat) (s : State) : Out :=
  .next (match (s.core core).vecq with
    | ⟨t, fl, none, _⟩ :: _ => vecPop (mergeFlags s t fl) core
    | _ => s)

/-- VECTOR_LOAD_UE: a load that met an uncorrectable codeword raises MEM_UE asynchronously (R177, R356). -/
def execVectorLoadUe (core : Nat) (s : State) : Out :=
  .next (match (s.core core).vecq with
    | ⟨t, _, some a, _⟩ :: _ => vecPop (raiseAsync s t .memUe a) core
    | _ => s)

end Sys2Proof.Machine
end

