-- ==== Sys2Proof/Machine/LongAcc.lean ====
section
/-! DEFINITION. Long accumulators (R81 to R84, R220): 80 bytes of window W0 that hold a 640-bit integer. -/

namespace Sys2Proof.Machine

/-- The checks on one accumulator operand (R220), in the order of R149: its physical address. -/
def laCheck (s : State) (c : GVal) (perm : Byte) (u : Use) : Eff Nat := do
  let a := cursor c.bits
  check1 c perm a 80 false
  failIf (0x80000 < a.toNat + 80) (.trap .window a)
  failIf (a.toNat % 16 ≠ 0) (.trap .align a)
  check4 s a 80 u.writes
  checkWatch s a 80 u
  pure (spadPa s.cur + a.toNat)

/-- A destination: LD and ST (R220). -/
def laDest (s : State) (c : GVal) (u : Use) : Eff Nat := laCheck s c (permLd ||| permSt) u

/-- Writes a window: N modulo 2^640 (R81, R82). What the task stored through its global address is performed first, and its loads
through that address may miss the write (R367; log entry 30). -/
def laWrite (s : State) (pa : Nat) (n : Int) : State := ((s.performPath true).store 0 pa (leBytes 80 (wrapInt n 640))).chargeCur pa 80

/-- The integer of a window (R81). -/
def laValue (s : State) (pa : Nat) : Int := sxInt (s.readNat pa 80) 640

/-- The multiple of 2^-320 that a finite value is; a NaN or an infinity adds nothing and is invalid (R82, R83). -/
def laTerm (v : FVal) : Int × Flags :=
  match v with
  | .fin _ _ _ => (alignTo (-320) v, 0)
  | _ => (0, flInvalid)

/-- The sum of terms with their flags. -/
def laTerms (vs : List FVal) : Int × Flags :=
  vs.foldl (fun acc v => let t := laTerm v; (acc.1 + t.1, acc.2 ||| t.2)) (0, 0)

/-- The operand format of a code: FP32 0xA, else BF16 (R220). -/
def laFmt (f : BitVec 5) : Fmt := if f = 0xA then fp32 else if f = 2 then fp16 else bf16

/-- Adds values to the window at a capability's cursor. -/
def laAddValues (s : State) (c : GVal) (vs : List FVal) : Eff State := do
  let pa ← laDest s c .atomic
  readable s (cursor c.bits) pa 80
  let (t, fl) := laTerms vs
  pure (retire (mergeFlags (laWrite s pa (laValue s pa + t)) s.curTid fl) 4)

/-- LA.CLR (R220). -/
def execLaClr (g : Guard) (a : BitVec 5) (s : State) : Out :=
  guarded g 4 s fun s => do
    let pa ← laDest s (s.curTask.reg a) .store
    pure (retire (laWrite s pa 0) 4)

/-- LA.ADD (R82, R83, R220). -/
def execLaAdd (g : Guard) (f a b : BitVec 5) (s : State) : Out :=
  guarded g 4 s fun s =>
    let fm := laFmt f
    laAddValues s (s.curTask.reg a) [fdecode fm ((s.curTask.r64 b).toNat % 2 ^ fm.width)]

/-- LA.ADDV (R82, R83, R220). -/
def execLaAddv (g : Guard) (f a : BitVec 5) (v : BitVec 4) (s : State) : Out :=
  guarded g 4 s fun s =>
    let fm := laFmt f
    let x := s.curTask.vec v
    laAddValues s (s.curTask.reg a) ((List.range (512 / fm.width)).map fun i => fdecode fm (laneOf x fm.width i))

/-- LA.MRG (R82, R220): the source is read in full before the write. Every check of the destination comes before those of the
source (log entry 23). -/
def execLaMrg (g : Guard) (a b : BitVec 5) (s : State) : Out :=
  guarded g 4 s fun s => do
    let pa ← laDest s (s.curTask.reg a) .atomic
    let pb ← laCheck s (s.curTask.reg b) permLd .load
    readable s (s.curTask.r64 a) pa 80
    loadable s (s.curTask.r64 b) pb 80
    pure (retire ((laWrite s pa (laValue s pa + laValue s pb)).chargeCur pb 80) 4)

/-- LA.RND (R84, R220): −2^-320 and its like round by their exact value; a zero window gives +0. -/
def execLaRnd (g : Guard) (d a f : BitVec 5) (s : State) : Out :=
  guarded g 4 s fun s => do
    let c := s.curTask.reg a
    let pa ← laCheck s c permLd .load
    loadable s (cursor c.bits) pa 80
    let n := laValue s pa
    let (r, fl) := fconv (laFmt f) s.curTask.sat .rne (.fin (n < 0) n.natAbs (-320))
    pure (((s.performPath true).chargeCur pa 80).onCur fun x => ((x.addFlags fl).setR64 d (BitVec.ofNat 64 r)).advance 4)

end Sys2Proof.Machine
end

