-- ==== Sys2Proof/Machine/Matrix.lean ====
section
/-! DEFINITION. The matrix unit, its tile queues and its instructions (R198 to R219). -/

namespace Sys2Proof.Machine

/-- Operand classes (R205). -/
inductive MClass
  | float | int | f64
  deriving DecidableEq, Repr

def winClass (w : Nat) : MClass := if w = 8 || w = 9 then .int else if w = 11 then .f64 else .float

/-- Further descriptor fields of MX.MMA and MX.RAG (R204), of MX.LDA and MX.STA (R213). -/
def mxPitch (d : W128) : Nat := let p := (d.extractLsb' 16 16).toNat; if p = 0 then ceilDiv (mxN d) 16 else p
def mxMult (d : W128) : FVal := fdecode fp32 (let m := (d.extractLsb' 64 32).toNat; if m = 0 then 0x3F800000 else m)
/-- A band field by row (R204, R213): the field from bit lo for rows 0 to 63, the next one above. -/
def mxBand (d : W128) (lo row : Nat) : FVal := bandScale (d.extractLsb' (if row < 64 then lo else lo + 16) 16).toNat

/-- Words of a tile element: FP32 and INT32 at 128 i + j (R27), FP64 at 128 i + 2 j (R80). -/
def tileWord (c : Core) (tile n : Nat) : Nat := (sget 0 c.tiles (tile * 16384 + n)).toNat
def tileCode (c : Core) (cl : MClass) (tile i j : Nat) : Nat :=
  match cl with
  | .f64 => tileWord c tile (128 * i + 2 * j) + tileWord c tile (128 * i + 2 * j + 1) * 2 ^ 32
  | _ => tileWord c tile (128 * i + j)
def setTileWord (c : Core) (tile n v : Nat) : Core := { c with tiles := sset 0 c.tiles (tile * 16384 + n) (BitVec.ofNat 32 v) }
def setTileCode (c : Core) (cl : MClass) (tile i j v : Nat) : Core :=
  match cl with
  | .f64 => setTileWord (setTileWord c tile (128 * i + 2 * j) v) tile (128 * i + 2 * j + 1) (v / 2 ^ 32)
  | _ => setTileWord c tile (128 * i + j) v

def tileFmt (cl : MClass) : Fmt := if cl = .f64 then fp64 else fp32
/-- The value of a tile element. -/
def tileVal (c : Core) (cl : MClass) (tile i j : Nat) : FVal :=
  match cl with
  | .int => ofInt (sxInt (tileCode c cl tile i j) 32)
  | _ => fdecode (tileFmt cl) (tileCode c cl tile i j)

/-- Elements (i, j) of granule (gi, gj) with i below m and j below n, row-major. -/
def granuleElems (gi gj m n : Nat) : List (Nat × Nat) :=
  (List.range 256).filterMap fun e =>
    let i := 16 * gi + e / 16
    let j := 16 * gj + e % 16
    if i < m && j < n then some (i, j) else none

/-- An operand's element with all its scales and its declared precision (R73 to R76, R204). -/
def operandElem (rd : Nat → Byte) (w off : Nat) (d : W128) (bandLo plo gk row k : Nat) : FVal :=
  let g := off + (row / 16 * gk + k / 16) * (winOf w).slot
  let v := elemValueP rd w g (16 * (row % 16) + k % 16) (effPlanes w (d.extractLsb' plo 6).toNat)
  if w = 5 then (fmul v (mxBand d bandLo row)).1 else v

/-- The depth indexes of K granule gk. -/
def depthOf (kk gk : Nat) : List Nat := (List.range 16).filterMap fun t => if 16 * gk + t < kk then some (16 * gk + t) else none

/-- One element of one granule triple: the new tile code and its flags (R76 to R80, R207): granule sums
are added in increasing K order (R77), integers modulo 2^32 (R79). -/
def tripleElem (rd : Nat → Byte) (c : Core) (o : MxOp) (gk i j : Nat) : Nat × Flags :=
  let kk := mxK o.desc
  let gks := ceilDiv kk 16
  let cl := winClass o.winA
  let a := operandElem rd o.winA o.offA o.desc 64 32 gks i
  let b := operandElem rd o.winB o.offB o.desc 96 38 gks j
  let prods := (depthOf kk gk).map fun k => (fmul (a k) (b k)).1
  let fresh := o.desc.getLsbD 44 && gk = 0
  match cl with
  | .int =>
    let s := (prods.map fun v => alignTo 0 v).sum
    (wrapInt ((if fresh then 0 else sxInt (tileCode c cl o.tile i j) 32) + s) 32, 0)
  | _ =>
    let f := tileFmt cl
    let (s, f1) := toLane f (exactSum prods)
    let (r, f2) := toLane f (fadd (if fresh then .fin false 0 0 else tileVal c cl o.tile i j) (fdecode f s))
    (r, f1 ||| f2)

/-- Row extent of an output row granule (R207, R209). -/
def MxOp.extent (o : MxOp) (gi : Nat) : Nat :=
  if o.kind = .rag then ((o.part.find? fun p => p.1 = gi).map (·.2)).getD (16 * (gi + 1)) else mxM o.desc

def coreQueue (c : Core) (q : Nat) : List MxOp := if q = 0 then c.mx0 else c.mx1
def setQueue (c : Core) (q : Nat) (l : List MxOp) : Core := if q = 0 then { c with mx0 := l } else { c with mx1 := l }

/-- Two operations of one task that depend on a tile: both touch it and one writes it (R199). -/
def mxDepends (a b : MxOp) : Bool := a.task = b.task && a.tile = b.tile && !(a.kind = .sta && b.kind = .sta)

/-- The first unfinished operation of a queue. -/
def queueHead (c : Core) (q : Nat) : Option MxOp := (coreQueue c q).find? fun o => !o.done

/-- An operation may start: no earlier operation it depends on is still in a queue (R199). -/
def mxCanStart (c : Core) (o : MxOp) : Bool :=
  !o.started && !((c.mx0 ++ c.mx1).any fun e => decide (e.id < o.id) && mxDepends e o)

/-- The unit's next choice at a boundary: a start, or a unit of work, in queue 0 first (R200). -/
inductive MxChoice
  | start (q : Nat) (o : MxOp)
  | unit (q : Nat) (o : MxOp)
  | none
  deriving DecidableEq, Repr

def mxChoice (c : Core) : MxChoice :=
  match headChoice c 0 with
  | .none => headChoice c 1
  | x => x
where
  headChoice (c : Core) (q : Nat) : MxChoice :=
    match queueHead c q with
    | some o => if o.ready then .unit q o else if mxCanStart c o then .start q o else .none
    | none => .none

def putOp (c : Core) (q : Nat) (o : MxOp) : Core := setQueue c q ((coreQueue c q).map fun e => if e.id = o.id then o else e)

/-- MATRIX_OP_START: the chosen head starts; an MX.RAG sees its counter slot (R199, R200, R209). -/
def execMatrixOpStart (core : Nat) (s : State) : Out :=
  .next (match mxChoice (s.core core) with
    | .start q o =>
      (s.settleBallast core).onCore core fun c =>
        let o := { o with started := true }
        let o := if o.kind = .rag then ragSee o (c.counter o.slot).count else o
        putOp c q o.settle
    | _ => s)

/-- Output granule of a triple: row, column, depth. -/
def MxOp.triple (o : MxOp) : Nat × Nat × Nat := (o.prog / (o.gn * o.gk), o.prog / o.gk % o.gn, o.prog % o.gk)

/-- The granule of memory of an MX.LDA or MX.STA at its progress (R213). -/
def MxOp.cell (o : MxOp) : Nat × Nat × Nat :=
  let gi := o.prog / o.gn
  let gj := o.prog % o.gn
  (gi, gj, o.offA + (gi * mxPitch o.desc + gj) * (winOf o.winA).slot)

/-- One granule triple (R207); with its last one the operation gives the plane array up (R428). -/
def doTriple (s : State) (k q : Nat) (o : MxOp) : State :=
  let (gi, gj, gk) := o.triple
  let c := s.core k
  let els := granuleElems gi gj (Nat.min (o.extent gi) (mxM o.desc)) (mxN o.desc)
  let cl := winClass o.winA
  let before := if gk = 0 then
      els.foldl (fun m p => let n := (if cl = .f64 then 128 * p.1 + 2 * p.2 else 128 * p.1 + p.2)
        let m := sset 0 m n (BitVec.ofNat 32 (tileWord c o.tile n))
        if cl = .f64 then sset 0 m (n + 1) (BitVec.ofNat 32 (tileWord c o.tile (n + 1))) else m) []
    else o.before
  let res := els.map fun p => (p, tripleElem (s.rd (spadPa k)) c o gk p.1 p.2)
  let fl := res.foldl (fun f r => f ||| r.2.2) o.flags
  s.onWork k fun c =>
    putOp (res.foldl (fun c r => setTileCode c cl o.tile r.1.1 r.1.2 r.2.1) c) q { o with prog := o.prog + 1, flags := fl, before := before }.settle

/-- One tile element set by MX.LDA (R214). -/
def ldaElem (rd : Nat → Byte) (c : Core) (o : MxOp) (g i j : Nat) : Nat × Flags :=
  let w := o.winA
  let x := elemValue rd w g (16 * (i % 16) + j % 16)
  let x := match x with | .nan _ => .nan (elemSig rd w g (16 * (i % 16) + j % 16) ≠ 0) | v => v
  let x := if w = 5 then (fmul x (mxBand o.desc 96 i)).1 else x
  let add := o.desc.getLsbD 33
  let cl := winClass w
  match cl with
  | .int =>
    let (p, f1) := fmul (mxMult o.desc) x
    let (v, f2) := iconv 32 .rne p
    (if add then (tileCode c cl o.tile i j + v) % 2 ^ 32 else v, f1 ||| f2)
  | _ =>
    let (v, f1) := if add then ffma (mxMult o.desc) x (tileVal c cl o.tile i j) else fmul (mxMult o.desc) x
    let isInf := match v with | .inf _ => true | _ => false
    let (r, f2) := fconv (tileFmt cl) (o.desc.getLsbD 32 && !isInf) .rne v
    (r, f1 ||| f2)

/-- One granule of MX.LDA. -/
def doLda (s : State) (k q : Nat) (o : MxOp) : State :=
  let (gi, gj, g) := o.cell
  let c := s.core k
  let res := (granuleElems gi gj (mxM o.desc) (mxN o.desc)).map fun p => (p, ldaElem (s.rd (spadPa k)) c o g p.1 p.2)
  let fl := res.foldl (fun f r => f ||| r.2.2) o.flags
  let c := res.foldl (fun c r => setTileCode c (winClass o.winA) o.tile r.1.1 r.1.2 r.2.1) c
  s.setCore k (putOp c q { o with prog := o.prog + 1, flags := fl }.settle)

/-- mult * tile(i, j), exactly (R215). -/
def staValue (c : Core) (o : MxOp) (i j : Nat) : FVal × Flags := fmul (mxMult o.desc) (tileVal c (winClass o.winA) o.tile i j)

/-- The largest magnitude of the finite elements of row i in columns lo to hi - 1 within N; zero when there is none. -/
def amaxOf (c : Core) (o : MxOp) (i lo hi : Nat) : FVal :=
  ((List.range (Nat.min hi (mxN o.desc) - lo)).map fun t => fabs (staValue c o i (lo + t)).1).foldl
    (fun m v => match v with | .fin _ _ _ => if flt false m v then v else m | _ => m) (.fin false 0 0)

/-- E8M0 scale code of a 32-column block (R215). -/
def mxScaleCode (emax : Int) (amax : FVal) : Nat :=
  match amax with
  | .fin _ m e =>
    if m = 0 then 127
    else
      let x := (Nat.log2 m : Int) + e - emax + 127
      if x < 0 then 0 else if 254 < x then 254 else x.toNat
  | _ => 127

/-- E3M5 block scale code: the smallest scale at or above amax / (6 |band|), capped at 31.0; 0 for a zero block or band
(R215). -/
def sxScaleCode (amax band : FVal) : Nat :=
  match amax, band with
  | .fin _ am _, .fin _ bm be =>
    if am = 0 || bm = 0 then 0
    else ((List.range 255).find? fun code => code ≠ 0 && !flt false (fmul (e3m5 code) (.fin false (6 * bm) be)).1 amax).getD 0xFE
  | _, _ => 0

/-- What MX.STA writes for an element: its code and flags (R215, R216). -/
def staCode (rd : Nat → Byte) (c : Core) (o : MxOp) (g i j : Nat) : Nat × Flags :=
  let w := o.winA
  let sat := o.desc.getLsbD 32
  let md := match o.seed with | some x => Rounding.sr (srDraw x (128 * i + j)) | none => .rne
  let (y, f1) := staValue c o i j
  let (r, f2) :=
    if w = 8 || w = 9 then iconv (winOf w).sig md y
    else if w = 11 then fconv fp64 false md y
    else if w = 6 || w = 7 then
      let code := (rd (g + (if w = 6 then 160 else 288) + i % 16)).toNat
      convScaled (winFmt w (o.desc.getLsbD 34)) sat md 1 ((code : Int) - 127) y
    else if w = 5 then
      let code := (rd (g + 160 + 2 * (i % 16) + j % 16 / 8)).toNat
      (match fmul (e3m5 code) (mxBand o.desc 96 i), y with
       | (.fin n m e, _), .fin ny my ey => if m = 0 then convScaled e2m1 sat md 0 0 (.fin ny my ey) else convScaled e2m1 sat md m e (.fin (n != ny) my ey)
       | (.fin n m _, _), .inf ny => fconv e2m1 sat md (.inf ((n && decide (m ≠ 0)) != ny))
       | _, v => fconv e2m1 sat md v)
    else fconv (winFmt w false) sat md y
  (r, f1 ||| f2)

/-- One granule of MX.STA: scales, the byte of the element type with no reserved code (R55), elements (R215). -/
def doSta (s : State) (k q : Nat) (o : MxOp) : State :=
  let (gi, gj, g) := o.cell
  let base := spadPa k
  let c := s.core k
  let w := o.winA
  let rows := (List.range 16).filterMap fun r => if 16 * gi + r < mxM o.desc then some (16 * gi + r) else none
  let e5 := o.desc.getLsbD 34
  let s :=
    if w = 6 || w = 7 then
      rows.foldl (fun s i =>
        s.write (base + g + (if w = 6 then 160 else 288) + i % 16)
          [BitVec.ofNat 8 (mxScaleCode (if w = 6 then 2 else if e5 then 15 else 8) (amaxOf c o i (gj / 2 * 32) (gj / 2 * 32 + 32)))]) s
    else if w = 5 then
      rows.foldl (fun s i =>
        ([0, 1].filter fun b => 16 * gj + 8 * b < mxN o.desc).foldl (fun s b =>
          s.write (base + g + 160 + 2 * (i % 16) + b)
            [BitVec.ofNat 8 (sxScaleCode (amaxOf c o i (16 * gj + 8 * b) (16 * gj + 8 * b + 8)) (mxBand o.desc 96 i))]) s) s
    else s
  let s := if w = 7 then s.write (base + g + 304) [if e5 then 1 else 0] else s
  let res := (granuleElems gi gj (mxM o.desc) (mxN o.desc)).map fun p => (p, staCode (s.rd base) c o g p.1 p.2)
  let fl := res.foldl (fun f r => f ||| r.2.2) o.flags
  let s := res.foldl (fun s r => putBits s base (codeWrites w e5 g (16 * (r.1.1 % 16) + r.1.2 % 16) r.2.1)) s
  s.onCore k fun c => putOp c q { o with prog := o.prog + 1, flags := fl }.settle

/-- MX.ZERO (R212). -/
def doZero (s : State) (k q : Nat) (o : MxOp) : State :=
  s.onCore k fun c => putOp { c with tiles := c.tiles.filter fun x => x.1 / 16384 ≠ o.tile } q { o with prog := 1 }.settle

/-- Operand ranges that the next unit of an operation reads (R202). -/
def unitReads (o : MxOp) : List (Nat × Nat) :=
  match o.kind with
  | .mma | .rag =>
    let (gi, gj, gk) := o.triple
    [(o.offA + (gi * o.gk + gk) * (winOf o.winA).slot, (winOf o.winA).foot),
     (o.offB + (gj * o.gk + gk) * (winOf o.winB).slot, (winOf o.winB).foot)]
  | .lda => let (_, _, g) := o.cell; [(g, (winOf o.winA).foot)]
  | _ => []

/-- The first uncorrectable byte that the next unit reads, as the address its operand names. DESIGN CHOICE: every byte of both granules'
footprints is an operand byte, one of a row or plane that the operation does not use too (log entry 23). -/
def unitBad (s : State) (k : Nat) (o : MxOp) : Option W64 :=
  let ws := [o.winA, o.winB]
  ((unitReads o).zip ws).findSome? fun r =>
    (s.firstBad (spadPa k + r.1.1) r.1.2).map fun a => BitVec.ofNat 64 (r.2 * 0x100000 + (a - spadPa k))

/-- Energy of a triple: plane-array cycles P_A / (4 pack_B), more on a core with a quarter off (R6, R205, R208, R422); exact in
eighths of a picojoule. -/
def tripleEnergy (s : State) (k : Nat) (o : MxOp) : Nat :=
  let pa := (effPlanes o.winA (o.desc.extractLsb' 32 6).toNat).getD
    (match o.winA with | 1 => 8 | 2 => 11 | 5 => 2 | 6 => 2 | 8 => 8 | 9 => 4 | 10 => 24 | 11 => 53 | _ => 4)
  let num := match o.winB with | 3 => 2 | 4 => 2 | 7 => 2 | 5 => 4 | 6 => 4 | 9 => 2 | _ => 1
  let den := match o.winB with | 2 => 2 | 10 => 3 | 11 => 7 | _ => 1
  let q := (sget 0 (s.die (dieOf k)).qmap (k % 320 / 64)).getLsbD (k % 320 % 64)
  2640 * pa * den / ((if q then 3 else 4) * num)

/-- Scratchpad bytes that the next unit moves: an operand granule of a product is read once, at the first triple that uses it
(R6, R422; log entry 24). -/
def unitBytes (o : MxOp) : Nat :=
  match o.kind with
  | .mma | .rag =>
    let (gi, gj, _) := o.triple
    (if gj = 0 then (winOf o.winA).foot else 0) + (if gi = 0 then (winOf o.winB).foot else 0)
  | .lda | .sta => (winOf o.winA).foot
  | .zero => 0

/-- Energy of the next unit of an operation (R422). -/
def unitEnergy (s : State) (k : Nat) (o : MxOp) : Nat :=
  spadEnergy (unitBytes o) + (if o.kind = .mma || o.kind = .rag then tripleEnergy s k o else 0)

/-- MATRIX_TRIPLE_BOUNDARY: the chosen operation performs its next unit, a granule triple or a granule (R200, R207, R212 to
R216). -/
def execMatrixTripleBoundary (core : Nat) (s : State) : Out :=
  .next (match mxChoice (s.core core) with
    | .unit q o =>
      if (unitBad s core o).isSome then s
      else
        let s := s.charge core (unitEnergy s core o)
        match o.kind with
        | .zero => doZero s core q o
        | .lda => doLda s core q o
        | .sta => doSta s core q o
        | _ => doTriple s core q o
    | _ => s)

/-- A queue holds an operation of a task that reads or writes a tile (R218). -/
def pendingOn (c : Core) (t : BitVec 48) (q tile : Nat) : Bool := (coreQueue c q).any fun o => o.task = t && o.tile = tile

/-- An operation leaves its queue with its ranges; an MX.WAIT whose operations are gone ends, and what waits for a queue entry or a
range tests again (R198, R201, R218). -/
def dropMatrixOp (s : State) (k q : Nat) (o : MxOp) : State :=
  let s := (s.settleBallast k).onCore k fun c =>
    { setQueue c q ((coreQueue c q).filter fun e => e.id ≠ o.id) with locks := c.locks.filter fun l => !(l.matrix && l.op = o.id) }
  let ready := (s.tasksOn k).filter fun t => t.status = .waitMsg && (match t.wait with
    | some (.matrix q tile) => !(pendingOn (s.core k) t.gtid q tile)
    | some .mxq => true
    | _ => false)
  wakeLocks (ready.foldl (fun s t => wake s t.gtid) s)

/-- MATRIX_OP_RETIRE: a finished head retires; its flags join FFLAGS (R63, R202, R208). -/
def execMatrixOpRetire (core : Nat) (s : State) : Out :=
  .next (
    let c := s.core core
    let pick := match c.mx0.head?, c.mx1.head? with
      | some o, some p => if o.done then some (0, o) else if p.done then some (1, p) else none
      | some o, none => if o.done then some (0, o) else none
      | none, some p => if p.done then some (1, p) else none
      | none, none => none
    match pick with
    | some (q, o) =>
      let s := s.onTask o.task fun x =>
        if x.status = .ended then x
        else
          let x := x.addFlags o.flags
          if q = 0 then { x with retired0 := x.retired0 + 1 } else { x with retired1 := x.retired1 + 1 }
      dropMatrixOp s core q o
    | none => s)

/-- MATRIX_OPERAND_UE: the operation stops at the output granule being formed, which keeps its earlier values; the task
takes MEM_UE asynchronously (R202, R356), and a frame in hand that the byte lies in closes its channel (R235). DESIGN CHOICE: the stopped
operation does not count as retired, and the flags it had collected do not join FFLAGS (log entry 23). -/
def execMatrixOperandUe (core : Nat) (s : State) : Out :=
  .next (match mxChoice (s.core core) with
    | .unit q o =>
      match unitBad s core o with
      | some a =>
        let restore := (o.kind = .mma || o.kind = .rag) && o.prog % o.gk ≠ 0
        let (gi, gj, _) := o.triple
        let s := if restore then
            s.onCore core fun c =>
              (granuleElems gi gj (Nat.min (o.extent gi) (mxM o.desc)) (mxN o.desc)).foldl (fun c p =>
                if winClass o.winA = .f64 then
                  let n := 128 * p.1 + 2 * p.2
                  setTileWord (setTileWord c o.tile n (sget 0 o.before n).toNat) o.tile (n + 1) (sget 0 o.before (n + 1)).toNat
                else setTileWord c o.tile (128 * p.1 + p.2) (sget 0 o.before (128 * p.1 + p.2)).toNat) c
          else s
        let s := closeFramesOf s core o.task (spadPa core + a.toNat % 0x100000) 1
        dropMatrixOp (raiseAsync s o.task .memUe a) core q o
      | none => s
    | _ => s)

/-- Length of an operand's footprint: rows of granules, granules per row in memory and in use (R205, R213). -/
def footLen (w rows pitch cols : Nat) : Nat := ((rows - 1) * pitch + (cols - 1)) * (winOf w).slot + (winOf w).foot

/-- An operand of a matrix instruction: capability, permission, granule rows, pitch and columns. -/
structure MxArg where
  c : GVal
  perm : Byte
  rows : Nat
  pitch : Nat
  cols : Nat
  deriving DecidableEq, Repr

def MxArg.at_ (a : MxArg) : W64 := cursor a.c.bits
def MxArg.win (a : MxArg) : Nat := (planeWin a.at_).getD 0
def MxArg.off (a : MxArg) : Nat := a.at_.toNat % 0x100000
def MxArg.len (a : MxArg) : Nat := if a.win = 0 then 1 else footLen a.win a.rows a.pitch a.cols

/-- Steps 1 to 3 of R206 on the operands in order. -/
def mxCheck13 (as : List MxArg) : Eff Unit := do
  each as fun a => match capCheck a.c a.perm a.at_ a.len with | some t => .error (.trap t a.at_) | none => .ok ()
  each as fun a => failIf (a.win = 0 || 0x80000 < a.off + a.len) (.trap .window a.at_)
  each as fun a => failIf (a.off % (winOf a.win).slot ≠ 0) (.trap .align a.at_)
where
  each (l : List MxArg) (f : MxArg → Eff Unit) : Eff Unit :=
    match l with
    | [] => .ok ()
    | a :: r => do f a; each r f

/-- A registered range against an operand's footprint (R201): any range of the own task makes the operation wait. -/
def Lock.operand (l : Lock) (t : BitVec 48) (write : Bool) : LockRes :=
  if l.task = t then .wait l.matrix else l.answer t write

/-- Step 6 of R206 on one footprint (R201). Where the operation has to wait, its instruction waits before it enters its queue
(log entry 23). -/
def mxLock (s : State) (a : MxArg) (write : Bool) : Eff Unit :=
  lockStop a.at_ (lockTestBy s.me s.curTid true 0 a.off (a.off + a.len) write fun l => l.operand s.curTid write)

/-- Step 6 of R206 on the operands in order (R201): a range of another task's traps before one of the own task's, in either operand, makes
the instruction wait. -/
def mxLocks (s : State) (l : List (MxArg × Bool)) : Eff Unit :=
  match l.findSome? fun p => match mxLock s p.1 p.2 with | .error (.trap c i) => some (Stop.trap c i) | _ => none with
  | some st => .error st
  | none => each l
where
  each : List (MxArg × Bool) → Eff Unit
    | [] => .ok ()
    | p :: ps => do mxLock s p.1 p.2; each ps

/-- Entry into a tile queue (R198, R201); a full queue stalls the task. -/
def mxEnter (s : State) (q : Nat) (o : MxOp) (ranges : List (MxArg × Bool)) (len : Nat) : Eff State :=
  if 8 ≤ (coreQueue s.me q).length then .error (.wait .mxq)
  else
    let s := retire s len
    .ok (s.onCore s.cur fun c =>
      let id := c.nextOp
      let c := setQueue c q (coreQueue c q ++ [{ o with id := id }])
      { c with nextOp := id + 1,
               locks := c.locks ++ ranges.map fun r =>
                 { op := id, task := o.task, read := !r.2, matrix := true, spad := true, asid := 0, lo := r.1.off, hi := r.1.off + r.1.len } })

/-- A new operation of the executing task on an accumulator. -/
def newMxOp (s : State) (k : MxKind) (c : BitVec 2) (d : W128) : MxOp :=
  { id := 0, task := s.curTid, kind := k, tile := s.curTask.tiles.getD c.toNat 0, winA := 0, offA := 0, winB := 0, offB := 0, desc := d,
    slot := 0, seed := none, started := false, prog := 0, finished := false, hw := 0, sealed_ := false, gd := 0, part := [], flags := 0,
    before := [] }

/-- MX.ZERO (R212). -/
def execMxZero (g : Guard) (c : BitVec 2) (s : State) : Out :=
  guarded g 4 s fun s => mxEnter s 0 (newMxOp s .zero c 0) [] 4

/-- The class rule of check 4, with what dome-only service withholds (R206, R455). -/
def mxClassCheck (s : State) (i : Instr) (as : List MxArg) (n : Nat) : Eff Unit :=
  match as with
  | [] => .ok ()
  | a :: r =>
    let cl := winClass a.win
    failIf (r.any (fun b => winClass b.win ≠ cl) || (cl = .f64 && (64 < n || s.domeOnly))) (.trap .illegalInstr (wordInfo i))

/-- The operands of a product in memory (R205, R206). -/
def productArgs (x : Task) (a b d : BitVec 5) : MxArg × MxArg :=
  let desc := (x.reg d).bits
  let gks := ceilDiv (mxK desc) 16
  (⟨x.reg a, permLd, ceilDiv (mxM desc) 16, gks, gks⟩, ⟨x.reg b, permLd, ceilDiv (mxN desc) 16, gks, gks⟩)

/-- The operand of a move in memory (R213). -/
def moveArg (x : Task) (k : MxKind) (a d : BitVec 5) : MxArg :=
  let desc := (x.reg d).bits
  ⟨x.reg a, if k = .sta then permSt else permLd, ceilDiv (mxM desc) 16, mxPitch desc, ceilDiv (mxN desc) 16⟩

/-- The checks of MX.MMA and MX.RAG (R206) and the operation they enter. -/
def mxProduct (g : Guard) (i : Instr) (rag : Bool) (c : BitVec 2) (q : BitVec 1) (a b d : BitVec 5) (s : State) : Out :=
  guarded g 4 s fun s => do
    let x := s.curTask
    let desc := (x.reg d).bits
    let (ra, rb) := productArgs x a b d
    mxCheck13 [ra, rb]
    mxClassCheck s i [ra, rb] (mxN desc)
    let n := (desc.extractLsb' 48 4)
    let slot := (physSlot s.me x.job n.toNat).getD 0
    failIf (rag && (x.barriers ≤ n.toNat || (physSlot s.me x.job n.toNat).isNone)) (.trap .barrierId (n.setWidth 64))
    failIf (rag && (s.me.counter slot).target ≠ 0) (.trap .barrierId (n.setWidth 64 ||| 16))
    mxLocks s [(ra, false), (rb, false)]
    checkWatch s ra.at_ ra.len .load
    checkWatch s rb.at_ rb.len .load
    let o := { newMxOp s (if rag then .rag else .mma) c desc with winA := ra.win, offA := ra.off, winB := rb.win, offB := rb.off, slot := slot }
    mxEnter s q.toNat o (if rag then [(rb, false)] else [(ra, false), (rb, false)]) 4

/-- MX.MMA (R204 to R208). -/
def execMxMma (g : Guard) (c : BitVec 2) (q : BitVec 1) (a b d : BitVec 5) (s : State) : Out :=
  mxProduct g (.mxMma g c q a b d) false c q a b d s

/-- MX.RAG (R206, R209 to R211). -/
def execMxRag (g : Guard) (c : BitVec 2) (q : BitVec 1) (a b d : BitVec 5) (s : State) : Out :=
  mxProduct g (.mxRag g c q a b d) true c q a b d s

/-- The checks of MX.LDA and MX.STA (R213) and the operation they enter. -/
def mxMove (g : Guard) (i : Instr) (len : Nat) (k : MxKind) (c : BitVec 2) (a d : BitVec 5) (seed : Option W16) (s : State) : Out :=
  guarded g len s fun s => do
    let x := s.curTask
    let desc := (x.reg d).bits
    let ra := moveArg x k a d
    mxCheck13 [ra]
    mxClassCheck s i [ra] (mxN desc)
    mxLock s ra (k = .sta)
    checkWatch s ra.at_ ra.len (if k = .sta then .store else .load)
    mxEnter s 0 { newMxOp s k c desc with winA := ra.win, offA := ra.off, seed := seed } [(ra, decide (k = .sta))] len

/-- MX.LDA (R213, R214). -/
def execMxLda (g : Guard) (c : BitVec 2) (a d : BitVec 5) (s : State) : Out :=
  mxMove g (.mxLda g c a d) 4 .lda c a d none s

/-- MX.STA (R213, R215). -/
def execMxSta (g : Guard) (c : BitVec 2) (a d : BitVec 5) (s : State) : Out :=
  mxMove g (.mxSta g c a d) 4 .sta c a d none s

/-- MX.STA with seed (R216). -/
def execMxStaSeed (g : Guard) (c : BitVec 2) (a d : BitVec 5) (seed : BitVec 16) (s : State) : Out :=
  mxMove g (.mxStaSeed g c a d seed) 8 .sta c a d (some seed) s

/-- MX.WAIT (R218). -/
def execMxWait (g : Guard) (c : BitVec 2) (q : BitVec 1) (s : State) : Out :=
  guarded g 4 s fun s => do
    let t := s.curTask.tiles.getD c.toNat 0
    failIf (pendingOn s.me s.curTid q.toNat t) (.wait (.matrix q.toNat t))
    pure (retire s 4)

/-- The unit is executing an operation from queue q (R219). -/
def mxBusy (c : Core) (q : Nat) : Bool :=
  match mxChoice c with
  | .unit q' _ => q' = q
  | _ => false

/-- Rows processed by an MX.RAG (R219): those of its whole row granules. -/
def ragRows (o : MxOp) : Nat := let n := o.prog / (o.gn * o.gk); if n = 0 then 0 else Nat.min (o.extent (n - 1)) (mxM o.desc)

/-- MX.STAT (R219). -/
def mxStat (s : State) (q : Nat) : W64 :=
  let c := s.me
  let l := coreQueue c q
  let x := s.curTask
  let waiting := match queueHead c q with | some o => o.kind = .rag && o.started && !o.ready | none => false
  let rows := match l.find? fun o => o.kind = .rag && o.task = s.curTid with | some o => ragRows o | none => 0
  BitVec.ofNat 64 (min 8 l.length + min 8 (l.filter fun o => o.task = s.curTid).length * 2 ^ 4 + bit (mxBusy c q) 8 + bit waiting 9 + rows * 2 ^ 16
    + (if q = 0 then x.retired0 else x.retired1).toNat * 2 ^ 32)

/-- MX.STAT (R219). -/
def execMxStat (g : Guard) (q : BitVec 1) (a : BitVec 5) (s : State) : Out :=
  guarded g 4 s fun s =>
    let v := mxStat s q.toNat
    .ok (s.onCur fun x => (x.setR64 a v).advance 4)

end Sys2Proof.Machine
end

