-- ==== Sys2Proof/Machine/VecMem.lean ====
section
/-! DEFINITION. Vector loads and stores (R192 to R197). -/

namespace Sys2Proof.Machine

/-- One lane's access (R193, R196): lane, address, size, alignment, nibble of a 4-bit element, whether it is an element
access of a plane window, whether the instruction's own rules of R194 and R195 fail it with ALIGN. -/
structure VLane where
  k : Nat
  a : W64
  n : Nat
  al : Nat
  nib : Option Bool
  elem : Bool
  bad : Bool
  deriving DecidableEq, Repr

/-- Raw element size in bits; 0 for the scaled formats (R192). -/
def rawBits (f : Nat) : Nat :=
  match f with
  | 1 | 2 => 16 | 3 | 4 | 8 => 8 | 9 | 14 => 4 | 10 | 12 => 32 | 11 | 13 => 64 | _ => 0

/-- Width and number of the register's lanes (R192). -/
def fmtWidth (f : Nat) : Nat := if f = 11 || f = 13 then 64 else 32
def fmtLanes (f : Nat) : Nat := 512 / fmtWidth f

/-- A scaled format (R194). -/
def scaledFmt (f : Nat) : Bool := f = 5 || f = 6 || f = 7

/-- Size and alignment of a lane's access at an address: the exchanged width in a plane window (R70), else the raw element. -/
def laneSize (f : Nat) (a : W64) : Nat := if (planeWin a).isSome then fmtWidth f / 8 else max 1 (rawBits f / 8)

/-- An access of a lane at its own address (VLDS, VGATH, VSCAT). -/
def laneAt (f k : Nat) (a : W64) (nib : Option Bool) : VLane :=
  ⟨k, a, laneSize f a, laneSize f a, nib, (planeWin a).isSome, false⟩

/-- The active lanes of VLD and VST from a base address (R193 to R195). -/
def rowLanes (x : Task) (m : BitVec 2) (f : Nat) (base : W64) : List VLane :=
  if f = 0 then
    ((List.range 64).filter fun k => (x.mask m).getLsbD k).map fun k =>
      ⟨k, base + BitVec.ofNat 64 k, 1, 1, none, false, base.toNat % 16 ≠ 0⟩
  else
    ((List.range (fmtLanes f)).filter fun k => (x.mask m).getLsbD k).map fun k =>
      match planeWin base with
      | some w =>
        let col := (elemAt w base).2 % 16
        ⟨k, base + BitVec.ofNat 64 (k * (winOf w).step), fmtWidth f / 8, 1, none, true,
          f ≠ w || !(col = 0 || (w = 11 && col = 8))⟩
      | none =>
        if rawBits f = 4 then ⟨k, base + BitVec.ofNat 64 (k / 2), 1, 1, some (k % 2 = 1), false, false⟩
        else laneAt f k (base + BitVec.ofNat 64 (k * max 1 (rawBits f / 8))) none

/-- The active lanes of VLDS, VGATH and VSCAT from a cursor, with the offset or nibble number of each lane (R193). -/
def offsetLanes (x : Task) (m : BitVec 2) (f : Nat) (c : W64) (off : Nat → W64) : List VLane :=
  ((List.range (fmtLanes f)).filter fun k => (x.mask m).getLsbD k).map fun k =>
    if rawBits f = 4 then laneAt f k (c + (off k).sshiftRight 1) (some ((off k).getLsbD 0))
    else laneAt f k (c + off k) none

/-- Checks 1 to 4 of R149 of each lane in order, with the rules of R194 and R195 (R196, step 1). -/
def checkLanes (s : State) (c : GVal) (perm : Byte) (scaled : Bool) (write : Bool) : List VLane → Eff Unit
  | [] => .ok ()
  | l :: ls => do
    check1 c perm l.a l.n l.elem
    failIf (scaled && !(match planeWin l.a with | some w => w = 5 || w = 6 || w = 7 | none => false)) (.trap .window l.a)
    check2 l.a l.n
    failIf l.bad (.trap .align l.a)
    check3 l.a l.n l.al l.elem
    check4 s l.a l.n write
    checkLanes s c perm scaled write ls

def watchLanes (s : State) (u : Use) : List VLane → Eff Unit
  | [] => .ok ()
  | l :: ls => do checkWatch s l.a l.n u; watchLanes s u ls

/-- Check 6 of each lane in order (R196, step 3), with the physical addresses. -/
def placeLanes (s : State) (u : Use) : List VLane → Eff (State × List (VLane × Nat))
  | [] => .ok (s, [])
  | l :: ls => do
    let (s, pa) ← memTarget (← place s l.a l.n u) l.a .align
    let (s, r) ← placeLanes s u ls
    pure (s, (l, pa) :: r)

/-- The check phase of a vector memory instruction (R196). -/
def resolveLanes (s : State) (c : GVal) (perm : Byte) (f : Nat) (u : Use) (ls : List VLane) :
    Eff (State × List (VLane × Nat)) := do
  checkLanes s c perm (scaledFmt f) u.writes ls
  watchLanes s u ls
  let s ← translateEach s u (pagesOf (ls.map fun l => l.a))
  placeLanes s u ls

/-- The format that a raw element code decodes under (R192). -/
def rawFmt (f : Nat) : Fmt :=
  match f with
  | 1 => bf16 | 2 => fp16 | 3 => e4m3 | 4 => e5m2 | 14 => e2m1 | 10 => fp32 | _ => fp64

/-- A raw element widened to its lane (R194). -/
def widen (f code : Nat) : Nat × Flags :=
  match f with
  | 8 => (wrapInt (sxInt code 8) 32, 0)
  | 9 => (wrapInt (sxInt code 4) 32, 0)
  | 10 | 11 | 12 | 13 => (code, 0)
  | _ => fconv fp32 false .rne (fdecode (rawFmt f) code)

/-- A lane converted to a raw element (R194). -/
def narrow (f : Nat) (sat : Bool) (md : Rounding) (v : Nat) : Nat × Flags :=
  match f with
  | 8 => iconv 8 .rne (ofInt (sxInt v 32))
  | 9 => iconv 4 .rne (ofInt (sxInt v 32))
  | 10 | 11 | 12 | 13 => (v, 0)
  | _ => fconv (rawFmt f) sat md (fdecode fp32 v)

/-- Whether a lane's data lies in an uncorrectable codeword (R356). -/
def laneBad (s : State) (l : VLane) (pa : Nat) : Bool :=
  match planeWin l.a with
  | some w => let (g, e) := elemAt w l.a; elemBad s (spadPa s.cur) w g e
  | none => (s.firstBad pa l.n).isSome

/-- The value a lane loads (R73, R194, R195). -/
def loadLane (s : State) (f : Nat) (l : VLane) (pa : Nat) : Nat × Flags :=
  match planeWin l.a with
  | some w => loadElem s w l.a
  | none =>
    let c := s.seenNat l.a pa l.n
    widen f (match l.nib with | some hi => bits c (if hi then 7 else 3) (if hi then 4 else 0) | none => c)

/-- What a lane stores (R67, R73, R194, R195): the rounding takes the element's index in a plane window, else the lane
number (R197). -/
def storeLane (s : State) (f : Nat) (sat : Bool) (seed : Option W16) (v : Nat) (l : VLane) (pa : Nat) : State × Flags :=
  let md := fun i => match seed with | some x => Rounding.sr (srDraw x i) | none => .rne
  match planeWin l.a with
  | some w => storeElem s sat (md (elemAt w l.a).2) w l.a v
  | none =>
    let (c, fl) := narrow f sat (md l.k) v
    match l.nib with
    | none => (s.store l.a pa (leBytes l.n c), fl)
    | some hi =>
      let old := (s.foundByte l.a pa).toNat
      (s.store l.a pa (leBytes 1 (if hi then old % 16 + c % 16 * 16 else old / 16 * 16 + c % 16)), fl)

/-- Consecutive bytes gathered into writes of whole runs, so that a run rewrites the codewords it covers (R356). -/
def byteRuns : List (Nat × Byte) → List (Nat × List Byte)
  | [] => []
  | (a, b) :: rest =>
    match byteRuns rest with
    | (a', bs) :: rs => if a + 1 = a' then (a, b :: bs) :: rs else (a, [b]) :: (a', bs) :: rs
    | [] => [(a, [b])]

/-- Counts the energy of a vector access: one bank access for each 8-byte word of the scratchpad that its lanes touch, the bytes of
dome and HBM lane by lane (R422). -/
def chargeLanes (s : State) (write : Bool) (ps : List (VLane × Nat)) : State :=
  let inSpad := fun (p : VLane × Nat) => 0x060000000000 ≤ p.2 % 2 ^ 43
  let words := (ps.filter inSpad).flatMap fun p => match planeWin p.1.a with
    | some w => let (g, e) := elemAt w p.1.a; (elemBytes w e).map fun o => (spadPa s.cur + g + o) / 8
    | none => [p.2 / 8, (p.2 + p.1.n - 1) / 8]
  let s := (ps.filter fun p => !inSpad p).foldl (fun s p => if write then s.chargeOut p.2 p.1.n else s.chargeCur p.2 p.1.n) s
  words.eraseDups.foldl (fun s w => if write then s.chargeOut (8 * w) 8 else s.chargeCur (8 * w) 8) s

/-- A vector load from checked lanes: bytes for RAW, else converted lanes; nothing of an uncorrectable codeword is
delivered (R193, R194, R356). DESIGN CHOICE: where a lane meets one, no lane of vd is written and the load's flags are dropped (log entry
9). -/
def loadLanes (s : State) (d : BitVec 4) (f : Nat) (ps : List (VLane × Nat)) (len : Nat) : Eff State :=
  let old := s.curTask.vec d
  let w := if f = 0 then 8 else fmtWidth f
  let got := ps.map fun p => (p.1.k, if f = 0 then (s.seenNat p.1.a p.2 1, (0 : Flags)) else loadLane s f p.1 p.2)
  let l := (List.range (512 / w)).map fun k =>
    match got.find? fun x => x.1 = k with | some x => x.2.1 | none => laneOf old w k
  let fl := got.foldl (fun acc x => acc ||| x.2.2) 0
  match ps.find? fun p => laneBad s p.1 p.2 with
  | some p => vecEnter (retire (closeFrames s p.2 p.1.n) len) 0 (some p.1.a)
  | none => vecEnter ((chargeLanes s false ps).onCur fun x => (x.setVec d (packLanes w l)).advance len) fl none

/-- The byte lanes of a vector store through one loop-back path (R193, R367). -/
def storeRaw (s : State) (v : W512) : List (VLane × Nat) → State
  | [] => s
  | p :: ps =>
    s.through p.1.a ((p :: ps).map fun q => q.2) fun s =>
      (byteRuns ((p :: ps).map fun q => (q.2, BitVec.ofNat 8 (laneOf v 8 q.1.k)))).foldl (fun s r => s.write r.1 r.2) s

/-- A vector store to checked lanes, in lane order (R196). -/
def storeLanes (s : State) (d : BitVec 4) (f : Nat) (sat : Bool) (seed : Option W16) (ps : List (VLane × Nat)) (len : Nat) :
    Eff State :=
  let v := s.curTask.vec d
  let (s, fl) :=
    if f = 0 then
      (storeRaw (storeRaw s v (ps.filter fun p => !viaGlobal p.1.a)) v (ps.filter fun p => viaGlobal p.1.a), (0 : Flags))
    else
      ps.foldl (fun (acc : State × Flags) p =>
        let r := storeLane acc.1 f sat seed (laneOf v (fmtWidth f) p.1.k) p.1 p.2
        (r.1, acc.2 ||| r.2)) (s, 0)
  let s := chargeLanes s true ps
  vecEnter (retire (if ps = [] then s else s.owe 4) len) fl none

/-- A vector load (R193 to R196). -/
def vecLoad (g : Guard) (i : Instr) (f : BitVec 4) (d : BitVec 4) (a : BitVec 5) (lanes : Task → GVal → List VLane) (s : State) :
    Out :=
  guarded g 4 s fun s => do
    withheld s i (f = 11 || f = 13)
    let c := s.curTask.reg a
    let (s, ps) ← resolveLanes s c permLd f.toNat .load (lanes s.curTask c)
    loadLanes s d f.toNat ps 4

/-- A vector store (R193 to R197). -/
def vecStore (g : Guard) (i : Instr) (len : Nat) (f : BitVec 4) (d : BitVec 4) (a : BitVec 5) (sat : BitVec 1) (seed : Option W16)
    (lanes : Task → GVal → List VLane) (s : State) : Out :=
  guarded g len s fun s => do
    withheld s i (f = 11 || f = 13)
    let c := s.curTask.reg a
    let (s, ps) ← resolveLanes s c permSt f.toNat .store (lanes s.curTask c)
    storeLanes s d f.toNat (sat = 1) seed ps len

/-- Lanes of VLD and VST: cursor plus index register. -/
def vldLanes (m : BitVec 2) (f : BitVec 4) (x : BitVec 5) (t : Task) (c : GVal) : List VLane :=
  rowLanes t m f.toNat (cursor c.bits + t.r64 x)
/-- Lanes of VGATH and VSCAT: sign-extended lanes of vx. -/
def vgathLanes (m : BitVec 2) (f v : BitVec 4) (t : Task) (c : GVal) : List VLane :=
  let w := fmtWidth f.toNat
  offsetLanes t m f.toNat (cursor c.bits) fun k => BitVec.ofInt 64 (sxInt (laneOf (t.vec v) w k) w)

/-- VLD (R193). -/
def execVld (g : Guard) (d : BitVec 4) (a x : BitVec 5) (m : BitVec 2) (f : BitVec 4) (s : State) : Out :=
  vecLoad g (.vld g d a x m f) f d a (vldLanes m f x) s

/-- VST (R193). -/
def execVst (g : Guard) (d : BitVec 4) (a x : BitVec 5) (m : BitVec 2) (f : BitVec 4) (sat : BitVec 1) (s : State) : Out :=
  vecStore g (.vst g d a x m f sat) 4 f d a sat none (vldLanes m f x) s

/-- VST with seed (R197). -/
def execVstSeed (g : Guard) (d : BitVec 4) (a x : BitVec 5) (m : BitVec 2) (f : BitVec 4) (sat : BitVec 1) (seed : BitVec 16) (s : State) : Out :=
  vecStore g (.vstSeed g d a x m f sat seed) 8 f d a sat (some seed) (vldLanes m f x) s

/-- VLDS (R193). -/
def execVlds (g : Guard) (d : BitVec 4) (a x : BitVec 5) (m : BitVec 2) (f : BitVec 4) (s : State) : Out :=
  vecLoad g (.vlds g d a x m f) f d a
    (fun t c => offsetLanes t m f.toNat (cursor c.bits) fun k => BitVec.ofNat 64 k * t.r64 x) s

/-- VGATH (R193). -/
def execVgath (g : Guard) (d : BitVec 4) (a : BitVec 5) (v : BitVec 4) (m : BitVec 2) (f : BitVec 4) (s : State) : Out :=
  vecLoad g (.vgath g d a v m f) f d a (vgathLanes m f v) s

/-- VSCAT (R193). -/
def execVscat (g : Guard) (d : BitVec 4) (a : BitVec 5) (v : BitVec 4) (m : BitVec 2) (f : BitVec 4) (sat : BitVec 1) (s : State) : Out :=
  vecStore g (.vscat g d a v m f sat) 4 f d a sat none (vgathLanes m f v) s

/-- VSCAT with seed (R197). -/
def execVscatSeed (g : Guard) (d : BitVec 4) (a : BitVec 5) (v : BitVec 4) (m : BitVec 2) (f : BitVec 4) (sat : BitVec 1) (seed : BitVec 16)
    (s : State) : Out :=
  vecStore g (.vscatSeed g d a v m f sat seed) 8 f d a sat (some seed) (vgathLanes m f v) s

end Sys2Proof.Machine
end

