-- ==== Sys2Proof/Machine/Dispatch.lean ====
section
/-! DEFINITION. Every instruction's and every event's meaning: one call per constructor of Instr. -/

namespace Sys2Proof.Machine

def exec (i : Instr) (s : State) : Host.Outcome State Fault Refusal :=
  match i with
  | .add g d a b => Sys2Proof.Machine.execAdd g d a b s
  | .sub g d a b => Sys2Proof.Machine.execSub g d a b s
  | .mul g d a b => Sys2Proof.Machine.execMul g d a b s
  | .mulh g d a b => Sys2Proof.Machine.execMulh g d a b s
  | .mulhu g d a b => Sys2Proof.Machine.execMulhu g d a b s
  | .div g d a b => Sys2Proof.Machine.execDiv g d a b s
  | .divu g d a b => Sys2Proof.Machine.execDivu g d a b s
  | .rem g d a b => Sys2Proof.Machine.execRem g d a b s
  | .remu g d a b => Sys2Proof.Machine.execRemu g d a b s
  | .and g d a b => Sys2Proof.Machine.execAnd g d a b s
  | .or g d a b => Sys2Proof.Machine.execOr g d a b s
  | .xor g d a b => Sys2Proof.Machine.execXor g d a b s
  | .andn g d a b => Sys2Proof.Machine.execAndn g d a b s
  | .shl g d a b => Sys2Proof.Machine.execShl g d a b s
  | .shr g d a b => Sys2Proof.Machine.execShr g d a b s
  | .sar g d a b => Sys2Proof.Machine.execSar g d a b s
  | .min g d a b => Sys2Proof.Machine.execMin g d a b s
  | .max g d a b => Sys2Proof.Machine.execMax g d a b s
  | .minu g d a b => Sys2Proof.Machine.execMinu g d a b s
  | .maxu g d a b => Sys2Proof.Machine.execMaxu g d a b s
  | .clz g d a => Sys2Proof.Machine.execClz g d a s
  | .ctz g d a => Sys2Proof.Machine.execCtz g d a s
  | .popc g d a => Sys2Proof.Machine.execPopc g d a s
  | .brev g d a => Sys2Proof.Machine.execBrev g d a s
  | .sext g d a w => Sys2Proof.Machine.execSext g d a w s
  | .zext g d a w => Sys2Proof.Machine.execZext g d a w s
  | .addi g d a i_ => Sys2Proof.Machine.execAddi g d a i_ s
  | .andi g d a i_ => Sys2Proof.Machine.execAndi g d a i_ s
  | .ori g d a i_ => Sys2Proof.Machine.execOri g d a i_ s
  | .xori g d a i_ => Sys2Proof.Machine.execXori g d a i_ s
  | .shli g d a n => Sys2Proof.Machine.execShli g d a n s
  | .shri g d a n => Sys2Proof.Machine.execShri g d a n s
  | .sari g d a n => Sys2Proof.Machine.execSari g d a n s
  | .lit g d lit => Sys2Proof.Machine.execLit g d lit s
  | .lith g d q lit => Sys2Proof.Machine.execLith g d q lit s
  | .cmp g p a b c => Sys2Proof.Machine.execCmp g p a b c s
  | .cmpiEq g p a i_ => Sys2Proof.Machine.execCmpiEq g p a i_ s
  | .cmpiNe g p a i_ => Sys2Proof.Machine.execCmpiNe g p a i_ s
  | .cmpiLt g p a i_ => Sys2Proof.Machine.execCmpiLt g p a i_ s
  | .cmpiLe g p a i_ => Sys2Proof.Machine.execCmpiLe g p a i_ s
  | .cmpiLtu g p a i_ => Sys2Proof.Machine.execCmpiLtu g p a i_ s
  | .cmpiLeu g p a i_ => Sys2Proof.Machine.execCmpiLeu g p a i_ s
  | .pand g p q r => Sys2Proof.Machine.execPand g p q r s
  | .por g p q r => Sys2Proof.Machine.execPor g p q r s
  | .pxor g p q r => Sys2Proof.Machine.execPxor g p q r s
  | .pnot g p q => Sys2Proof.Machine.execPnot g p q s
  | .pset g p b => Sys2Proof.Machine.execPset g p b s
  | .mov g d a => Sys2Proof.Machine.execMov g d a s
  | .sel g d a b c => Sys2Proof.Machine.execSel g d a b c s
  | .csetb g d a b => Sys2Proof.Machine.execCsetb g d a b s
  | .crestr g d a b => Sys2Proof.Machine.execCrestr g d a b s
  | .cadd g d a b => Sys2Proof.Machine.execCadd g d a b s
  | .cget g d a f => Sys2Proof.Machine.execCget g d a f s
  | .cclr g d a => Sys2Proof.Machine.execCclr g d a s
  | .cseal g d a k => Sys2Proof.Machine.execCseal g d a k s
  | .ctest g p a b => Sys2Proof.Machine.execCtest g p a b s
  | .ld g d a o z => Sys2Proof.Machine.execLd g d a o z s
  | .st g d a o z => Sys2Proof.Machine.execSt g d a o z s
  | .ldc g d a i_ => Sys2Proof.Machine.execLdc g d a i_ s
  | .stc g d a i_ => Sys2Proof.Machine.execStc g d a i_ s
  | .lda g d a o z => Sys2Proof.Machine.execLda g d a o z s
  | .stl g d a o z => Sys2Proof.Machine.execStl g d a o z s
  | .pf g h a i_ => Sys2Proof.Machine.execPf g h a i_ s
  | .fence g s_ => Sys2Proof.Machine.execFence g s_ s
  | .fenceLb g => Sys2Proof.Machine.execFenceLb g s
  | .amo g d a b w o => Sys2Proof.Machine.execAmo g d a b w o s
  | .cas g d a b w => Sys2Proof.Machine.execCas g d a b w s
  | .stm g d a b z => Sys2Proof.Machine.execStm g d a b z s
  | .stred g d a b o z => Sys2Proof.Machine.execStred g d a b o z s
  | .barArr g n => Sys2Proof.Machine.execBarArr g n s
  | .barWait g n => Sys2Proof.Machine.execBarWait g n s
  | .barSync g n => Sys2Proof.Machine.execBarSync g n s
  | .cntSet g a n => Sys2Proof.Machine.execCntSet g a n s
  | .cntAdd g a n => Sys2Proof.Machine.execCntAdd g a n s
  | .cntWait g a n => Sys2Proof.Machine.execCntWait g a n s
  | .br g x => Sys2Proof.Machine.execBr g x s
  | .call g x => Sys2Proof.Machine.execCall g x s
  | .jr g d a => Sys2Proof.Machine.execJr g d a s
  | .endTask g => Sys2Proof.Machine.execEndTask g s
  | .yield g => Sys2Proof.Machine.execYield g s
  | .nop g => Sys2Proof.Machine.execNop g s
  | .loop g a n dist => Sys2Proof.Machine.execLoop g a n dist s
  | .loopi g d a step n dist => Sys2Proof.Machine.execLoopi g d a step n dist s
  | .safept g vmap amap gmap => Sys2Proof.Machine.execSafept g vmap amap gmap s
  | .vadd g d a b m t => Sys2Proof.Machine.execVadd g d a b m t s
  | .vsub g d a b m t => Sys2Proof.Machine.execVsub g d a b m t s
  | .vmul g d a b m t => Sys2Proof.Machine.execVmul g d a b m t s
  | .vfma g d a b m t => Sys2Proof.Machine.execVfma g d a b m t s
  | .vmax g d a b m t => Sys2Proof.Machine.execVmax g d a b m t s
  | .vmin g d a b m t => Sys2Proof.Machine.execVmin g d a b m t s
  | .vabs g d a m t => Sys2Proof.Machine.execVabs g d a m t s
  | .vneg g d a m t => Sys2Proof.Machine.execVneg g d a m t s
  | .vexp2 g d a m t => Sys2Proof.Machine.execVexp2 g d a m t s
  | .vlog2 g d a m t => Sys2Proof.Machine.execVlog2 g d a m t s
  | .vrcp g d a m t => Sys2Proof.Machine.execVrcp g d a m t s
  | .vrsq g d a m t => Sys2Proof.Machine.execVrsq g d a m t s
  | .vcvt g d a s_ m t => Sys2Proof.Machine.execVcvt g d a s_ m t s
  | .vsel g d a b m t => Sys2Proof.Machine.execVsel g d a b m t s
  | .vshf g d a b m t => Sys2Proof.Machine.execVshf g d a b m t s
  | .viota g d m t => Sys2Proof.Machine.execViota g d m t s
  | .mand g d a b => Sys2Proof.Machine.execMand g d a b s
  | .mor g d a b => Sys2Proof.Machine.execMor g d a b s
  | .mnot g d a => Sys2Proof.Machine.execMnot g d a s
  | .vld g d a x m f => Sys2Proof.Machine.execVld g d a x m f s
  | .vst g d a x m f s_ => Sys2Proof.Machine.execVst g d a x m f s_ s
  | .vstSeed g d a x m f s_ seed => Sys2Proof.Machine.execVstSeed g d a x m f s_ seed s
  | .vlds g d a x m f => Sys2Proof.Machine.execVlds g d a x m f s
  | .vgath g d a v m f => Sys2Proof.Machine.execVgath g d a v m f s
  | .vscat g d a v m f s_ => Sys2Proof.Machine.execVscat g d a v m f s_ s
  | .vscatSeed g d a v m f s_ seed => Sys2Proof.Machine.execVscatSeed g d a v m f s_ seed s
  | .vbcst g d a m t => Sys2Proof.Machine.execVbcst g d a m t s
  | .vins g d a b t => Sys2Proof.Machine.execVins g d a b t s
  | .vext g d a b t => Sys2Proof.Machine.execVext g d a b t s
  | .vreds g d a m t => Sys2Proof.Machine.execVreds g d a m t s
  | .vredm g d a m t => Sys2Proof.Machine.execVredm g d a m t s
  | .vcmp g d a b m t c => Sys2Proof.Machine.execVcmp g d a b m t c s
  | .vectorLoadUe core => Sys2Proof.Machine.execVectorLoadUe core s
  | .mxZero g c => Sys2Proof.Machine.execMxZero g c s
  | .mxMma g c q a b d => Sys2Proof.Machine.execMxMma g c q a b d s
  | .mxRag g c q a b d => Sys2Proof.Machine.execMxRag g c q a b d s
  | .mxLda g c a d => Sys2Proof.Machine.execMxLda g c a d s
  | .mxSta g c a d => Sys2Proof.Machine.execMxSta g c a d s
  | .mxStaSeed g c a d seed => Sys2Proof.Machine.execMxStaSeed g c a d seed s
  | .mxWait g c q => Sys2Proof.Machine.execMxWait g c q s
  | .mxStat g q a => Sys2Proof.Machine.execMxStat g q a s
  | .matrixOpStart core => Sys2Proof.Machine.execMatrixOpStart core s
  | .matrixTripleBoundary core => Sys2Proof.Machine.execMatrixTripleBoundary core s
  | .matrixOpRetire core => Sys2Proof.Machine.execMatrixOpRetire core s
  | .matrixOperandUe core => Sys2Proof.Machine.execMatrixOperandUe core s
  | .laClr g a => Sys2Proof.Machine.execLaClr g a s
  | .laAdd g f a b => Sys2Proof.Machine.execLaAdd g f a b s
  | .laAddv g f a v => Sys2Proof.Machine.execLaAddv g f a v s
  | .laMrg g a b => Sys2Proof.Machine.execLaMrg g a b s
  | .laRnd g d a f => Sys2Proof.Machine.execLaRnd g d a f s
  | .chNew g d a b => Sys2Proof.Machine.execChNew g d a b s
  | .chConn g a b => Sys2Proof.Machine.execChConn g a b s
  | .chSend g a b => Sys2Proof.Machine.execChSend g a b s
  | .chRecv g d a => Sys2Proof.Machine.execChRecv g d a s
  | .chOffer g d a => Sys2Proof.Machine.execChOffer g d a s
  | .chSelect g a b => Sys2Proof.Machine.execChSelect g a b s
  | .chDeleg g a b => Sys2Proof.Machine.execChDeleg g a b s
  | .chAccept g d a => Sys2Proof.Machine.execChAccept g d a s
  | .chClose g a => Sys2Proof.Machine.execChClose g a s
  | .chStat g d a => Sys2Proof.Machine.execChStat g d a s
  | .chSync g a => Sys2Proof.Machine.execChSync g a s
  | .chFree g a => Sys2Proof.Machine.execChFree g a s
  | .spawn g a b => Sys2Proof.Machine.execSpawn g a b s
  | .bind g d a b => Sys2Proof.Machine.execBind g d a b s
  | .unbind g a => Sys2Proof.Machine.execUnbind g a s
  | .launch g d a => Sys2Proof.Machine.execLaunch g d a s
  | .jobq g d a => Sys2Proof.Machine.execJobq g d a s
  | .ipGive g a b => Sys2Proof.Machine.execIpGive g a b s
  | .ipTake g d a => Sys2Proof.Machine.execIpTake g d a s
  | .am g d a b n => Sys2Proof.Machine.execAm g d a b n s
  | .engW g d e i_ => Sys2Proof.Machine.execEngW g d e i_ s
  | .engR g d e i_ => Sys2Proof.Machine.execEngR g d e i_ s
  | .engGo g e => Sys2Proof.Machine.execEngGo g e s
  | .engWait g e => Sys2Proof.Machine.execEngWait g e s
  | .engineSwap e => Sys2Proof.Machine.execEngineSwap e s
  | .engineCompletion e => Sys2Proof.Machine.execEngineCompletion e s
  | .engineFault e => Sys2Proof.Machine.execEngineFault e s
  | .engineBusError e => Sys2Proof.Machine.execEngineBusError e s
  | .engineUe e => Sys2Proof.Machine.execEngineUe e s
  | .exchangeJoin die arrived => Sys2Proof.Machine.execExchangeJoin die arrived s
  | .exchangeNote die rank => Sys2Proof.Machine.execExchangeNote die rank s
  | .tret g => Sys2Proof.Machine.execTret g s
  | .sret g => Sys2Proof.Machine.execSret g s
  | .brk g => Sys2Proof.Machine.execBrk g s
  | .tlbi g a k => Sys2Proof.Machine.execTlbi g a k s
  | .compose g p a b => Sys2Proof.Machine.execCompose g p a b s
  | .towerForm core => Sys2Proof.Machine.execTowerForm core s
  | .composeTimeout core => Sys2Proof.Machine.execComposeTimeout core s
  | .release g => Sys2Proof.Machine.execRelease g s
  | .govPin g => Sys2Proof.Machine.execGovPin g s
  | .govUnpin g => Sys2Proof.Machine.execGovUnpin g s
  | .trap g i_ => Sys2Proof.Machine.execTrap g i_ s
  | .mfs g d s_ => Sys2Proof.Machine.execMfs g d s_ s
  | .mts g a s_ => Sys2Proof.Machine.execMts g a s_ s
  | .trcMark g a i_ => Sys2Proof.Machine.execTrcMark g a i_ s
  | .asyncTrapEntry core => Sys2Proof.Machine.execAsyncTrapEntry core s
  | .handlerBudget core => Sys2Proof.Machine.execHandlerBudget core s
  | .postedAtomicUe core => Sys2Proof.Machine.execPostedAtomicUe core s
  | .pageFaultPark task => Sys2Proof.Machine.execPageFaultPark task s
  | .fbStatWrite cluster value => Sys2Proof.Machine.execFbStatWrite cluster value s
  | .replayAll cluster => Sys2Proof.Machine.execReplayAll cluster s
  | .replayRerun cluster => Sys2Proof.Machine.execReplayRerun cluster s
  | .migrationShip task => Sys2Proof.Machine.execMigrationShip task s
  | .migrationArrival k => Sys2Proof.Machine.execMigrationArrival k s
  | .taskMessageArrival k => Sys2Proof.Machine.execTaskMessageArrival k s
  | .taskAdmission core => Sys2Proof.Machine.execTaskAdmission core s
  | .quantumExpiry core => Sys2Proof.Machine.execQuantumExpiry core s
  | .spireLaunchRequest => Sys2Proof.Machine.execSpireLaunchRequest s
  | .jobDealStart => Sys2Proof.Machine.execJobDealStart s
  | .groupDelivery job core => Sys2Proof.Machine.execGroupDelivery job core s
  | .freeCountReport die => Sys2Proof.Machine.execFreeCountReport die s
  | .lqTailWrite value => Sys2Proof.Machine.execLqTailWrite value s
  | .hostLaunchRecord => Sys2Proof.Machine.execHostLaunchRecord s
  | .jobCtlNone job => Sys2Proof.Machine.execJobCtlNone job s
  | .jobPreempt job => Sys2Proof.Machine.execJobPreempt job s
  | .jobResume job => Sys2Proof.Machine.execJobResume job s
  | .jobKill job => Sys2Proof.Machine.execJobKill job s
  | .preemptArrival job core => Sys2Proof.Machine.execPreemptArrival job core s
  | .preemptDeadline task => Sys2Proof.Machine.execPreemptDeadline task s
  | .sendQueueInject core => Sys2Proof.Machine.execSendQueueInject core s
  | .slotReturnSend core ep => Sys2Proof.Machine.execSlotReturnSend core ep s
  | .channelMessageArrival k => Sys2Proof.Machine.execChannelMessageArrival k s
  | .connectArrival k => Sys2Proof.Machine.execConnectArrival k s
  | .connectAnswer k => Sys2Proof.Machine.execConnectAnswer k s
  | .slotReturn k => Sys2Proof.Machine.execSlotReturn k s
  | .resyncWord k => Sys2Proof.Machine.execResyncWord k s
  | .resyncTimeout core ep => Sys2Proof.Machine.execResyncTimeout core ep s
  | .closeMessageArrival k => Sys2Proof.Machine.execCloseMessageArrival k s
  | .closeAckArrival k => Sys2Proof.Machine.execCloseAckArrival k s
  | .failureNotification k => Sys2Proof.Machine.execFailureNotification k s
  | .movedArrival k => Sys2Proof.Machine.execMovedArrival k s
  | .markArrivalOld k => Sys2Proof.Machine.execMarkArrivalOld k s
  | .markArrivalNew k => Sys2Proof.Machine.execMarkArrivalNew k s
  | .replySinkRelease k => Sys2Proof.Machine.execReplySinkRelease k s
  | .podPortDiscard k => Sys2Proof.Machine.execPodPortDiscard k s
  | .podErrorReply k => Sys2Proof.Machine.execPodErrorReply k s
  | .podArrival fibre m => Sys2Proof.Machine.execPodArrival fibre m s
  | .linkReplay fibre => Sys2Proof.Machine.execLinkReplay fibre s
  | .linkDown fibre => Sys2Proof.Machine.execLinkDown fibre s
  | .alogEnable value => Sys2Proof.Machine.execAlogEnable value s
  | .alogReplayStart value => Sys2Proof.Machine.execAlogReplayStart value s
  | .replayReinject => Sys2Proof.Machine.execReplayReinject s
  | .ctEntryWrite e value => Sys2Proof.Machine.execCtEntryWrite e value s
  | .circuitUp e => Sys2Proof.Machine.execCircuitUp e s
  | .twAdopt cluster value => Sys2Proof.Machine.execTwAdopt cluster value s
  | .tilePeerRequest core ep => Sys2Proof.Machine.execTilePeerRequest core ep s
  | .tilePeerSend core ep => Sys2Proof.Machine.execTilePeerSend core ep s
  | .tilePeerWrite core ep => Sys2Proof.Machine.execTilePeerWrite core ep s
  | .rdmaWrite r => Sys2Proof.Machine.execRdmaWrite r s
  | .rdmaRead r => Sys2Proof.Machine.execRdmaRead r s
  | .rdmaUnsupported r => Sys2Proof.Machine.execRdmaUnsupported r s
  | .pfcPause port prio quanta => Sys2Proof.Machine.execPfcPause port prio quanta s
  | .qpContextWrite port q word value => Sys2Proof.Machine.execQpContextWrite port q word value s
  | .dbgCmdNone gtid => Sys2Proof.Machine.execDbgCmdNone gtid s
  | .dbgStop gtid => Sys2Proof.Machine.execDbgStop gtid s
  | .dbgResume gtid => Sys2Proof.Machine.execDbgResume gtid s
  | .dbgStep gtid => Sys2Proof.Machine.execDbgStep gtid s
  | .slogEnable core => Sys2Proof.Machine.execSlogEnable core s
  | .slogDisable core => Sys2Proof.Machine.execSlogDisable core s
  | .rampSlotBoundary => Sys2Proof.Machine.execRampSlotBoundary s
  | .powerOnReset => Sys2Proof.Machine.execPowerOnReset s
  | .bootPhaseAdvance die => Sys2Proof.Machine.execBootPhaseAdvance die s
  | .hbmTrainingDone => Sys2Proof.Machine.execHbmTrainingDone s
  | .fullServiceStart => Sys2Proof.Machine.execFullServiceStart s
  | .recoveryImage image => Sys2Proof.Machine.execRecoveryImage image s
  | .attestIdentityRequest datagram => Sys2Proof.Machine.execAttestIdentityRequest datagram s
  | .attestReportRequest datagrams => Sys2Proof.Machine.execAttestReportRequest datagrams s
  | .thermalThrottle die => Sys2Proof.Machine.execThermalThrottle die s
  | .thermalRestore => Sys2Proof.Machine.execThermalRestore s
  | .thermalClockStop die => Sys2Proof.Machine.execThermalClockStop die s
  | .controlRegisterWrite mgmt die off size value => Sys2Proof.Machine.execControlRegisterWrite mgmt die off size value s
  | .vectorQueueExecute core => Sys2Proof.Machine.execVectorQueueExecute core s
  | .writeAcknowledgement task => Sys2Proof.Machine.execWriteAcknowledgement task s
  | .ethernetLinkChange port up => Sys2Proof.Machine.execEthernetLinkChange port up s
  | .pfcPauseExpiry port => Sys2Proof.Machine.execPfcPauseExpiry port s
  | .powerLoss => Sys2Proof.Machine.execPowerLoss s
  | .packageReset => Sys2Proof.Machine.execPackageReset s

end Sys2Proof.Machine
end

