-- ==== Sys2Proof/Machine/Auto.lean ====
section
/-! DEFINITION. What moves next: fetching and issuing an instruction (R86, R88, R90, R113, R272, R444), what its issue does
beside its effect (R322, R327, R422, R440, R447, R449), the part's own events in a fixed order (log entry 7), time. -/

namespace Sys2Proof.Machine

/-! Fetch and decode -/

/-- The literal word after an instruction word, fetched under the same checks (R86). -/
def fetchLiteral (s : State) (w : W32) : Eff (State × W32) :=
  if hasLiteral w then fetchWord s (s.curTask.pc + 4) else .ok (s, 0)

/-- The instruction at the pc, after the fetch checks and decode traps, in the order of R90, and the instruction entries of
the debug block (R444). -/
def fetchInstr (s : State) : Eff (State × Instr) := do
  let (s, w) ← fetchWord s s.curTask.pc
  let (s, l) ← (match fetchLiteral s w with | .ok r => .ok r | .error st => .error (.after s st))
  match decode w l with
  | .error _ => throw (.after s (.trap .illegalInstr (l ++ w)))
  | .ok i =>
    match illegalReg s.curTask i with
    | some r => throw (.after s (.trap .illegalReg (illegalRegInfo i r)))
    | none =>
      match instrMatch s with
      | some e => throw (.after s (.brk (BitVec.ofNat 64 (e + 8))))
      | none => pure (s, i)
where
  /-- An instruction entry that matches (R443, R444). -/
  instrMatch (s : State) : Option Nat :=
    let x := s.curTask
    (List.range 8).find? fun e =>
      let ctl := sget 0 s.dbg.bp (4 * e)
      ctl.getLsbD 0 && ctl.extractLsb' 1 2 = 0 && (sget 0 s.dbg.bp (4 * e + 2)).extractLsb' 0 52 = x.pc.extractLsb' 0 52
        && x.pc.extractLsb' 52 12 = 0
        && (if ctl.getLsbD 3 then ctl.extractLsb' 32 32 = x.job else (sget 0 s.dbg.bp (4 * e + 1)).extractLsb' 0 48 = x.gtid)

/-! Beside the effect -/

/-- The payload that a CH.SEND reads (R240). -/
def sendSource (b : State) (x : Task) (e v : BitVec 5) : List (W64 × Nat × Bool) :=
  match epConnected b (x.reg e) (some endpSend) with
  | .ok n =>
    (match (b.ep b.cur n).find false 0 none with
     | some t =>
       if tShape t = 0 then []
       else match payloadLen (b.ep b.cur n) t (x.reg v) with
         | .ok len => [(cursor (x.reg v).bits, len, false)]
         | .error _ => []
     | none => [])
  | .error _ => []

/-- Data accesses of an instruction of task `x` in state `b`: address, size, whether it writes. -/
def accessesOf (b : State) (x : Task) : Instr → List (W64 × Nat × Bool)
  | .ld _ _ a o z | .lda _ _ a o z => [(eaM (x.reg a) o (szBytes z), szBytes z, false)]
  | .st _ _ a o z | .stl _ _ a o z => [(eaM (x.reg a) o (szBytes z), szBytes z, true)]
  | .ldc _ _ a i => [(eaC (x.reg a) i, 16, false)]
  | .stc _ _ a i => [(eaC (x.reg a) i, 16, true)]
  | .amo _ _ a _ w _ | .cas _ _ a _ w => [(cursor (x.reg a).bits, atomBytes w, true)]
  | .stm _ _ a r z | .stred _ _ a r _ z => (destinations (cursor (x.reg a).bits) (x.r64 r)).map fun e => (e, szBytes z, true)
  | .vld _ _ a y m f => lanes (vldLanes m f y x (x.reg a)) false
  | .vst _ _ a y m f _ | .vstSeed _ _ a y m f _ _ => lanes (vldLanes m f y x (x.reg a)) true
  | .vlds _ _ a y m f => lanes (offsetLanes x m f.toNat (cursor (x.reg a).bits) fun k => BitVec.ofNat 64 k * x.r64 y) false
  | .vgath _ _ a v m f => lanes (vgathLanes m f v x (x.reg a)) false
  | .vscat _ _ a v m f _ | .vscatSeed _ _ a v m f _ _ => lanes (vgathLanes m f v x (x.reg a)) true
  | .laClr _ a | .laAdd _ _ a _ | .laAddv _ _ a _ => [(cursor (x.reg a).bits, 80, true)]
  | .laMrg _ a c => [(cursor (x.reg a).bits, 80, true), (cursor (x.reg c).bits, 80, false)]
  | .laRnd _ _ a _ => [(cursor (x.reg a).bits, 80, false)]
  | .mxMma _ _ _ a c d | .mxRag _ _ _ a c d => [operand (productArgs x a c d).1 false, operand (productArgs x a c d).2 false]
  | .mxLda _ _ a d => [operand (moveArg x .lda a d) false]
  | .mxSta _ _ a d | .mxStaSeed _ _ a d _ => [operand (moveArg x .sta a d) true]
  | .chSend _ e v => sendSource b x e v
  | .chNew _ _ a _ => let ps := imagePieces (cursor (x.reg a).bits); [(cursor (x.reg a).bits, ps, false)]
  | .launch _ _ a => [(cursor (x.reg a).bits, 64, false)]
  | _ => []
where
  lanes (l : List VLane) (w : Bool) : List (W64 × Nat × Bool) := l.map fun y => (y.a, y.n, w)
  operand (a : MxArg) (w : Bool) : W64 × Nat × Bool := (a.at_, a.len, w)
  /-- Bytes of the image that a CH.NEW reads: its header names the number of its states (R226, R237). -/
  imagePieces (a : W64) : Nat :=
    match rangePieces b a 16 with
    | .ok (s, ps) => let n := ((seenPieces s a ps).getD 2 0).toNat; if 1 ≤ n && n ≤ 32 then 16 + 32 * n else 16
    | .error _ => 16

/-- Physical ranges of n bytes that a task names at an address: an element's granule, or bytes page by page. -/
def physRanges (s : State) (x : Task) (a : W64) (n : Nat) : List (Nat × Nat) :=
  if n = 0 then []
  else match lockRange a n with
  | (true, lo, hi) => [(spadPa x.core + lo, hi - lo)]
  | (false, _, _) =>
    (pieces (n / 65536 + 2) a.toNat n).filterMap fun p =>
      match (s.lookup ⟨some (x.core, false), some (clusterOf x.core), dieOf x.core⟩ x.asid p.1).found with
      | .leaf lv e => some (leafPa e lv p.1, p.2)
      | _ => none

/-- The 64-byte lines of physical memory that n bytes at an address touch. -/
def physLines (s : State) (x : Task) (a : W64) (n : Nat) : List Nat :=
  (physRanges s x a n).flatMap fun r => (List.range ((r.1 + r.2 - 1) / 64 + 1 - r.1 / 64)).map fun i => r.1 / 64 + i

/-- The 64-byte lines of its own scratchpad that n bytes at an address name, and the path: false the private alias, true the
global address (R367). -/
def ownLines (s : State) (x : Task) (a : W64) (n : Nat) : List (Nat × Bool) :=
  let lo := spadPa x.core / 64
  ((physLines s x a n).filter fun l => lo ≤ l && l < lo + 0x2000).map fun l => (l - lo, viaGlobal a)

/-- An access to dome or HBM overlaps a range registered by another core of the die (R381, R449 code 1). -/
def meetsOther (s : State) (x : Task) (a : W64) (n : Nat) : Bool :=
  0x1000000 ≤ a.toNat && (physRanges s x a n).any (fun r => r.1 % 2 ^ 43 < 0x060000000000)
    && s.cores.any fun p => p.1 ≠ x.core && dieOf p.1 = dieOf x.core
      && p.2.locks.any fun l => !l.spad && l.asid = x.asid && overlap a.toNat (a.toNat + n) l.lo l.hi

/-- Hazards of one data access (R449, codes 1 and 5). `x` is the task as it issued, in the state `b` it issued in. -/
def accessHazard (b : State) (x : Task) (s : State) (r : W64 × Nat × Bool) : State :=
  let s := if meetsOther b x r.1 r.2.1 then hazard s x 1 r.1 else s
  if (ownLines b x r.1 r.2.1).any fun l => x.lbLines.contains (l.1, !l.2) then hazard s x 5 r.1 else s

/-- The lines of its own scratchpad that an instruction wrote, each with its path, are kept for the hazard of the other path (R449,
code 5), whether or not hazards are reported. -/
def noteLines (b : State) (x : Task) (i : Instr) (s : State) : State :=
  let ls := ((accessesOf b x i).filter fun r => r.2.2).flatMap fun r => ownLines b x r.1 r.2.1
  if ls = [] then s else s.onTask x.gtid fun y => { y with lbLines := (ls.filter fun l => !y.lbLines.contains l).eraseDups ++ y.lbLines }

/-- A register of a file number and index, dead since the last restore (R146). -/
def DeadRegs.has (d : DeadRegs) (r : Nat × Nat) : Bool :=
  match r.1 with
  | 0 => d.g.getLsbD r.2
  | 1 => d.v.getLsbD r.2
  | _ => d.a.getLsbD r.2

def DeadRegs.clear (d : DeadRegs) (r : Nat × Nat) : DeadRegs :=
  match r.1 with
  | 0 => { d with g := d.g &&& ~~~(1#32 <<< r.2) }
  | 1 => { d with v := d.v &&& ~~~(1#16 <<< r.2) }
  | _ => { d with a := d.a &&& ~~~(1#4 <<< r.2) }

/-- PF that does nothing because its address is out of bounds, in a plane window, or locked (R449, code 4). -/
def pfHazard (b s : State) (x : Task) : Instr → State
  | .pf _ _ a i =>
    let c := x.reg a
    let e := eaI c i
    if c.tag = .mem && (!inBounds c e || (planeWin e).isSome || (0x1000000 ≤ e.toNat && pfLocked b e)) then hazard s x 4 e else s
  | _ => s

/-- The hazards of an instruction that issued in state `b` (R449): codes 1 and 5 of the accesses it made, codes 2 and 4. -/
def hazards (b s : State) (x : Task) (i : Instr) (done : Bool) : State :=
  let s := if done then (accessesOf b x i).foldl (accessHazard b x) s else s
  let s := ((readsOf i).filter x.dead.has).foldl (fun s r => hazard s x 2 (BitVec.ofNat 64 (r.1 + r.2 * 4))) s
  pfHazard b s x i

/-- What an instruction that executed leaves for later hazards (R146, R367, R449): registers it wrote are live, and FENCE.LB
ends the watch over written lines. -/
def noteIssue (y : Task) (i : Instr) : Task :=
  let y := { y with dead := (writesOf i).foldl DeadRegs.clear y.dead }
  match i with
  | .fenceLb _ => { y with lbLines := [] }
  | _ => y

/-- The instruction may complete a wait with a write of this g register (R383). -/
def waitTarget : Instr → Option (BitVec 5)
  | .chRecv _ d _ | .chOffer _ d _ | .chAccept _ d _ | .chNew _ d _ _ | .laRnd _ d _ _ | .vext _ d _ _ _ => some d
  | .vreds _ d _ _ _ | .vredm _ d _ _ _ => some d
  | _ => none

/-- A synchronous trap was entered in place of an instruction (R270): MTS may set TSTAT.in_trap itself, and an SRET that returns may be
followed by a held trap, which counts by itself; one below supervisor level traps PRIV. -/
def entered (x y : Task) : Option Instr → Bool
  | some (.sret _) => x.sup.priv = false
  | some (.mts _ _ _) => !x.sup.inStrap && y.sup.inStrap
  | _ => (!x.tr.inTrap && y.tr.inTrap) || (!x.sup.inStrap && y.sup.inStrap)

/-- g registers rewritten in a way that discards a copy (R383, R440): by trap entry, by an instruction whose guard held and that
completed a wait, by a LOOPI index update where the loop-end test was made (R139, R140); none where the task left the core. -/
def rewritten (x y : Task) (i : Option Instr) (guard : Bool) : List Nat :=
  if entered x y i then allCopies
  else match i with
    | some i =>
      (match waitTarget i with | some d => if guard then [d.toNat] else [] | none => [])
        ++ (if y.status ≠ .ended && x.l1.isIdx && x.l1.atEnd x.pc && y.l1.lc ≠ x.l1.lc then [x.l1.idx.toNat] else [])
        ++ (if y.status ≠ .ended && x.l0.isIdx && x.l0.atEnd x.pc && y.l0.lc ≠ x.l0.lc then [x.l0.idx.toNat] else [])
    | none => []

/-- The instruction, or a trap in its place, took the task on: it retired or trapped. An instruction that jumps to itself
counts. -/
def wentOn (x y : Task) : Option Instr → Bool
  | some (.br _ _) | some (.jr _ _ _) | some (.call _ _) => true
  | _ => y.pcc ≠ x.pcc || y.l0 ≠ x.l0 || y.l1 ≠ x.l1 || y.tr ≠ x.tr || y.sup ≠ x.sup

/-! Towers -/

/-- Instructions that end a tower's block (R322); a guarded-off one cuts the code as well (R147). -/
def endsBlock : Instr → Bool
  | .br _ _ | .call _ _ | .jr _ _ _ | .loop _ _ _ _ | .loopi _ _ _ _ _ _ | .endTask _ | .safept _ _ _ _ | .release _ => true
  | _ => false

/-- A return transfers control: a block starts at its target, and the one it leaves is not counted (R322; log entry 18). -/
def returns : Instr → Bool
  | .tret _ | .sret _ => true
  | _ => false

/-- Predicates that an instruction reads beside its guard, and those it writes. -/
def predReads : Instr → List (BitVec 3)
  | .pand _ _ q r | .por _ _ q r | .pxor _ _ q r => [q, r]
  | .pnot _ _ q => [q]
  | .sel _ _ _ _ c => [c]
  | _ => []
def predWrites : Instr → List (BitVec 3)
  | .cmp _ p _ _ _ | .cmpiEq _ p _ _ | .cmpiNe _ p _ _ | .cmpiLt _ p _ _ | .cmpiLe _ p _ _ | .cmpiLtu _ p _ _ | .cmpiLeu _ p _ _
  | .pand _ p _ _ | .por _ p _ _ | .pxor _ p _ _ | .pnot _ p _ | .pset _ p _ | .ctest _ p _ _ | .compose _ p _ _ => [p]
  | _ => []

/-- The address whose line decides the load-store bank of a load, store or atomic; that of d_0 for a list (R175, R323). -/
def bankAddress (x : Task) : Instr → Option W64
  | .ld _ _ a o z | .lda _ _ a o z | .st _ _ a o z | .stl _ _ a o z => some (eaM (x.reg a) o (szBytes z))
  | .ldc _ _ a i | .stc _ _ a i => some (eaC (x.reg a) i)
  | .pf _ _ a i => some (eaI (x.reg a) i)
  | .amo _ _ a _ _ _ | .cas _ _ a _ _ => some (cursor (x.reg a).bits)
  | .stm _ _ a r _ | .stred _ _ a r _ _ => (destinations (cursor (x.reg a).bits) (x.r64 r)).head?
  | _ => none

/-- Scalar instructions, which execute where the register they write lives (R147, R323). -/
def isScalar : Instr → Bool
  | .add _ _ _ _ | .sub _ _ _ _ | .mul _ _ _ _ | .mulh _ _ _ _ | .mulhu _ _ _ _ | .div _ _ _ _ | .divu _ _ _ _ | .rem _ _ _ _
  | .remu _ _ _ _ | .and _ _ _ _ | .or _ _ _ _ | .xor _ _ _ _ | .andn _ _ _ _ | .shl _ _ _ _ | .shr _ _ _ _ | .sar _ _ _ _
  | .min _ _ _ _ | .max _ _ _ _ | .minu _ _ _ _ | .maxu _ _ _ _ | .clz _ _ _ | .ctz _ _ _ | .popc _ _ _ | .brev _ _ _
  | .sext _ _ _ _ | .zext _ _ _ _ | .addi _ _ _ _ | .andi _ _ _ _ | .ori _ _ _ _ | .xori _ _ _ _ | .shli _ _ _ _ | .shri _ _ _ _
  | .sari _ _ _ _ | .lit _ _ _ | .lith _ _ _ _ | .mov _ _ _ | .sel _ _ _ _ _ | .csetb _ _ _ _ | .crestr _ _ _ _ | .cadd _ _ _ _
  | .cget _ _ _ _ | .cclr _ _ _ | .cseal _ _ _ _ => true
  | i => predWrites i ≠ [] && (match i with | .compose _ _ _ _ => false | _ => true)

/-- The member of a tower of n on which an instruction executes (R323): `own` is the initiator's number. -/
def memberOf (x : Task) (n own : Nat) (i : Instr) : Nat :=
  match bankAddress x i with
  | some a => lineBank n a
  | none =>
    match i with
    | .br _ _ | .call _ _ | .jr _ _ _ | .loop _ _ _ _ | .loopi _ _ _ _ _ _ => fetchMember n (if x.blockLen = 0 then x.pc else x.blockAt)
    | _ =>
      if isScalar i then
        match (writesOf i).filter (fun r => r.1 = 0), predWrites i with
        | r :: _, _ => bankOf n r.2
        | [], p :: _ => bankOf n p.toNat
        | [], [] => own
      else own

/-- Banks of the g registers and predicates among operands; g0 and p0 are constants and live in none (R321). -/
def banks (n : Nat) (rs : List (Nat × Nat)) (ps : List (BitVec 3)) : List Nat :=
  ((rs.filter fun r => r.1 = 0 && r.2 ≠ 0).eraseDups.map fun r => bankOf n r.2) ++ (ps.filter (· ≠ 0)).eraseDups.map fun p => bankOf n p.toNat

/-- Operand transfers of an instruction in a tower (R321, R323, R327): operands and results of another member's bank. -/
def transfers (x : Task) (n own : Nat) (g : Guard) (guard : Bool) (i : Instr) : Nat :=
  let k := memberOf x n own i
  let used := banks n (if guard then readsOf i else []) (g.p :: if guard then predReads i else [])
    ++ if guard then banks n (writesOf i) (predWrites i) else []
  (used.filter (· ≠ k)).length

/-- The commit of a tower's instruction (R322, R323, R327): its block, its operand transfers, waits on fetch, and what a wrong
prediction or the re-run of a load squashed; loop ends are predicted exactly (log entry 18). -/
def commit (s : State) (x : Task) (g : Guard) (guard : Bool) (i : Instr) : State :=
  let n := x.tower.length
  let own := (x.tower.idxOf? x.core).getD 0
  let loopEnd := x.l1.atEnd x.pc || x.l0.atEnd x.pc
  let ends := endsBlock i || loopEnd || x.blockLen = 31
  let risky := (endsBlock i && !loopEnd) || (guard && (bankAddress x i).isSome)
  s.onTask x.gtid fun y =>
    if y.status = .ended then y
    else
      let y := { y with blockLen := if ends || (guard && returns i) || y.tower = [] then 0 else x.blockLen + 1, blockAt := if x.blockLen = 0 then x.pc else x.blockAt }
      { y with counts := { y.counts with
        blocks := if ends then y.counts.blocks + 1 else y.counts.blocks,
        squash := if risky then y.counts.squash + BitVec.ofNat 48 (Config.towerCount s.tick 0) else y.counts.squash,
        fetchb := y.counts.fetchb + BitVec.ofNat 48 (Config.towerCount s.tick 1),
        hops := y.counts.hops + BitVec.ofNat 48 (transfers x n own g guard i) } }

/-! What an issue does beside its effect -/

/-- Energy of the issue of a scalar instruction, in eighths of a picojoule (R422, class 0). -/
def issueEnergy : Nat := 280

/-- The first instruction of a high-level task starts its budget (R273). -/
def markFirst (s : State) (x : Task) : State :=
  if x.high && x.firstIssue.isNone && (s.task x.gtid).status ≠ .ended then s.onTask x.gtid fun y => { y with firstIssue := some s.timebase } else s

/-- Major opcode of an instruction (R92). -/
def majorOf (i : Instr) : Nat := match encode i with | w :: _ => (w.extractLsb' 0 7).toNat | [] => 0

/-- An instruction of the vector unit (R177). -/
def isVector (i : Instr) : Bool := 0x40 ≤ majorOf i && majorOf i ≤ 0x4E

/-- A scalar instruction (R422, class 0): not one of the vector and matrix units (log entry 24). -/
def scalarIssue (i : Instr) : Bool := majorOf i < 0x40 || 0x51 < majorOf i

/-- An instruction waits for a vector instruction of its task still queued (R178, R180): a scalar one for a g register that it reads or a line of
memory that it accesses, LA.ADDV for its source, VGATH and VSCAT for their index. -/
def waitsVec (b : State) (x : Task) (i : Instr) : Bool :=
  let q := ((b.core x.core).vecq.filter fun e => e.task = x.gtid).map fun e => e.deps
  match i with
  | .laAddv _ _ _ v => q.any fun d => d.v.getLsbD v.toNat
  | .vgath _ _ _ v _ _ | .vscat _ _ _ v _ _ _ | .vscatSeed _ _ _ v _ _ _ _ => q.any fun d => d.v.getLsbD v.toNat
  | _ =>
    !isVector i && ((readsOf i).any (fun r => r.1 = 0 && q.any fun d => d.g.getLsbD r.2)
      || ((bankAddress x i).isSome && (accessesOf b x i).any fun r => (physLines b x r.1 r.2.1).any fun l => q.any fun d => d.lines.contains l))

/-- Cycles that an instruction waited for vector instructions still queued (R178, R180; log entry 9). -/
def lodWait (b : State) (x : Task) (i : Instr) (s : State) : State :=
  if (b.core x.core).vecq ≠ [] && waitsVec b x i then
    s.onTask x.gtid fun y => if y.status = .ended then y
      else { y with counts := { y.counts with lod := y.counts.lod + BitVec.ofNat 48 (Config.decoupled b.tick) } }
  else s

/-- What may wait for a vector instruction: the registers it writes, the lines it touches (R178). -/
def depsOf (b : State) (x : Task) (i : Instr) : VecDeps :=
  let mask := fun (f : Nat) => (((writesOf i).filter fun w => w.1 = f).map fun w => 2 ^ w.2).foldl (· ||| ·) 0
  { g := BitVec.ofNat 32 (mask 0), v := BitVec.ofNat 16 (mask 1),
    lines := ((accessesOf b x i).flatMap fun r => physLines b x r.1 r.2.1).eraseDups }

/-- A vector instruction that has entered the queue notes what may wait for it (R178). -/
def noteDeps (b : State) (x : Task) (i : Instr) (s : State) : State :=
  let q := (s.core x.core).vecq
  match q.getLast? with
  | some e =>
    if isVector i && (b.core x.core).vecq.length < q.length then
      s.onCore x.core fun c => { c with vecq := c.vecq.dropLast ++ [{ e with deps := depsOf b x i }] }
    else s
  | none => s

/-- What an instruction that retired, or a trap in its place, does beside its effect: hints (R440), tower counts (R327), hazards
(R449), waits for the vector queue (R180). A guarded-off one has none of the effects of its operation (R114). A handler starts a block at its
first instruction (R322). -/
def afterRetire (b : State) (x : Task) (i : Option Instr) (s : State) : State :=
  let y := s.task x.gtid
  let s := if entered x y i then s.onTask x.gtid fun y => { y with blockLen := 0 } else s
  match i with
  | none => discardCopies s x (rewritten x y none false)
  | some i =>
    let g := guardIn i
    let ok := x.guardOk g
    let done := !entered x y (some i)
    let s := discardCopies s x (rewritten x y (some i) ok)
    let s := if x.tower ≠ [] && done then commit s x g ok i else s
    let s := if ok && (b.core x.core).debugEn then hazards b s x i done else s
    if ok && done then
      noteDeps b x i (noteLines b x i (lodWait b x i (s.onTask x.gtid fun y => if y.status = .ended then y else noteIssue y i)))
    else s
where
  /-- The guard of an instruction word (R87). -/
  guardIn (i : Instr) : Guard := match encode i with | w :: _ => guardOf w | [] => ⟨false, 0⟩

/-- What an issue does beside its instruction's effect. `b` is the state before, `x` its task then, `i` the instruction
where fetch and decode gave one, `s` the state after its effect. An access whose walk faulted parks in the same step (R346). A task
that now waits under a pending pre-emption is saved at once (R173, R218, R313), and a step ends (R447). -/
def afterIssue (b : State) (x : Task) (i : Option Instr) (s : State) : State :=
  let s := if (s.task x.gtid).fault.isSome then parkTask s x.gtid else s
  let s := markFirst s x
  let on := wentOn x (s.task x.gtid) i
  let s := if i.any scalarIssue && (on || decide ((s.task x.gtid).status = .ended)) then s.charge b.cur issueEnergy else s
  let s := if on then (afterRetire b x i s).onTask x.gtid fun y => if y.status = .ended then y else y.pastSyncs else s
  let y := s.task x.gtid
  if x.stepping && on && y.stepping && (y.status = .running || y.status = .suspended || y.status = .ready) then debugStop s x.gtid stepInfo
  else if y.preempt.isSome && (y.status = .waitMem || (y.status = .waitMsg && y.wait.isSome)) then preemptDue s x.gtid
  else s

/-! Issue -/

/-- A core may issue: it runs, and a task holds its issue slot (R308, R454). -/
def canIssue (s : State) (k : Nat) : Bool :=
  s.coreUp k && match (s.core k).issuing with
    | some t => (s.task t).status = .running
    | none => false

/-- The outcome of a function of states after an outcome. -/
def mapNext (f : State → State) : Out → Out
  | .next s => .next (f s)
  | .fault r => .fault r
  | .refused r => .refused r

/-- The executing task's next instruction: fetched, decoded and executed, or stopped on the way. -/
def runInstr (s : State) : Out :=
  let x := s.curTask
  match fetchInstr s with
  | .error st => .next (afterIssue s x none (applyStop s st))
  | .ok (s1, i) => mapNext (afterIssue s1 x (some i)) (exec i s1)

/-- One issue of core k: a held asynchronous trap first (R272), but after an instruction whose wait is over; else the next
instruction. -/
def issueOn (s : State) (k : Nat) : Out :=
  let s := State.stepLoop { s with cur := k }
  let x := s.curTask
  if !x.waitOver && x.held.any x.takeable then .next (takeHeld s x.gtid) else runInstr s

/-- A task whose parked access ran again becomes READY, unless it stopped on the way once more (R308, R352). -/
def againDone (t : BitVec 48) (s : State) : State :=
  let s := { s with again := none }
  if (s.task t).status = .ready then wake (s.onTask t fun x => { x with status := .waitMem }) t else s

/-- The state in which a task's parked access runs again, beside the issue slot of its core. -/
def againState (s : State) (t : BitVec 48) : State :=
  (State.stepLoop { s with cur := (s.task t).core }).onTask t fun x =>
    { x.countWait s.timebase with status := .ready, parkedPage := none, parkedAt := s.timebase }

/-- A parked access whose turn in a replay has come runs again from its checks on, with its instruction (R346, R352; log entry 31). -/
def runAgain (s : State) : Parked → Out
  | .task t => mapNext (againDone t) (runInstr (againState s t))
  | .walker k e =>
    let s := { s with again := none }
    match execTilePeerSend k e s with
    | .next s' => if s' = s then execTilePeerWrite k e s else .next s'
    | o => o

/-- The core that issues next: the lowest above the last that can, else the lowest (log entry 5). -/
def nextCore (s : State) : Option Nat :=
  let ks := (s.cores.map fun p => p.1).filter (canIssue s)
  match ks.find? fun k => s.cur < k with
  | some k => some k
  | none => ks.head?

/-! The part's own events -/

def engineRows (e : EngId) : List (State → Out) :=
  [execEngineSwap e, execEngineFault e, execEngineBusError e, execEngineUe e, execEngineCompletion e]

def coreRows (k : Nat) : List (State → Out) :=
  [execVectorLoadUe k, execVectorQueueExecute k, execMatrixOpStart k, execMatrixOperandUe k, execMatrixTripleBoundary k,
   execMatrixOpRetire k, execTowerForm k, execComposeTimeout k, execAsyncTrapEntry k, execHandlerBudget k, execPostedAtomicUe k,
   execTaskAdmission k, execQuantumExpiry k, execSendQueueInject k]

def slotRows (k e : Nat) : List (State → Out) :=
  [execSlotReturnSend k e, execResyncTimeout k e, execTilePeerRequest k e, execTilePeerSend k e, execTilePeerWrite k e]

def taskRows (t : Nat) : List (State → Out) :=
  [execPageFaultPark t, execMigrationShip t, execPreemptDeadline t, execWriteAcknowledgement t]

def netRows (k : Nat) : List (State → Out) :=
  [execTaskMessageArrival k, execChannelMessageArrival k, execConnectArrival k, execConnectAnswer k, execSlotReturn k,
   execResyncWord k, execCloseMessageArrival k, execCloseAckArrival k, execFailureNotification k, execMovedArrival k,
   execMarkArrivalOld k, execMarkArrivalNew k, execReplySinkRelease k, execPodPortDiscard k, execPodErrorReply k]

def dieRows (s : State) (d : Nat) : List (State → Out) :=
  engineRows (.exch d) ++ [execExchangeJoin d [], execFreeCountReport d, execBootPhaseAdvance d]
    ++ (match (s.die d).eng with | some o => o.notes.map fun p => execExchangeNote d p.1 | none => [])

def jobRows (s : State) (p : Nat × Job) : List (State → Out) :=
  let id : W32 := BitVec.ofNat 32 p.1
  (match p.2.launch with | some l => (l.cores s).map fun k => execGroupDelivery id k | none => [])
    ++ if p.2.state = .preempting then
        (0 :: p.2.sentTo ++ (s.cores.filter fun c => (c.2.runHigh ++ c.2.runBase).any (isOfJob id)).map fun c => c.1).map fun k => execPreemptArrival id k
      else []

def packageRows (s : State) : List (State → Out) :=
  [execFullServiceStart, execRampSlotBoundary, execHbmTrainingDone, execSpireLaunchRequest, execHostLaunchRecord, execJobDealStart,
   execReplayReinject]
    ++ (s.fabric.ct.map fun p => execCircuitUp (BitVec.ofNat 9 p.1)) ++ (List.range 4).map execPfcPauseExpiry

/-- The rows of the part's own events that may have come due (log entry 7). -/
def ownRows (s : State) : List (State → Out) :=
  let ks := s.cores.map fun p => p.1
  packageRows s ++ ks.flatMap coreRows ++ (s.cores.flatMap fun p => p.2.eps.flatMap fun e => slotRows p.1 e.1)
    ++ (((ks.map clusterOf) ++ s.clusters.map fun p => p.1).eraseDups.flatMap fun c => execReplayRerun c :: engineRows (.route c))
    ++ (List.range 8).flatMap (dieRows s) ++ s.tasks.flatMap (fun p => taskRows p.1) ++ (List.range s.net.length).flatMap netRows
    ++ ((List.range s.ships.length).map execMigrationArrival) ++ s.spire.jobs.flatMap (jobRows s)

/-- The state after an event that has come due; none where it changes nothing. -/
def tryRow (s : State) (f : State → Out) : Option State :=
  match f s with
  | .next s' => if s' = s then none else some s'
  | _ => none

/-- The first event that has come due, from a start that moves with the step number. -/
def ownEvent (s : State) : Option State :=
  let l := ownRows s
  let n := s.tick / 2 % l.length
  (l.drop n ++ l.take n).findSome? (tryRow s)

/-! Moves -/

/-- Time passes with a step: one cycle, and a free number of cycles beyond it (log entry 4). -/
def advanceClock (s : State) : State :=
  { s with tick := s.tick + 1, timebase := s.timebase + 1 + BitVec.ofNat 64 (Config.elapsed s.tick) }

/-- A move that the agenda names (log entry 5). -/
def doMove (m : Move) (s : State) : Out :=
  match m with
  | .issue k => if canIssue s k then issueOn s k else .next s
  | .event i => exec i s
  | .upset a => .next { s with ue := if s.ue.contains a then s.ue else a :: s.ue }
  | .corrected d => .next (s.onDie d fun x => { x with eccCe := x.eccCe + 1 })

/-- Without an agenda: issue on even steps where a core can, else an event that has come due, else issue. `n` is the step's
number. -/
def ownMove (n : Nat) (s : State) : Out :=
  if n % 2 = 0 then
    match nextCore s with
    | some k => issueOn s k
    | none => .next ((ownEvent s).getD s)
  else
    match ownEvent s with
    | some s' => .next s'
    | none => match nextCore s with | some k => issueOn s k | none => .next s

/-- What still acts on a part whose clock has stopped (R464). -/
def endsHold : Instr → Bool
  | .powerOnReset | .packageReset | .powerLoss => true
  | _ => false

/-- The end of a step: a drain is seen in its own cycle (R285), a task that stopped in a pre-emption is recorded (R301, R448), tickets that no
start waits for go (R426), and time passes. -/
def endStep (s : State) : State := advanceClock (dropStarts (stopRecorded (testDrains s)))

/-- One move of the machine, and the time it takes. A slot boundary that the timebase has passed comes before anything else (R423),
then a parked access whose turn in a replay has come (R352). -/
def move (s : State) : Out :=
  match s.power, s.agenda with
  | .off, .event .powerOnReset :: ms => exec .powerOnReset { s with agenda := ms, tick := s.tick + 1 }
  | .off, _ => .fault .powerOff
  | .clockStopped, .event i :: ms => if endsHold i then exec i { s with agenda := ms, tick := s.tick + 1 } else .next { s with agenda := ms, tick := s.tick + 1 }
  | .clockStopped, ms => .next { s with agenda := ms.drop 1, tick := s.tick + 1 }
  | .on, ms =>
    if slotPassed s then .next { slotBoundary s with tick := s.tick + 1 }
    else match s.again, ms with
      | some p, _ => mapNext endStep (runAgain s p)
      | none, m :: ms => mapNext endStep (doMove m { s with agenda := ms })
      | none, [] => mapNext endStep (ownMove s.tick s)

end Sys2Proof.Machine
end

