-- ==== Sys2Proof/Machine/Step.lean ====
section
/-! DEFINITION. One step, and a state whose next step runs a given instruction. -/

namespace Sys2Proof.Machine

/-- One step of the machine: the next move. -/
def step (s : State) : Host.Outcome State Fault Refusal := move s

/-- A header that declares every register, tile, counter and endpoint slot (R43). -/
def fullHeader : W64 := BitVec.ofNat 64 (3 + 16 * 2 ^ 2 + 4 * 2 ^ 7 + 16 * 2 ^ 10 + 64 * 2 ^ 15 + 507904 * 2 ^ 32)

/-- Scratchpad offset at which the loader places an instruction. -/
def loadAt : Nat := 0x40000

/-- The task the loader starts: supervisor level, everything declared, its pc at the placed instruction (log entry 6). -/
def loadedTask : Task :=
  { Task.none with
    status := .running, gtid := 1, khdr := fullHeader, pcc := supervisorPcc (BitVec.ofNat 64 loadAt), g := startRegs 0 507904 [],
    tiles := [0, 1, 2, 3], sup := { Task.none.sup with priv := true }, spadSize := 507904 }

/-- s with an instruction placed where the next step fetches: full service on die 0, a running task on core 0 whose pc names
it, and core 0 to issue next. It stands for the load of a program from outside (log entry 6). -/
def State.withFetchWord (s : State) (nbits w : Nat) : State :=
  let s := { s with power := .on, agenda := .issue 0 :: s.agenda, enabled := s.enabled ||| 1, dbg := { s.dbg with bp := [] },
                    gov := { s.gov with slot := max s.gov.slot (s.timebase.toNat / slotCc) } }
  let s := s.onDie 0 fun d => { d with bootPhase := 4 }
  let s := s.setTask 1 loadedTask
  let s := s.onCore 0 fun c =>
    { c with slotHigh := none, slotBase := some 1, suspBy := none, groups := [⟨0, List.range 16⟩], towerOf := none }
  s.write (spadPa 0 + loadAt) (tableBytes nbits w)

end Sys2Proof.Machine
end

