-- ==== Sys2Proof/Safety.lean ====
section
/-! DEFINITION. What counts as a safe run. -/

namespace Sys2Proof.Safety

open Sys2Proof.Machine

/-- States that n steps reach. -/
inductive Reaches : State → Nat → State → Prop
  | here (s : State) : Reaches s 0 s
  | step (s t u : State) (n : Nat) : Reaches s n t → Sys2Proof.Machine.step t = .next u → Reaches s (n + 1) u

/-- The machine can take a step. -/
def Live (s : State) : Prop := ∃ t, Sys2Proof.Machine.step s = .next t

/-- A run is safe when no state it reaches is without a next one. -/
def SafeRun (s : State) : Prop := ∀ n t, Reaches s n t → Live t

/-- A predicate that every step keeps. -/
def Invariant (p : State → Prop) : Prop := ∀ s t, p s → Sys2Proof.Machine.step s = .next t → p t

/-- Memory is in its canonical form. -/
def MemoryWf (s : State) : Prop := Memory.wf s.mem = true

/-! What statements about one instruction say -/

/-- A loop-end test of the task falls at its next instruction (R139). -/
def atLoopEnd (x : Task) : Bool := x.l1.atEnd x.pc || x.l0.atEnd x.pc

/-- g[r] is the index register of a LOOPI whose loop-end test falls at the task's next instruction (R139). -/
def loopIndex (x : Task) (r : BitVec 5) : Bool :=
  (x.l1.isIdx && x.l1.atEnd x.pc && decide (r = x.l1.idx)) || (x.l0.isIdx && x.l0.atEnd x.pc && decide (r = x.l0.idx))

/-- y is x after an instruction of `len` bytes that transfers no control retired: it moves the pc, at a loop end the loop
registers and a LOOPI index (R139, R140), the acknowledgement of R431, and nothing else. -/
def Retired (len : Nat) (x y : Task) : Prop :=
  y = { x with
    pcc := y.pcc, g := y.g, l0 := y.l0, l1 := y.l1, rvAck := y.rvAck }
  ∧ (∀ r, loopIndex x r = false → y.reg r = x.reg r)
  ∧ (atLoopEnd x = false → y.pcc = moveCursor x.pcc (x.pc + BitVec.ofNat 64 len) ∧ y.l0 = x.l0 ∧ y.l1 = x.l1)

/-- Only the executing task differs. -/
def OnlyTask (s t : State) : Prop := t = { s with tasks := t.tasks } ∧ ∀ u, u ≠ s.curTid → t.task u = s.task u

/-- The instruction completes: a next state in which its task is f of what it was, retired, and all else is as before. -/
def Completes (i : Instr) (len : Nat) (s : State) (f : Task → Task) : Prop :=
  ∃ t, exec i s = .next t ∧ OnlyTask s t ∧ Retired len (f s.curTask) (t.task s.curTid)

/-- The instruction completes and transfers control: its task is f of what it was, with another pc and no loop-end test (R140). -/
def Transfers (i : Instr) (s : State) (f : Task → Task) (pcc : GVal) : Prop :=
  ∃ t, exec i s = .next t ∧ OnlyTask s t ∧ t.task s.curTid = { f s.curTask with
    pcc := pcc, rvAck := (t.task s.curTid).rvAck }

/-- The instruction answers a next state of which p holds. -/
def Does (i : Instr) (s : State) (p : State → Prop) : Prop := ∃ t, exec i s = .next t ∧ p t

/-! What a memory access leaves -/

/-- What an access may move beside memory and its own task: translation caches, page-table roots, loop-back bytes and energy
counts (R343, R344, R367, R422). -/
def Accessed (s t : State) : Prop :=
  t = { s with
    mem := t.mem, tags := t.tags, ue := t.ue, tasks := t.tasks, cores := t.cores, clusters := t.clusters, dies := t.dies }
  ∧ (∀ u, u ≠ s.curTid → t.task u = s.task u)
  ∧ (∀ k, t.core k = { s.core k with
      itlb := (t.core k).itlb, dtlb := (t.core k).dtlb, loop := (t.core k).loop,
      gov := { (s.core k).gov with energy := (t.core k).gov.energy } })
  ∧ (∀ c, t.cluster c = { s.cluster c with l2 := (t.cluster c).l2, roots := (t.cluster c).roots, roots1 := (t.cluster c).roots1 })
  ∧ (∀ d, t.die d = { s.die d with dtc := (t.die d).dtc, roots := (t.die d).roots })

/-- The first operation of a queue that is not done (R199, R200). -/
def mxHead (c : Core) (q : Nat) (o : MxOp) : Prop :=
  o.done = false ∧ ∃ pre post, coreQueue c q = pre ++ o :: post ∧ ∀ e ∈ pre, e.done = true

/-! What the spec asks of a protocol image (R223, R226, R228) -/

/-- The header of an image is valid, and the image has ns states. -/
def ImageHeader (bs : List Byte) (ns : Nat) : Prop :=
  bs.take 2 = [0x49, 0x50] ∧ (bs.getD 2 0).toNat = ns ∧ 1 ≤ ns ∧ ns ≤ 32 ∧ 1 ≤ (bs.getD 3 0).toNat ∧ (bs.getD 3 0).toNat ≤ 8
  ∧ ∀ i, 4 ≤ i → i < 16 → bs.getD i 0 = 0

/-- Transition word j of state i of an image. -/
def imageWord (bs : List Byte) (i j : Nat) : W32 := BitVec.ofNat 32 (leNat ((bs.drop (16 + 32 * i + 4 * j)).take 4))

/-- State i of an image of ns states is valid: n valid transitions first and zeros behind them, each as R226 asks, and its name. That lop = 3
is not valid is the model's choice (log entry 21). -/
def ImageState (bs : List Byte) (ns i : Nat) : Prop :=
  (∃ n ≤ 4, (∀ j < 4, ((imageWord bs i j).getLsbD 0 = true ↔ j < n) ∧ (n ≤ j → imageWord bs i j = 0))
    ∧ ∀ j < n,
      let w := imageWord bs i j
      (tKind w = 3 → w = 0xD)
      ∧ (tKind w ≠ 3 → w.extractLsb' 27 5 = 0 ∧ (tNext w).toNat < ns ∧ (tExit w).toNat < ns ∧ tLop w ≠ 3
        ∧ (tKind w ≠ 0 → tShape w = 0) ∧ (tExit w ≠ 0 → tLop w = 2)
        ∧ (tLop w = 1 → tKind w = 1 ∨ (tKind w = 0 ∧ (tShape w = 0 ∨ 12 ≤ (tShape w).toNat))))
      ∧ ∀ m < n, m ≠ j →
        let x := imageWord bs i m
        tType x ≠ tType w ∧ (tKind w = 3 → tKind x ≠ 3)
        ∧ (tKind w ≠ 3 → tKind x ≠ 3 → tDir x = tDir w ∧ tKind x = tKind w ∧ (tDir w = false → tKind w = 1)))
  ∧ ∃ m, 1 ≤ m ∧ m ≤ 16 ∧ ∀ j < 16,
      let c := (bs.getD (32 + 32 * i + j) 0).toNat
      (j < m → (48 ≤ c ∧ c ≤ 57) ∨ (65 ≤ c ∧ c ≤ 90) ∨ (97 ≤ c ∧ c ≤ 122) ∨ c = 95) ∧ (m ≤ j → c = 0)

/-- What reading an image answers: its L and states, or the first state that is not valid, 31 for its header (R226, R237). -/
def ImageRead (bs : List Byte) : Prop :=
  ((¬ ∃ ns, ImageHeader bs ns) → parseImage bs = .error 31)
  ∧ ∀ ns, ImageHeader bs ns → bs.length = 16 + 32 * ns →
    ((∀ i < ns, ImageState bs ns i) → ∃ img, parseImage bs = .ok img ∧ img.la = (bs.getD 3 0).toNat ∧ img.states.length = ns
      ∧ ∀ i < ns, ∃ p, img.states[i]? = some p
        ∧ p.trans = ((List.range 4).map (imageWord bs i)).filter (fun w => w.getLsbD 0))
    ∧ ∀ i < ns, (∀ m < i, ImageState bs ns m) → ¬ ImageState bs ns i → parseImage bs = .error i

/-- The transitions of a state of an image. -/
def transAt (a : Image) (i : Nat) : List W32 := match a.states[i]? with | some p => p.trans | none => []

/-- A state of two images is dual: as many transitions, and each with its other direction in the peer's; a close has none. -/
def DualAt (a b : Image) (i : Nat) : Prop :=
  (transAt a i).length = (transAt b i).length ∧ ∀ t ∈ transAt a i, (if tKind t = 3 then t else t ^^^ 2) ∈ transAt b i

/-- What the duality test answers (R228): nothing, or state and reason of the first mismatch. -/
def DualAnswer (a b : Image) : Prop :=
  (a.states.length ≠ b.states.length → dual a b = some (0, 0))
  ∧ (a.states.length = b.states.length →
    ((∀ i < a.states.length, DualAt a b i) → dual a b = none)
    ∧ ∀ i < a.states.length, (∀ m < i, DualAt a b m) → ¬ DualAt a b i → dual a b = some (i, 1))

/-- Every byte, every tag and every codeword mark is as before. -/
def MemorySame (s t : State) : Prop := (∀ a, t.byte a = s.byte a) ∧ (∀ a, t.tagAt a = s.tagAt a) ∧ t.ue = s.ue

/-- The bytes from pa, and no others, are those given. -/
def Wrote (s t : State) (pa : Nat) (bs : List Byte) : Prop :=
  (∀ k (h : k < bs.length), t.byte (pa + k) = bs[k]) ∧ ∀ a, a < pa ∨ pa + bs.length ≤ a → t.byte a = s.byte a

/-- The tag of every granule that a write of n bytes overlaps is g, every other tag as before (R47, R48). -/
def Tagged (s t : State) (pa n : Nat) (g : Tag) : Prop :=
  ∀ a, t.tagAt a = if pa / 16 ≤ a / 16 ∧ a / 16 ≤ (pa + n - 1) / 16 then g else s.tagAt a

/-- A store of the executing task through the path of an address wrote the bytes from pa, and no others changed: a byte that comes to
lie under a store of the other path keeps what memory holds (R367; log entry 30). -/
def WroteVia (s t : State) (a : W64) (pa : Nat) (bs : List Byte) : Prop :=
  (∀ k (h : k < bs.length), t.byte (pa + k) = if s.under a (pa + k) then s.byte (pa + k) else bs[k])
  ∧ ∀ b, b < pa ∨ pa + bs.length ≤ b → t.byte b = s.byte b

/-- And the tags of such a store. -/
def TaggedVia (s t : State) (a : W64) (pa n : Nat) (g : Tag) : Prop :=
  ∀ b, t.tagAt b = if pa / 16 ≤ b / 16 ∧ b / 16 ≤ (pa + n - 1) / 16 ∧ s.tagUnder a b = false then g else s.tagAt b

/-- A store of bytes with a tag at a placed address (R47, R48, R367): the bytes given and no others, where the executing task has no store
of its own between its loop-back paths. -/
def Stored (s t : State) (a : W64) (pa : Nat) (bs : List Byte) (g : Tag) : Prop :=
  (s.loopMine = [] → Wrote s t pa bs ∧ Tagged s t pa bs.length g) ∧ WroteVia s t a pa bs ∧ TaggedVia s t a pa bs.length g

/-- Where the executing task has no store between its loop-back paths, an access sees and finds memory itself (R367). -/
def Loopless (s : State) (a : W64) : Prop :=
  s.loopMine = [] → ∀ pa, s.seenByte a pa = s.byte pa ∧ s.seenTag a pa = s.tagAt pa ∧ s.foundByte a pa = s.byte pa
    ∧ s.under a pa = false ∧ s.tagUnder a pa = false

/-- The two counters of a task that an access may raise (R359). -/
def Counted (x y : Task) : Prop :=
  y = { x with counts := { x.counts with dmiss := y.counts.dmiss, walks := y.counts.walks } }

/-- An access of the executing task completes: its task is f of what it was, its lookups counted, retired; memory is as m says; and
beside them the state is u, but for what `Accessed` names. -/
def CompletesFrom (u : State) (i : Instr) (len : Nat) (s : State) (f : Task → Task) (m : State → Prop) : Prop :=
  ∃ t x, exec i s = .next t ∧ Accessed u t ∧ m t ∧ Counted s.curTask x ∧ Retired len (f x) (t.task s.curTid)

/-- An access completes and moves nothing beside its task, its bytes and what `Accessed` names. -/
def AccessCompletes (i : Instr) (s : State) (f : Task → Task) (m : State → Prop) : Prop := CompletesFrom s i 4 s f m

/-- s with one more uncorrectable error that a posted atomic of the executing task is to report (R153). -/
def posting (s : State) (a : W64) : State :=
  s.onCore s.cur fun c => { c with postedUe := c.postedUe ++ [(s.curTid, a)] }

/-- s with one more entry in the executing core's vector queue (R177). -/
def enqueued (s : State) (fl : Flags) (ue : Option W64) : State :=
  s.onCore s.cur fun c => { c with vecq := c.vecq ++ [⟨s.curTid, fl, ue, .none⟩] }

/-- A vector instruction on registers completes: its task is f of what it was, retired, and it enters the vector queue with
the flags that it sets when it executes there (R177, R178, R183). -/
def Queued (i : Instr) (s : State) (f : Task → Task) (fl : Flags) : Prop :=
  ∃ t, exec i s = .next t ∧ OnlyTask (enqueued s fl none) t ∧ Retired 4 (f s.curTask) (t.task s.curTid)

/-- A vector memory access completes as `AccessCompletes` says, and enters the vector queue. -/
def QueuedAccess (i : Instr) (len : Nat) (s : State) (f : Task → Task) (fl : Flags) (ue : Option W64) (m : State → Prop) : Prop :=
  CompletesFrom (enqueued s fl ue) i len s f m

/-- A task that owes one more acknowledgement (R157, R158). -/
def owing (x : Task) : Task := { x with unacked := x.unacked ++ [⟨4⟩] }

/-- The state in which a stop takes its instruction: what its checks and translations left (R149). -/
def metAt : State → Stop → State
  | _, .after u st => metAt u st
  | s, _ => s

/-- What a stop is, when all that came before it is taken off. -/
def stopOf : Stop → Stop
  | .after _ st => stopOf st
  | st => st

/-- The instruction ends in this stop, and nothing was written before it: memory is as before where the stop takes the instruction, and
so it is after a trap that writes no error record and stops no task (R32, R269). -/
def StopsUnwritten (i : Instr) (s : State) (st : Stop) : Prop :=
  exec i s = .next (applyStop s st) ∧ MemorySame s (metAt s st)
  ∧ ∀ c v, stopOf st = .trap c v → c ≠ .memUe → s.curTask.sup.inStrap = false → MemorySame s (applyStop s st)

/-- No byte of a range lies in an uncorrectable codeword (R355). -/
def Clean (s : State) (pa n : Nat) : Prop := ∀ k < n, s.badByte (pa + k) = false

/-- The instruction traps in place: its next state is the one that taking the exception gives (R269, R270). -/
def Traps (i : Instr) (s : State) (c : Cause) (info : W64) : Prop := exec i s = .next (raise s s.curTid c info false)

/-- The instruction answers this next state. -/
def Answers (i : Instr) (s t : State) : Prop := exec i s = .next t

end Sys2Proof.Safety
end

