-- ==== Sys2Proof/Certificates/Slice0/Obligations.lean ====
section
/-! DEFINITION. The statements for the provers, in the terms of Sys2Proof/Safety.lean. -/

open Sys2Proof Sys2Proof.Machine Sys2Proof.Safety

/-! Integer results (R115 to R126) -/

/-- R115: ADD, SUB, MUL, MULH, MULHU, MIN, MAX, MINU, MAXU, with the shifts of R118: the result reaches g[rd] as DATA with
zero above bit 63, nothing else changes. A write to g0 has no effect (R13). R116: DIV, DIVU, REM and REMU, with their
results for a zero divisor, the sticky DIVZERO flag, and the overflow of the most negative number divided by −1. R118, R119:
shifts by a register or by an immediate count, with the results for counts of 64 and more. -/
def Obligations.IntegerDivisionAndShiftResults : Prop :=
  (∀ (s : State) (g : Guard) (d a b : BitVec 5), s.curTask.guardOk g = true →
      let w (f : W64 → W64 → W64) (x : Task) : Task := x.setR64 d (f (x.r64 a) (x.r64 b))
      Completes (.add g d a b) 4 s (w fun u v => u + v)
      ∧ Completes (.sub g d a b) 4 s (w fun u v => u - v)
      ∧ Completes (.mul g d a b) 4 s (w fun u v => u * v)
      ∧ Completes (.mulh g d a b) 4 s (w fun u v => BitVec.ofInt 64 (u.toInt * v.toInt / 2 ^ 64))
      ∧ Completes (.mulhu g d a b) 4 s (w fun u v => BitVec.ofNat 64 (u.toNat * v.toNat / 2 ^ 64))
      ∧ Completes (.min g d a b) 4 s (w fun u v => if u.toInt ≤ v.toInt then u else v)
      ∧ Completes (.max g d a b) 4 s (w fun u v => if u.toInt ≤ v.toInt then v else u)
      ∧ Completes (.minu g d a b) 4 s (w fun u v => if u.toNat ≤ v.toNat then u else v)
      ∧ Completes (.maxu g d a b) 4 s (w fun u v => if u.toNat ≤ v.toNat then v else u))
  ∧ (∀ (s : State) (g : Guard) (d a b : BitVec 5), s.curTask.guardOk g = true →
      let w (f : W64 → W64 → W64) (x : Task) : Task :=
        (x.setR64 d (f (x.r64 a) (x.r64 b))).addFlags (if x.r64 b = 0 then flDivzero else 0)
      Completes (.div g d a b) 4 s (w fun u v => if v = 0 then BitVec.allOnes 64 else BitVec.ofInt 64 (u.toInt.tdiv v.toInt))
      ∧ Completes (.rem g d a b) 4 s (w fun u v => if v = 0 then u else BitVec.ofInt 64 (u.toInt.tmod v.toInt))
      ∧ Completes (.divu g d a b) 4 s (w fun u v => if v = 0 then BitVec.allOnes 64 else BitVec.ofNat 64 (u.toNat / v.toNat))
      ∧ Completes (.remu g d a b) 4 s (w fun u v => if v = 0 then u else BitVec.ofNat 64 (u.toNat % v.toNat)))
  ∧ (∀ (s : State) (g : Guard) (d a b : BitVec 5) (n : BitVec 7), s.curTask.guardOk g = true →
      let left (u : W64) (k : Nat) : W64 := BitVec.ofNat 64 (u.toNat * 2 ^ k)
      let right (u : W64) (k : Nat) : W64 := BitVec.ofNat 64 (u.toNat / 2 ^ k)
      let arith (u : W64) (k : Nat) : W64 := BitVec.ofInt 64 (u.toInt / 2 ^ k)
      let w (f : W64 → Nat → W64) (x : Task) : Task := x.setR64 d (f (x.r64 a) (x.r64 b).toNat)
      let wi (f : W64 → Nat → W64) (x : Task) : Task := x.setR64 d (f (x.r64 a) n.toNat)
      Completes (.shl g d a b) 4 s (w left) ∧ Completes (.shr g d a b) 4 s (w right) ∧ Completes (.sar g d a b) 4 s (w arith)
      ∧ Completes (.shli g d a n) 4 s (wi left) ∧ Completes (.shri g d a n) 4 s (wi right)
      ∧ Completes (.sari g d a n) 4 s (wi arith))

/-- R117, R119, R120: the bit operations and LIT act on all 128 bits, ADDI on 64; each result is DATA. R121 to R123: LITH
replaces one quarter and keeps the others; bit counts; sign and zero extension into 128 bits. -/
def Obligations.WideLogicBitCountsAndExtensions : Prop :=
  (∀ (s : State) (g : Guard) (d a b : BitVec 5) (i : BitVec 11) (l : W32), s.curTask.guardOk g = true →
      let w (f : W128 → W128 → W128) (x : Task) : Task := x.setReg d ⟨f (x.reg a).bits (x.reg b).bits, .data⟩
      let wi (f : W128 → W128 → W128) (x : Task) : Task := x.setReg d ⟨f (x.reg a).bits (BitVec.ofInt 128 i.toInt), .data⟩
      Completes (.and g d a b) 4 s (w fun u v => u &&& v) ∧ Completes (.or g d a b) 4 s (w fun u v => u ||| v)
      ∧ Completes (.xor g d a b) 4 s (w fun u v => u ^^^ v) ∧ Completes (.andn g d a b) 4 s (w fun u v => u &&& ~~~v)
      ∧ Completes (.andi g d a i) 4 s (wi fun u v => u &&& v) ∧ Completes (.ori g d a i) 4 s (wi fun u v => u ||| v)
      ∧ Completes (.xori g d a i) 4 s (wi fun u v => u ^^^ v)
      ∧ Completes (.addi g d a i) 4 s (fun x => x.setR64 d (BitVec.ofInt 64 ((x.r64 a).toNat + i.toInt)))
      ∧ Completes (.lit g d l) 8 s (fun x => x.setReg d ⟨BitVec.ofInt 128 l.toInt, .data⟩))
  ∧ (∀ (s : State) (g : Guard) (d a : BitVec 5) (q w : BitVec 2) (l : W32), s.curTask.guardOk g = true →
      let u := s.curTask.r64 a
      (∃ v : W128, (∀ k < 128, v.getLsbD k = if k / 32 = q.toNat then l.getLsbD (k % 32) else (s.curTask.reg d).bits.getLsbD k)
        ∧ Completes (.lith g d q l) 8 s (fun x => x.setReg d ⟨v, .data⟩))
      ∧ (∃ n ≤ 64, (∀ k < 64, 64 - n ≤ k → u.getLsbD k = false) ∧ (n < 64 → u.getLsbD (63 - n) = true)
        ∧ Completes (.clz g d a) 4 s (fun x => x.setR64 d (BitVec.ofNat 64 n)))
      ∧ (∃ n ≤ 64, (∀ k < n, u.getLsbD k = false) ∧ (n < 64 → u.getLsbD n = true)
        ∧ Completes (.ctz g d a) 4 s (fun x => x.setR64 d (BitVec.ofNat 64 n)))
      ∧ Completes (.popc g d a) 4 s (fun x => x.setR64 d (BitVec.ofNat 64 ((List.range 64).countP u.getLsbD)))
      ∧ (∃ v : W64, (∀ k < 64, v.getLsbD k = u.getLsbD (63 - k)) ∧ Completes (.brev g d a) 4 s (fun x => x.setR64 d v))
      ∧ Completes (.sext g d a w) 4 s
          (fun x => x.setReg d ⟨BitVec.ofInt 128 ((x.r64 a).setWidth (8 * 2 ^ w.toNat)).toInt, .data⟩)
      ∧ Completes (.zext g d a w) 4 s
          (fun x => x.setReg d ⟨BitVec.ofNat 128 ((x.r64 a).toNat % 2 ^ (8 * 2 ^ w.toNat)), .data⟩))

/-- R124: the six conditions of CMP and CMPI write one predicate; p0 cannot be written (R24). R125, R126: predicate logic;
MOV and SEL copy 128 bits with the tag. -/
def Obligations.ComparesAndPredicates : Prop :=
  (∀ (s : State) (g : Guard) (p : BitVec 3) (a b : BitVec 5) (i : BitVec 11), s.curTask.guardOk g = true →
      let c (f : W64 → W64 → Bool) (x : Task) : Task := x.setPred p (f (x.r64 a) (x.r64 b))
      let ci (f : W64 → W64 → Bool) (x : Task) : Task := x.setPred p (f (x.r64 a) (BitVec.ofInt 64 i.toInt))
      let eq (u v : W64) : Bool := decide (u = v)
      let ne (u v : W64) : Bool := decide (u ≠ v)
      let lt (u v : W64) : Bool := decide (u.toInt < v.toInt)
      let le (u v : W64) : Bool := decide (u.toInt ≤ v.toInt)
      let ltu (u v : W64) : Bool := decide (u.toNat < v.toNat)
      let leu (u v : W64) : Bool := decide (u.toNat ≤ v.toNat)
      Completes (.cmp g p a b 0) 4 s (c eq) ∧ Completes (.cmp g p a b 1) 4 s (c ne) ∧ Completes (.cmp g p a b 2) 4 s (c lt)
      ∧ Completes (.cmp g p a b 3) 4 s (c le) ∧ Completes (.cmp g p a b 4) 4 s (c ltu) ∧ Completes (.cmp g p a b 5) 4 s (c leu)
      ∧ Completes (.cmpiEq g p a i) 4 s (ci eq) ∧ Completes (.cmpiNe g p a i) 4 s (ci ne)
      ∧ Completes (.cmpiLt g p a i) 4 s (ci lt) ∧ Completes (.cmpiLe g p a i) 4 s (ci le)
      ∧ Completes (.cmpiLtu g p a i) 4 s (ci ltu) ∧ Completes (.cmpiLeu g p a i) 4 s (ci leu))
  ∧ (∀ (s : State) (g : Guard) (p q r : BitVec 3) (b : BitVec 1) (d a e : BitVec 5), s.curTask.guardOk g = true →
      Completes (.pand g p q r) 4 s (fun x => x.setPred p (x.pred q && x.pred r))
      ∧ Completes (.por g p q r) 4 s (fun x => x.setPred p (x.pred q || x.pred r))
      ∧ Completes (.pxor g p q r) 4 s (fun x => x.setPred p (x.pred q != x.pred r))
      ∧ Completes (.pnot g p q) 4 s (fun x => x.setPred p (!x.pred q))
      ∧ Completes (.pset g p b) 4 s (fun x => x.setPred p (b.toNat = 1))
      ∧ Completes (.mov g d a) 4 s (fun x => x.setReg d (x.reg a))
      ∧ Completes (.sel g d a e p) 4 s (fun x => x.setReg d (if x.pred p then x.reg a else x.reg e)))

/-! Capabilities (R127 to R134) -/

/-- R130 to R132, R134: CADD moves the cursor and keeps the tag under R19 only, CGET reads a field, CCLR clears the tag, CTEST
tests tag and bounds; none of them traps. -/
def Obligations.CapabilityMovesReadsAndTests : Prop :=
  ∀ (s : State) (g : Guard) (d a b : BitVec 5) (p : BitVec 3), s.curTask.guardOk g = true →
    let c := s.curTask.reg a
    let n := s.curTask.r64 b
    let cap : Bool := c.tag = .mem || c.tag = .entry
    let get (k : Nat) (v : W128) : Prop := Completes (.cget g d a (BitVec.ofNat 5 k)) 4 s (fun x => x.setReg d ⟨v, .data⟩)
    (∃ v : GVal, v.bits.extractLsb' 64 64 = c.bits.extractLsb' 64 64 ∧ cursor v.bits = cursor c.bits + n
      ∧ v.tag = (if c.tag = .mem ∧ (capExp c.bits = 38 ∨ capExp c.bits < 38
          ∧ (cursor v.bits).toNat / 2 ^ (capExp c.bits + 26) = (cursor c.bits).toNat / 2 ^ (capExp c.bits + 26))
        then .mem else .data)
      ∧ Completes (.cadd g d a b) 4 s (fun x => x.setReg d v))
    ∧ get 0 ((cursor c.bits).setWidth 128)
    ∧ get 1 (if cap then BitVec.ofNat 128 (memBounds c.bits).1 else 0)
    ∧ get 2 (if cap then BitVec.ofNat 128 (memBounds c.bits).2 else 0)
    ∧ get 3 (if cap then BitVec.ofNat 128 ((memBounds c.bits).2 - (memBounds c.bits).1) else 0)
    ∧ get 4 (if c.tag = .data then 0 else (c.bits.extractLsb' 120 8).setWidth 128)
    ∧ get 5 (match c.tag with | .data => 0 | .mem => 1 | .endp => 2 | .entry => 3)
    ∧ Completes (.cclr g d a) 4 s (fun x => x.setReg d ⟨(x.reg a).bits, .data⟩)
    ∧ Completes (.ctest g p a b) 4 s (fun x => x.setPred p (decide (c.tag = .mem
        ∧ (memBounds c.bits).1 ≤ foldAddr (memBounds c.bits).2 (cursor c.bits).toNat
        ∧ foldAddr (memBounds c.bits).2 (cursor c.bits).toNat + n.toNat ≤ (memBounds c.bits).2)))

/-- R127 to R129: CSETB takes the smallest exponent that fits and never widens beyond the source; CRESTR only drops
permissions; an ENTRY source is copied as DATA; every other source traps CAP_TAG. R31, R133: CSEAL makes an ENTRY with EX,
hl, sv and the source's GLOBAL alone; its checks trap in order. -/
def Obligations.BoundsPermissionsAndSeals : Prop :=
  (∀ (s : State) (g : Guard) (d a b : BitVec 5), s.curTask.guardOk g = true →
      let c := s.curTask.reg a
      let n := (s.curTask.r64 b).toNat
      let q := foldAddr (memBounds c.bits).2 (cursor c.bits).toNat
      let lo (e : Nat) : Nat := q / 2 ^ e * 2 ^ e
      let hi (e : Nat) : Nat := (q + n + 2 ^ e - 1) / 2 ^ e * 2 ^ e
      let fits (e : Nat) : Prop := (hi e - lo e) / 2 ^ e < 2 ^ 24
        ∧ (n = 0 ∨ e = 38 ∨ lo e / 2 ^ (e + 26) = (hi e - 1) / 2 ^ (e + 26))
      let within (e : Nat) : Prop := (memBounds c.bits).1 ≤ lo e ∧ hi e ≤ (memBounds c.bits).2
      (c.tag = .mem → ∀ e ≤ 38, fits e → (∀ f < e, ¬ fits f) →
        (within e → Completes (.csetb g d a b) 4 s (fun x => x.setReg d
          ⟨capBits (capPerm c.bits) e (lo e / 2 ^ e) ((hi e - lo e) / 2 ^ e) (cursor c.bits), .mem⟩))
        ∧ (¬ within e → Traps (.csetb g d a b) s .capBounds (cursor c.bits)))
      ∧ (c.tag = .mem → (∀ e ≤ 38, ¬ fits e) → Traps (.csetb g d a b) s .capBounds (cursor c.bits))
      ∧ (c.tag = .mem → ∃ v : W128, v.extractLsb' 0 120 = c.bits.extractLsb' 0 120 ∧ v.getLsbD 127 = false
        ∧ (∀ k < 7, v.getLsbD (120 + k) = (c.bits.getLsbD (120 + k) && (s.curTask.r64 b).getLsbD k))
        ∧ Completes (.crestr g d a b) 4 s (fun x => x.setReg d ⟨v, .mem⟩))
      ∧ (c.tag = .entry → Completes (.csetb g d a b) 4 s (fun x => x.setReg d ⟨c.bits, .data⟩)
        ∧ Completes (.crestr g d a b) 4 s (fun x => x.setReg d ⟨c.bits, .data⟩))
      ∧ (c.tag = .endp ∨ c.tag = .data → Traps (.csetb g d a b) s .capTag (s.curTask.r64 a)
        ∧ Traps (.crestr g d a b) s .capTag (s.curTask.r64 a)))
  ∧ (∀ (s : State) (g : Guard) (d a : BitVec 5) (k : BitVec 2), s.curTask.guardOk g = true →
      let c := s.curTask.reg a
      let v := cursor c.bits
      let i : Instr := .cseal g d a k
      let sv : Bool := k.getLsbD 1
      let ok1 : Prop := sv = false ∨ s.curTask.sup.priv = true
      let ok3 : Prop := c.bits.getLsbD 122 = true
      let ok4 : Prop := v.toNat % 64 = 0
      let ok5 : Prop := (memBounds c.bits).1 + 64 ≤ v.toNat ∧ v.toNat + 4 ≤ (memBounds c.bits).2
      (¬ ok1 → Traps i s .priv (wordInfo i))
      ∧ (ok1 → c.tag ≠ .mem → Traps i s .capTag v)
      ∧ (ok1 → c.tag = .mem → ¬ ok3 → Traps i s .capPerm v)
      ∧ (ok1 → c.tag = .mem → ok3 → ¬ ok4 → Traps i s .align v)
      ∧ (ok1 → c.tag = .mem → ok3 → ok4 → ¬ ok5 → Traps i s .capBounds v)
      ∧ (ok1 → c.tag = .mem → ok3 → ok4 → ok5 → ∃ e : W128,
          e.extractLsb' 0 120 = c.bits.extractLsb' 0 120 ∧ e.getLsbD 120 = k.getLsbD 0 ∧ e.getLsbD 121 = sv
          ∧ e.extractLsb' 122 4 = 1 ∧ e.getLsbD 126 = c.bits.getLsbD 126 ∧ e.getLsbD 127 = false
          ∧ Completes i 4 s (fun x => x.setReg d ⟨e, .entry⟩)))

/-! Memory (R148 to R172) -/

/-- R148 to R150: the first checks of an access outside the plane windows, in order: tag, bounds, permission, window,
alignment; each traps with the address as its information word. R148, R149, R154, R155: in window W0 of the private alias an
access that passes the checks, with no range lock, watch entry or endpoint buffer in its way, reaches the core's own
scratchpad at the same offset, and translation is not asked. R151: control-register space takes 32-bit and 64-bit LD and ST
under a leaf with the supervisor bit: LD reads the register or its half, and a write acts once the instruction has retired.
Another size traps ALIGN, a leaf without the bit and an offset that no block assigns BUS_ERROR (the order of these tests is
log entry 28). -/
def Obligations.AccessChecksAndThePrivateAlias : Prop :=
  (∀ (s : State) (g : Guard) (d a : BitVec 5) (o : BitVec 8) (j : BitVec 11) (z : BitVec 3), s.curTask.guardOk g = true →
      let c := s.curTask.reg a
      let checks (i : Instr) (perm : Byte) (e : W64) (n : Nat) : Prop :=
        let q := foldAddr (memBounds c.bits).2 e.toNat
        let inside : Prop := (memBounds c.bits).1 ≤ q ∧ q + n ≤ (memBounds c.bits).2
        let may : Prop := capPerm c.bits &&& perm = perm
        let window : Prop := e.toNat < 0x1000000 → e.toNat < 0xC00000 ∧ e.toNat + n ≤ 0x80000
        planeWin e = none →
        (c.tag ≠ .mem → Traps i s .capTag e)
        ∧ (c.tag = .mem → ¬ inside → Traps i s .capBounds e)
        ∧ (c.tag = .mem → inside → ¬ may → Traps i s .capPerm e)
        ∧ (c.tag = .mem → inside → may → ¬ window → Traps i s .window e)
        ∧ (c.tag = .mem → inside → may → window → e.toNat % n ≠ 0 → Traps i s .align e)
      checks (.ld g d a o z) permLd (eaM c o (szBytes z)) (szBytes z)
      ∧ checks (.lda g d a o z) permLd (eaM c o (szBytes z)) (szBytes z)
      ∧ checks (.ldc g d a j) permLd (eaC c j) 16
      ∧ checks (.st g d a o z) permSt (eaM c o (szBytes z)) (szBytes z)
      ∧ checks (.stl g d a o z) permSt (eaM c o (szBytes z)) (szBytes z)
      ∧ ((s.curTask.reg d).tag = .data → checks (.stc g d a j) permSt (eaC c j) 16))
  ∧ (∀ (s : State) (c : GVal) (perm : Byte) (e : W64) (n : Nat) (u : Use),
      c.tag = .mem → capPerm c.bits &&& perm = perm → e.toNat + n ≤ 0x80000 → 0 < n → e.toNat % n = 0 →
      (memBounds c.bits).1 ≤ foldAddr (memBounds c.bits).2 e.toNat →
      foldAddr (memBounds c.bits).2 e.toNat + n ≤ (memBounds c.bits).2 →
      s.me.locks = [] → s.me.eps = [] → s.dbg.bp = [] →
      resolve s c perm e n n u false = .ok (s, .mem (spadPa s.cur + e.toNat)))
  ∧ (∀ (s s1 : State) (g : Guard) (d a : BitVec 5) (o : BitVec 8) (z : BitVec 3) (die off : Nat) (sup : Bool), s.curTask.guardOk g = true →
      let c := s.curTask.reg a
      let n := szBytes z
      let e := eaM c o n
      let v := (s.curTask.reg d).bits.toNat
      let word : Prop := n = 4 ∨ n = 8
      let old := ctlRead s1 die (off - off % 8)
      let part (w : W64) : Nat := if n = 8 then w.toNat else w.toNat / 2 ^ (8 * (off % 8)) % 2 ^ 32
      let ext (m : Nat) : W128 :=
        if z = 5 then BitVec.ofNat 128 (if 2 * m < 2 ^ 32 then m else 2 ^ 64 - (2 ^ 32 - m)) else BitVec.ofNat 128 m
      (resolve s c permLd e n n .load (elemSize z) = .ok (s1, .ctl die off sup) → planeWin e = none →
        (¬ word → Answers (.ld g d a o z) s (raise s1 s.curTid .align e false))
        ∧ (word → sup = false ∨ old = none → Answers (.ld g d a o z) s (raise s1 s.curTid .busError e false))
        ∧ ∀ w, word → sup = true → old = some w →
          AccessCompletes (.ld g d a o z) s (fun x => x.setReg d ⟨ext (part w), .data⟩) (MemorySame s))
      ∧ (resolve s c permSt e n n .store (elemSize z) = .ok (s1, .ctl die off sup) → planeWin e = none →
        (¬ word → Answers (.st g d a o z) s (raise s1 s.curTid .align e false))
        ∧ (word → sup = false ∨ old = none → Answers (.st g d a o z) s (raise s1 s.curTid .busError e false))
        ∧ (word → sup = true → old ≠ none → ∃ u x, Answers (.st g d a o z) s (ctlWrite u die off n (BitVec.ofNat 64 v))
          ∧ Accessed s u ∧ MemorySame s u ∧ Counted s.curTask x ∧ Retired 4 x (u.task s.curTid))))

/-- R73, R153, R154, R157, R356, R367: outside the plane windows LD and LDA put the bytes at the resolved place into g[rd],
as the path of the address sees them, sign-extended into 64 bits for the signed sizes and zero-extended into 128 bits
otherwise, as DATA; memory does not change. Over an uncorrectable codeword they trap MEM_UE. Where the task has no store of
its own between its two loop-back paths, the bytes are those in memory; which a path sees where it has is log entry 30
(DEDUCED). R68 to R73, R150, R153: in a plane window LD reads one bit of each plane of its element, and the scale of its
block where the format has one, and writes the value in the exchanged width, the rest of g[rd] zero and the tag DATA; FP32
and FP64 keep their bits. -/
def Obligations.LoadsExtendWhatMemoryHolds : Prop :=
  (∀ (s s1 : State) (g : Guard) (d a : BitVec 5) (o : BitVec 8) (z : BitVec 3) (pa : Nat), s.curTask.guardOk g = true →
      let c := s.curTask.reg a
      let n := szBytes z
      let e := eaM c o n
      let m := s.seenNat e pa n
      (s.loopMine = [] → m = s.readNat pa n)
      ∧ (planeWin e = none → resolve s c permLd e n n .load (elemSize z) = .ok (s1, .mem pa) →
        (Clean s pa n → AccessCompletes (.ld g d a o z) s (fun x => x.setReg d
          ⟨if z = 1 ∨ z = 3 ∨ z = 5 then
              BitVec.ofNat 128 (if 2 * m < 2 ^ (8 * n) then m else 2 ^ 64 - (2 ^ (8 * n) - m))
            else BitVec.ofNat 128 m, .data⟩) (MemorySame s))
        ∧ (¬ Clean s pa n → Answers (.ld g d a o z) s (raise (closeFrames s1 pa n) s.curTid .memUe e false)))
      ∧ (resolve s c permLd e n n .load false = .ok (s1, .mem pa) →
        (Clean s pa n → AccessCompletes (.lda g d a o z) s (fun x => x.setReg d ⟨BitVec.ofNat 128 m, .data⟩) (MemorySame s))
        ∧ (¬ Clean s pa n → Answers (.lda g d a o z) s (raise (closeFrames s1 pa n) s.curTid .memUe e false))))
  ∧ (∀ (s s1 : State) (g : Guard) (d a : BitVec 5) (o : BitVec 8) (z : BitVec 3) (pa k code : Nat), s.curTask.guardOk g = true →
      let c := s.curTask.reg a
      let n := szBytes z
      let e := eaM c o n
      let off := e.toNat % 0x100000
      let gr := off / (winOf k).slot * (winOf k).slot
      let el := off % (winOf k).slot / (winOf k).step
      let rd (i : Nat) : Byte := s.seenByte 0 (spadPa s.cur + (gr + i))
      let bit (p : Nat) : Bool := (rd (32 * p + el / 8)).getLsbD (el % 8)
      let f := winFmt k ((rd 304).getLsbD 0)
      let sig := (winOf k).sig
      let ints : Prop := k = 8 ∨ k = 9
      let scale : FVal := match k with
        | 5 => e3m5 (rd (160 + 2 * (el / 16) + el % 16 / 8)).toNat
        | 6 => e8m0 (rd (160 + el / 16)).toNat
        | 7 => e8m0 (rd (288 + el / 16)).toNat
        | _ => .fin false 1 0
      let v := if k = 5 ∨ k = 6 ∨ k = 7 then (fmul (fdecode f code) scale).1 else fdecode f code
      let inf : Bool := match v with | .inf _ => true | _ => false
      let r := fconv fp32 (s.curTask.sat && !inf) .rne v
      let res : Nat × Flags :=
        if ints then (if 2 * code < 2 ^ sig then code else code + 2 ^ 32 - 2 ^ sig, 0)
        else if k = 10 ∨ k = 11 then (code, 0) else (r.1, r.2 ||| sigFlag (fdecode f code))
      let bad : Bool := (elemBytes k el).any fun i => s.badByte (spadPa s.cur + gr + i)
      planeWin e = some k → resolve s c permLd e n n .load (elemSize z) = .ok (s1, .mem pa) →
      (ints → code < 2 ^ sig ∧ ∀ p < sig, code.testBit (sig - 1 - p) = bit p) →
      (¬ ints → code < 2 ^ (1 + f.ebits + f.fbits) ∧ (∀ p ≤ f.ebits, code.testBit (f.fbits + f.ebits - p) = bit p)
        ∧ ∀ p < f.fbits, code.testBit (f.fbits - 1 - p) = bit (2 + f.ebits + p)) →
      (bad = false → AccessCompletes (.ld g d a o z) s
        (fun x => (x.addFlags res.2).setReg d ⟨BitVec.ofNat 128 res.1, .data⟩) (MemorySame s))
      ∧ (bad = true → Answers (.ld g d a o z) s
        (raise (closeFrames s1 (spadPa s.cur + off) 1) s.curTid .memUe e false)))

/-- R47, R155, R157: ST, and STL once the task's writes are acknowledged and its sends gone, write the low bytes of g[rd],
little-endian, and nothing else; the granules they overlap lose their tags. Neither orders the two loop-back paths: a byte
that comes to lie under a store of the other path keeps what memory holds (R367; log entry 30, DEDUCED). R55, R67 to R73,
R150: in a plane window ST converts the low bits of g[rd] to the element's format, over the scale its granule holds, and
writes one bit of each plane, the leading plane from the exponent; no other bit of memory changes, and the granules of those
bits lose their tags. A store that comes to lie under one of the task's global path leaves those bits and tags as memory has
them (R367; log entry 30, DEDUCED). -/
def Obligations.StoresWriteTheLowBytes : Prop :=
  (∀ (s s1 : State) (g : Guard) (d a : BitVec 5) (o : BitVec 8) (z : BitVec 3) (pa : Nat), s.curTask.guardOk g = true →
      let c := s.curTask.reg a
      let n := szBytes z
      let e := eaM c o n
      let bs := leBytes n (s.curTask.reg d).bits.toNat
      let stored (t : State) : Prop := Stored s t e pa bs .data
      (planeWin e = none → resolve s c permSt e n n .store (elemSize z) = .ok (s1, .mem pa) →
        AccessCompletes (.st g d a o z) s owing stored)
      ∧ (resolve s c permSt e n n .store false = .ok (s1, .mem pa) → s.curTask.acked false = true → s.sendsGone = true →
        AccessCompletes (.stl g d a o z) s owing stored))
  ∧ (∀ (s s1 : State) (g : Guard) (d a : BitVec 5) (o : BitVec 8) (z : BitVec 3) (pa k : Nat), s.curTask.guardOk g = true →
      let c := s.curTask.reg a
      let n := szBytes z
      let e := eaM c o n
      let off := e.toNat % 0x100000
      let gr := off / (winOf k).slot * (winOf k).slot
      let el := off % (winOf k).slot / (winOf k).step
      let rd (i : Nat) : Byte := s.foundByte 0 (spadPa s.cur + i)
      let f := winFmt k (mx8Type rd gr)
      let sig := (winOf k).sig
      let ints : Bool := k = 8 || k = 9
      let v := (s.curTask.reg d).bits.toNat % 2 ^ (8 * n)
      let i32 : Int := if 2 * v < 2 ^ 32 then v else (v : Int) - 2 ^ 32
      let div := storeScale rd k gr el
      let res : Nat × Flags :=
        if ints then roundIntFmt sig .rne (decide (i32 < 0)) i32.natAbs 1 0
        else if k = 10 ∨ k = 11 then (v, 0)
        else convScaled f s.curTask.sat .rne div.1 div.2 (fdecode fp32 v)
      let planes := if ints then sig else 2 + f.ebits + f.fbits
      let bit (p : Nat) : Bool :=
        if ints then res.1.testBit (sig - 1 - p)
        else if p ≤ f.ebits then res.1.testBit (f.fbits + f.ebits - p)
        else if p = 1 + f.ebits then decide (res.1 / 2 ^ f.fbits % 2 ^ f.ebits ≠ 0)
        else res.1.testBit (f.fbits - 1 - (p - 2 - f.ebits))
      let at_ (p : Nat) : Nat := spadPa s.cur + gr + 32 * p + el / 8
      Loopless s 0
      ∧ (planeWin e = some k → resolve s c permSt e n n .store (elemSize z) = .ok (s1, .mem pa) →
        AccessCompletes (.st g d a o z) s (fun x => owing (x.addFlags res.2)) fun t =>
          (∀ p < planes, s.under 0 (at_ p) = false → (t.byte (at_ p)).getLsbD (el % 8) = bit p)
          ∧ (∀ i b, s.under 0 i = true ∨ (∀ p < planes, i = at_ p → b ≠ el % 8) → (t.byte i).getLsbD b = (s.byte i).getLsbD b)
          ∧ (∀ i, s.tagUnder 0 i = false → (∃ p < planes, at_ p / 16 = i / 16) → t.tagAt i = .data)
          ∧ ∀ i, s.tagUnder 0 i = true ∨ (∀ p < planes, at_ p / 16 ≠ i / 16) → t.tagAt i = s.tagAt i))

/-- R46, R48, R156: where the task has no store of its own between its two loop-back paths, LDC reads the 16 bytes in memory with
their tag, DATA without LDCAP, and else those that the address's path sees (R367; log entry 30, DEDUCED); STC writes 16 bytes and their
tag in one step, behind the stores of the other path that it does not overtake (the same entry); a capability needs STCAP, and a
task-local one may leave the core by no store. -/
def Obligations.CapabilitiesInMemoryKeepTheirTag : Prop :=
  ∀ (s s1 : State) (g : Guard) (d a : BitVec 5) (j : BitVec 11) (pa : Nat), s.curTask.guardOk g = true →
    let c := s.curTask.reg a
    let v := s.curTask.reg d
    let e := eaC c j
    let allowed : Prop := v.tag = .data
      ∨ (capPerm c.bits &&& permStcap ≠ 0 ∧ (isGlobal v = true ∨ e.toNat < 0x1000000) ∧ planeWin e = none)
    (s.loopMine = [] → s.seenNat e pa 16 = s.readNat pa 16 ∧ s.seenTag e pa = s.tagAt pa)
    ∧ (resolve s c permLd e 16 16 .load false = .ok (s1, .mem pa) → Clean s pa 16 →
      AccessCompletes (.ldc g d a j) s (fun x => x.setReg d
        ⟨BitVec.ofNat 128 (s.seenNat e pa 16), if capPerm c.bits &&& permLdcap = 0 then .data else s.seenTag e pa⟩) (MemorySame s))
    ∧ (resolve s c permSt e 16 16 .store false = .ok (s1, .mem pa) → allowed →
      AccessCompletes (.stc g d a j) s owing
        (fun t => WroteVia s t e pa (leBytes 16 v.bits.toNat)
          ∧ (s.loopMine = [] → Wrote s t pa (leBytes 16 v.bits.toNat) ∧ t.tagAt pa = v.tag)
          ∧ t.tagAt pa = (if s.tagUnder e pa then s.tagAt pa else v.tag)
          ∧ ∀ b, b / 16 ≠ pa / 16 → pa % 16 = 0 → t.tagAt b = s.tagAt b))
    ∧ (capCheck c permSt e 16 = none → planeWin e = none → ¬ allowed → Traps (.stc g d a j) s .capPerm e)

/-- R47, R153, R161 to R164, R356: AMO writes the result of its operation over the width, each floating-point sum rounded
once with its flags, and returns the old value; CAS writes g[rb] only when memory holds the low bytes of g[rd]. Over an
uncorrectable codeword nothing is written: with rd = g0 the instruction completes and its core has the error to report, else
it traps. Where the task has no store of its own between its two loop-back paths, both read and write memory itself; where
it has, they stand in the order of their own path (log entry 30, DEDUCED). R47, R153, R165 to R167: once every destination
has passed its checks, STM writes its value and STRED applies its operation at each, in the order of the descriptor, the
tags cleared; a STRED destination in an uncorrectable codeword is left alone and its error is to be reported. If a check
stops either, memory is as before where the stop takes it, so no destination was written. A destination in the core's own
scratchpad is written in the order of its path (R367; log entry 30, DEDUCED). -/
def Obligations.AtomicsAndMultiDestinationStores : Prop :=
  (∀ (s s1 : State) (g : Guard) (d a b : BitVec 5) (w : BitVec 2) (op : BitVec 4) (pa : Nat), s.curTask.guardOk g = true →
      let c := s.curTask.reg a
      let e := cursor c.bits
      let n := if w = 0 then 4 else if w = 1 then 8 else 16
      let m := s.foundNat e pa n
      let v := (s.curTask.reg b).bits.toNat % 2 ^ (8 * n)
      let signed (k : Nat) : Int := if 2 * k < 2 ^ (8 * n) then k else (k : Int) - 2 ^ (8 * n)
      let sum (f : Fmt) (i j : Nat) : Nat × Flags :=
        let z := fadd (fdecode f i) (fdecode f j)
        ((fconv f false .rne z.1).1, z.2 ||| (fconv f false .rne z.1).2)
      let lane (k i : Nat) : Nat := i / 2 ^ (16 * k) % 2 ^ 16
      let new : Nat × Flags := match op.toNat with
        | 0 => ((m + v) % 2 ^ (8 * n), 0) | 1 => (Nat.land m v, 0) | 2 => (Nat.lor m v, 0) | 3 => (Nat.xor m v, 0)
        | 4 => (if signed m ≤ signed v then m else v, 0) | 5 => (if signed m ≤ signed v then v else m, 0)
        | 6 => (min m v, 0) | 7 => (max m v, 0) | 8 => (v, 0) | 9 => sum fp32 m v
        | _ =>
          let lo := sum bf16 (lane 0 m) (lane 0 v)
          let hi := sum bf16 (lane 1 m) (lane 1 v)
          (lo.1 + hi.1 * 2 ^ 16, lo.2 ||| hi.2)
      let old (fl : Flags) (x : Task) : Task := (owing (x.addFlags fl)).setReg d ⟨BitVec.ofNat 128 m, .data⟩
      let faulty (i : Instr) : Prop :=
        (d = 0 → CompletesFrom (posting s e) i 4 s id (MemorySame s))
        ∧ (d ≠ 0 → Answers i s (raise (closeFrames s1 pa n) s.curTid .memUe e false))
      (s.loopMine = [] → m = s.readNat pa n) ∧
      (resolve s c permAtom e n n .atomic false = .ok (s1, .mem pa) →
      (op.toNat ≤ 8 ∨ (op.toNat ≤ 10 ∧ w = 0) → Clean s pa n →
        AccessCompletes (.amo g d a b w op) s (old new.2) (fun t => Stored s t e pa (leBytes n new.1) .data))
      ∧ (Clean s pa n → (s.curTask.reg d).bits.toNat % 2 ^ (8 * n) = m →
        AccessCompletes (.cas g d a b w) s (old 0) (fun t => Stored s t e pa (leBytes n v) .data))
      ∧ (Clean s pa n → (s.curTask.reg d).bits.toNat % 2 ^ (8 * n) ≠ m →
        AccessCompletes (.cas g d a b w) s (old 0) (MemorySame s))
      ∧ (¬ Clean s pa n → faulty (.amo g d a b w op) ∧ faulty (.cas g d a b w))))
  ∧ (∀ (s s1 : State) (g : Guard) (d a b : BitVec 5) (z op : BitVec 3) (pas : List Nat), s.curTask.guardOk g = true →
      let c := s.curTask.reg a
      let n := szBytes z
      let desc := s.curTask.r64 b
      let ds := (List.range ((desc.extractLsb' 0 6).toNat + 1)).map fun (k : Nat) =>
        cursor c.bits + BitVec.ofInt 64 (k * (desc.extractLsb' 16 48).toInt)
      let v := (s.curTask.reg d).bits.toNat % 2 ^ (8 * n)
      let signed (k : Nat) : Int := if 2 * k < 2 ^ (8 * n) then k else (k : Int) - 2 ^ (8 * n)
      let new (m : Nat) : Nat × Flags := match op.toNat with
        | 0 => ((m + v) % 2 ^ (8 * n), 0)
        | 1 =>
          let y := fadd (fdecode fp32 m) (fdecode fp32 v)
          ((fconv fp32 false .rne y.1).1, y.2 ||| (fconv fp32 false .rne y.1).2)
        | 2 => (if signed m ≤ signed v then m else v, 0) | 3 => (if signed m ≤ signed v then v else m, 0)
        | 4 => (min m v, 0) | _ => (max m v, 0)
      let one (r : State × Task) (p : W64 × Nat) : State × Task :=
        if (r.1.firstBad p.2 n).isSome then (posting r.1 p.1, r.2)
        else
          let m := r.1.foundNat p.1 p.2 n
          (r.1.store p.1 p.2 (leBytes n (new m).1), owing (r.2.addFlags (new m).2))
      let all := (ds.zip pas).foldl one (s, s.curTask)
      let stored := (ds.zip pas).foldl (fun s (p : W64 × Nat) => s.store p.1 p.2 (leBytes n v)) s
      let outside : Prop := ∀ pa ∈ pas, ∀ k < n, ownOffset s (pa + k) = none
      (ds.length = pas.length → outside → stored = pas.foldl (fun s pa => s.write pa (leBytes n v)) s)
      ∧ (∀ r p, (∀ k < n, ownOffset r (p.2 + k) = none) → (r.firstBad p.2 n).isSome = false →
        ∀ x, (one (r, x) p).1 = r.write p.2 (leBytes n (new (r.readNat p.2 n)).1))
      ∧ (checkMulti s c permSt n .store ds = .ok (s1, pas) →
        AccessCompletes (.stm g d a b z) s (fun x => { x with unacked := x.unacked ++ pas.map fun _ => ⟨4⟩ }) (MemorySame stored))
      ∧ (checkMulti s c permAtom n .atomic ds = .ok (s1, pas) →
        CompletesFrom all.1 (.stred g d a b op z) 4 s
          (fun x => { x with unacked := all.2.unacked, fflags := all.2.fflags }) (MemorySame all.1))
      ∧ (∀ st, checkMulti s c permSt n .store ds = .error st → StopsUnwritten (.stm g d a b z) s st)
      ∧ (∀ st, checkMulti s c permAtom n .atomic ds = .error st → StopsUnwritten (.stred g d a b op z) s st))

/-- R158 to R160, R348, R349, R367: FENCE of scope 0 completes once the task's vector loads have returned, a wider one once besides that its
writes of its scope are acknowledged and its sends gone, and before that the task stays at it. FENCE.LB completes: memory is as
before, and after it both loop-back paths see every byte and tag as memory holds them. PF completes and writes no register
and no byte; where it acts on a page that is not resident it leaves one fault entry, which parks no task. -/
def Obligations.FencesWaitAndPrefetchNeverTraps : Prop :=
  ∀ (s : State) (g : Guard) (sc a : BitVec 5) (h : BitVec 2) (j : BitVec 11), s.curTask.guardOk g = true →
    let loads : Prop := ∀ e ∈ s.me.vecq, e.task ≠ s.curTid
    let quiet : Prop := s.curTask.acked (decide (sc = 5)) = true ∧ s.sendsGone = true
    let x := s.curTask
    let c := x.reg a
    let e := eaI c j
    let k := clusterOf s.cur
    let y := s.cluster k
    let acts : Prop := c.tag = .mem ∧ (memBounds c.bits).1 ≤ e.toNat ∧ e.toNat < (memBounds c.bits).2 ∧ 0x1000000 ≤ e.toNat
      ∧ e.toNat < 2 ^ 52 ∧ pfLocked s e = false
    let found := (s.lookup ⟨if h = 0 ∨ h = 3 then some (s.cur, false) else none, some k, dieOf s.cur⟩ x.asid e.toNat).found
    let posts (n lv : Nat) : Prop := acts ∧ 2 ≤ h.toNat ∧ found = .fault 0 lv ∧ freeEntry y = some n ∧ y.pend.length < 16
      ∧ ∀ p ∈ y.pend, ¬ (p.asid = x.asid ∧ p.vpn = e.extractLsb' 16 36)
    ((sc = 0 ∧ loads) ∨ quiet → Completes (.fence g sc) 4 s id)
    ∧ (sc = 0 → ¬ loads → Answers (.fence g sc) s s)
    ∧ (sc ≠ 0 → ¬ quiet → Answers (.fence g sc) s s)
    ∧ (Does (.fenceLb g) s fun t =>
      t = { s with tasks := t.tasks, cores := t.cores }
      ∧ (∀ u, u ≠ s.curTid → t.task u = s.task u) ∧ (∀ i, i ≠ s.cur → t.core i = s.core i)
      ∧ t.core s.cur = { s.me with loop := s.me.loop.filter fun p => p.task ≠ s.curTid }
      ∧ (∀ e pa, t.seenByte e pa = s.byte pa ∧ t.seenTag e pa = s.tagAt pa) ∧ Retired 4 x (t.task s.curTid))
    ∧ ((∀ n lv, ¬ posts n lv) → AccessCompletes (.pf g h a j) s id (MemorySame s))
    ∧ ∀ n lv, posts n lv → ∃ u,
        Accessed (s.onCluster k fun y =>
          let p : PendEntry := ⟨x.asid, e.extractLsb' 16 36, 0, BitVec.ofNat 2 (lv - 1), 0, 0, 0, true, some n⟩
          { y with pend := y.pend ++ [p], fb := sset .free y.fb n ⟨p.low, 0, true⟩ }) u
        ∧ MemorySame s u ∧ u.task s.curTid = x
        ∧ Answers (.pf g h a j) s (retireOf (notify u y.fbNotify) s.curTid 4)
        ∧ (y.fbNotify.getLsbD 16 = false → CompletesFrom u (.pf g h a j) 4 s id (MemorySame s))

/-- R28, R168, R170, R172: CNT.SET and CNT.ADD update the slot the task's number names, and test it: at a target that is not
zero the count restarts and the phase flips, else the count stands; CNT.WAIT passes when the count has reached its value and
otherwise the task waits; a number the header does not reserve traps BARRIER_ID. R170, R171: BAR.ARR records the phase and
counts one arrival, at once when none of its task's sends waits, else in its turn behind them; BAR.SYNC arrives the same way
and then waits, once. An arrival that reaches the target restarts the count, flips the phase and releases every task of the
core that waits on the slot; the BAR.SYNC that makes it completes, another waits. BAR.WAIT ends at a phase other than the
recorded one, at once if it is already; a BAR.SYNC that has arrived, at this trap level, waits the same way, also where a
trap was taken in its wait (log entry 31). -/
def Obligations.CounterSlotsAndBarriers : Prop :=
  (∀ (s : State) (g : Guard) (a : BitVec 5) (n : BitVec 4) (k : Nat), s.curTask.guardOk g = true →
      let c := s.me.counter k
      let v : W32 := (s.curTask.r64 a).setWidth 32
      let tgt : W32 := (s.curTask.r64 a).extractLsb' 32 32
      let shows (i : Instr) (count target : W32) : Prop := ∃ t, exec i s = .next t
        ∧ ((t.core s.cur).counter k).target = target
        ∧ ((t.core s.cur).counter k).count = (if target ≠ 0 ∧ count = target then 0 else count)
        ∧ ((t.core s.cur).counter k).phase = (if target ≠ 0 ∧ count = target then !c.phase else c.phase)
        ∧ ∀ j, j ≠ k → (t.core s.cur).counter j = s.me.counter j
      (s.curTask.barriers ≤ n.toNat →
        Traps (.cntSet g a n) s .barrierId (n.setWidth 64) ∧ Traps (.cntAdd g a n) s .barrierId (n.setWidth 64)
        ∧ Traps (.cntWait g a n) s .barrierId (n.setWidth 64) ∧ Traps (.barArr g n) s .barrierId (n.setWidth 64)
        ∧ Traps (.barWait g n) s .barrierId (n.setWidth 64) ∧ Traps (.barSync g n) s .barrierId (n.setWidth 64))
      ∧ (n.toNat < s.curTask.barriers → physSlot s.me s.curTask.job n.toNat = some k → c.trig = none →
        shows (.cntSet g a n) v tgt ∧ shows (.cntAdd g a n) (c.count + v) c.target
        ∧ ((c.count - v).toNat < 2 ^ 31 → Completes (.cntWait g a n) 4 s id)
        ∧ (2 ^ 31 ≤ (c.count - v).toNat → Answers (.cntWait g a n) s (block s (.count k v)))))
  ∧ (∀ (s : State) (g : Guard) (n : BitVec 4) (k : Nat), s.curTask.guardOk g = true →
      n.toNat < s.curTask.barriers → physSlot s.me s.curTask.job n.toNat = some k →
      let c := s.me.counter k
      let x := s.curTask
      let own : Prop := ∃ e ∈ s.me.sendq, e.task = s.curTid
      let due : Prop := ∃ e ∈ s.me.sendq, e.task = s.curTid ∧ ∃ i, e.arrive = some (i, k)
      let synced : Prop := (x.pc, x.trapLevel) ∈ x.barSync
      let full : Prop := c.target ≠ 0 ∧ c.count + 1 = c.target
      let left (x : Task) : Task := { x with
        arrived := x.arrived &&& ~~~(1#16 <<< n.toNat), barWait := false, barSync := x.barSync.filter (fun e => e ≠ (x.pc, x.trapLevel)), released := false }
      let counted (t : State) : Prop :=
        ((t.core s.cur).counter k).target = c.target
        ∧ (full → ((t.core s.cur).counter k).count = 0 ∧ ((t.core s.cur).counter k).phase = !c.phase)
        ∧ (¬ full → ((t.core s.cur).counter k).count = c.count + 1 ∧ ((t.core s.cur).counter k).phase = c.phase)
        ∧ (∀ j, j ≠ k → (t.core s.cur).counter j = s.me.counter j)
        ∧ ∀ u, u ≠ s.curTid → (s.task u).gtid = u → (s.task u).core = s.cur → (s.task u).status = .waitMsg →
          (s.task u).wait = some (.counter k) → (full → (t.task u).released = true ∧ (t.task u).wait = none)
          ∧ (¬ full → (∀ p ∈ s.tasks, p.2.gtid = u → p.2 = s.task u) → (t.task u).wait = some (.counter k))
      let queued (t : State) : Prop :=
        (∃ e, (t.core s.cur).sendq = s.me.sendq ++ [e] ∧ e.task = s.curTid ∧ e.arrive = some (n.toNat, k))
        ∧ ∀ j, (t.core s.cur).counter j = s.me.counter j
      let noted (y : Task) : Prop := y.arrived = x.arrived ||| (1#16 <<< n.toNat) ∧ y.rec_.getLsbD n.toNat = c.phase
      let quiet : Prop := ∀ p ∈ s.tasks, p.2.wait ≠ some (.counter k) ∧ ∀ v, p.2.wait ≠ some (.count k v)
      (x.core = s.cur → ¬ own →
        (Does (.barArr g n) s fun t => counted t ∧ noted (t.task s.curTid)
          ∧ (atLoopEnd x = false → (t.task s.curTid).pcc = moveCursor x.pcc (x.pc + 4)))
        ∧ (c.trig = none → quiet → Does (.barArr g n) s fun t =>
          Retired 4 ({ x.recordPhase n.toNat c.phase with arrived := x.arrived ||| (1#16 <<< n.toNat) }) (t.task s.curTid))
        ∧ (¬ synced → x.released = false → Does (.barSync g n) s fun t => counted t
          ∧ (full → (t.task s.curTid).arrived = x.arrived &&& ~~~(1#16 <<< n.toNat)
            ∧ (atLoopEnd x = false → (t.task s.curTid).pcc = moveCursor x.pcc (x.pc + 4)))
          ∧ (¬ full → noted (t.task s.curTid) ∧ (t.task s.curTid).pcc = x.pcc ∧ (t.task s.curTid).status = .waitMsg
            ∧ (t.task s.curTid).wait = some (.counter k) ∧ (x.pc, x.trapLevel) ∈ (t.task s.curTid).barSync)))
      ∧ (own → (Does (.barArr g n) s fun t => queued t ∧ Retired 4 x (t.task s.curTid))
        ∧ (¬ due → ¬ synced → x.core = s.cur → Does (.barSync g n) s fun t => queued t ∧ (t.task s.curTid).pcc = x.pcc
          ∧ (t.task s.curTid).status = .waitMsg ∧ (t.task s.curTid).wait = some (.arrival k)))
      ∧ (due → Answers (.barWait g n) s (block s (.arrival k)) ∧ Answers (.barSync g n) s (block s (.arrival k)))
      ∧ (¬ due → x.arrived.getLsbD n.toNat = true → x.rec_.getLsbD n.toNat ≠ c.phase ∨ x.released = true →
        Completes (.barWait g n) 4 s left ∧ (synced → Completes (.barSync g n) 4 s left))
      ∧ (¬ due → x.arrived.getLsbD n.toNat = true → x.rec_.getLsbD n.toNat = c.phase → x.released = false →
        ∃ t, exec (.barWait g n) s = .next t ∧ (t.task s.curTid).status = .waitMsg ∧ (t.task s.curTid).pcc = x.pcc))

/-! Control (R94, R114, R135 to R145) -/

/-- R114: an instruction whose guard does not hold only retires, the loop-end test included, whatever it is. R143 to R145,
R147, R326, R430: END hands a tower's members back, stays until the task has drained, then the task is gone and its job's
count is lower; a pinned one beyond the fall capacity traps with site 2, and one whose slots all close in order waits for
the first of them (log entry 31, DEDUCED). YIELD passes the slot to the base-level task that has been ready longest, and is
a NOP in a handler, in a tower and with none ready; SAFEPT is a NOP without a pre-emption, and with one hands the members
back and waits as END does. -/
def Obligations.GuardsEndYieldAndSafepoint : Prop :=
  (∀ (i : Instr) (s : State) (w : W32) (l : List W32), encode i = w :: l → s.curTask.guardOk (guardOf w) = false →
      Completes i (4 * (1 + l.length)) s id)
  ∧ (∀ (s : State) (g : Guard) (vm : BitVec 16) (am : BitVec 4) (gm : BitVec 32), s.curTask.guardOk g = true →
      let t := s.curTid
      let x := s.curTask
      let single : Prop := x.tower = [] ∧ x.composeTill = none
      let back := dissolveTower s t
      let alone : Prop := single ∧ x.binder = none ∧ x.replyTo = none ∧ slotsOf (s.core x.core) t = []
        ∧ ∀ p ∈ s.tasks, p.2.status ≠ .waitMsg
      Completes (.nop g) 4 s id
      ∧ (single → back = s)
      ∧ (endExcess s t ≠ 0 → Traps (.endTask g) s .rampViolation (BitVec.ofNat 64 (2 + 2 ^ 32 * ((endExcess s t + 3) / 4))))
      ∧ (endExcess s t = 0 → drained back t = false → Answers (.endTask g) s back)
      ∧ (∀ n l, endExcess s t = 0 → single → drained s t = true → closingSlots s t = n :: l → slotsOf (s.core x.core) t = n :: l →
        Answers (.endTask g) s (blockTask s t (.chan n)))
      ∧ (drained s t = true → endExcess s t = 0 → alone →
        Does (.endTask g) s fun u => u.task t = Task.none ∧ (u.job x.job).count = (s.job x.job).count - 1)
      ∧ (x.high = true ∨ x.tower ≠ [] ∨ s.me.readyBase = [] → Completes (.yield g) 4 s id)
      ∧ (∀ h l, x.high = false → x.tower = [] → x.core = s.cur → s.me.slotHigh = none → s.me.readyHigh = [] →
        s.me.suspBy = none → s.me.towerOf = none → s.me.slotBase = some t → s.me.readyBase = h :: l → t ∉ h :: l → h ∉ l →
        Does (.yield g) s fun u => (u.core s.cur).slotBase = some h ∧ (u.core s.cur).readyBase = l ++ [t]
          ∧ (u.task t).status = .ready ∧ (u.task h).status = .running ∧ (u.task h).since = s.timebase
          ∧ ∃ y, Retired 4 x y ∧ u.task t = { y with status := .ready, wait := none })
      ∧ (x.high = true ∨ x.preempt = none → Completes (.safept g vm am gm) 8 s id)
      ∧ (x.high = false → x.preempt ≠ none → drained back t = false → Answers (.safept g vm am gm) s back)
      ∧ (x.high = false → x.preempt ≠ none → drained back t = true → holdsSlot back t = true →
        Answers (.safept g vm am gm) s (finishPreempt (stopInPlace (retireOf back t 8) t) x.job))
      ∧ (x.high = false → x.preempt ≠ none → drained back t = true → holdsSlot back t = false →
        Answers (.safept g vm am gm) s (safeSave back t (vm, am, gm))))

/-- R94, R135 to R138, R140: BR, CALL and JR set the pc and make no loop-end test; CALL and JR link the next address; JR
checks tag, EX and alignment in order; LOOP and LOOPI arm a counter, and a count of zero skips the body, whose last word is
taken to have no literal where no fetch can read it (log entry 20, DEDUCED). R26, R139, R140: the loop-end test of an
instruction that retires at LE, guarded off or not: lc1 first, lc0 only when lc1 falls through or is zero; a count above 1
goes back to LB, a count of 1 ends; a LOOPI index advances either way. -/
def Obligations.BranchesCallsAndLoops : Prop :=
  (∀ (s : State) (g : Guard) (x : BitVec 21) (d a : BitVec 5) (step : BitVec 11) (n : BitVec 1) (dist : BitVec 20),
      s.curTask.guardOk g = true →
      let pc := s.curTask.pc
      let pcc := s.curTask.pcc
      let link := moveCursor pcc (pc + 4)
      let target := moveCursor pcc (BitVec.ofInt 64 (pc.toNat + 4 * x.toInt))
      let t := s.curTask.reg a
      let c := cursor t.bits
      let ex : Prop := capPerm t.bits &&& permEx ≠ 0
      let count : W32 := (s.curTask.r64 a).setWidth 32
      let le := pc + 8 + BitVec.ofNat 64 (4 * dist.toNat)
      let arm (l : LoopRegs) (x : Task) : Task := if n = 0 then { x with l0 := l } else { x with l1 := l }
      Transfers (.br g x) s id target
      ∧ Transfers (.call g x) s (fun x => x.setReg 31 link) target
      ∧ (t.tag = .mem → ex → c.toNat % 4 = 0 → Transfers (.jr g d a) s (fun x => x.setReg d link) t)
      ∧ (t.tag ≠ .mem → Traps (.jr g d a) s .capTag c)
      ∧ (t.tag = .mem → ¬ ex → Traps (.jr g d a) s .capPerm c)
      ∧ (t.tag = .mem → ex → c.toNat % 4 ≠ 0 → Traps (.jr g d a) s .align c)
      ∧ (count ≠ 0 → Completes (.loop g a n dist) 8 s (arm ⟨count, pc + 8, le, false, 0, 0⟩)
        ∧ Completes (.loopi g d a step n dist) 8 s (arm ⟨count, pc + 8, le, true, d, step⟩))
      ∧ (count = 0 → ∀ v, v = (match peekWord s le with | some w => if hasLiteral w then le + 8 else le + 4 | none => le + 4) →
        Transfers (.loop g a n dist) s id (moveCursor pcc v) ∧ Transfers (.loopi g d a step n dist) s id (moveCursor pcc v)))
  ∧ (∀ (s : State) (g : Guard),
      let x := s.curTask
      let at_ (l : LoopRegs) : Prop := l.lc ≠ 0 ∧ l.le = x.pc
      let bumped (l : LoopRegs) (r : BitVec 5) (v : GVal) : GVal :=
        if l.isIdx = true ∧ r = l.idx ∧ r ≠ 0 then
          ⟨BitVec.ofNat 128 ((v.bits.extractLsb' 0 64 + BitVec.ofInt 64 l.step.toInt).toNat), .data⟩
        else v
      Does (.nop g) s fun t =>
        let y := t.task s.curTid
        OnlyTask s t
        ∧ (at_ x.l1 → 1 < x.l1.lc.toNat → y.l1 = { x.l1 with lc := x.l1.lc - 1 } ∧ y.l0 = x.l0 ∧ y.pcc = moveCursor x.pcc x.l1.lb
          ∧ ∀ r, y.reg r = bumped x.l1 r (x.reg r))
        ∧ (at_ x.l1 → x.l1.lc = 1 → ¬ at_ x.l0 → y.l1 = { x.l1 with lc := 0 } ∧ y.l0 = x.l0
          ∧ y.pcc = moveCursor x.pcc (x.pc + 4) ∧ ∀ r, y.reg r = bumped x.l1 r (x.reg r))
        ∧ (¬ at_ x.l1 → at_ x.l0 → 1 < x.l0.lc.toNat → y.l1 = x.l1 ∧ y.l0 = { x.l0 with lc := x.l0.lc - 1 }
          ∧ y.pcc = moveCursor x.pcc x.l0.lb ∧ ∀ r, y.reg r = bumped x.l0 r (x.reg r))
        ∧ (¬ at_ x.l1 → at_ x.l0 → x.l0.lc = 1 → y.l1 = x.l1 ∧ y.l0 = { x.l0 with lc := 0 }
          ∧ y.pcc = moveCursor x.pcc (x.pc + 4) ∧ ∀ r, y.reg r = bumped x.l0 r (x.reg r))
        ∧ (at_ x.l1 → x.l1.lc = 1 → at_ x.l0 → 1 < x.l0.lc.toNat → y.l1 = { x.l1 with lc := 0 }
          ∧ y.l0 = { x.l0 with lc := x.l0.lc - 1 } ∧ y.pcc = moveCursor x.pcc x.l0.lb
          ∧ ∀ r, y.reg r = bumped x.l0 r (bumped x.l1 r (x.reg r)))
        ∧ (at_ x.l1 → x.l1.lc = 1 → at_ x.l0 → x.l0.lc = 1 → y.l1 = { x.l1 with lc := 0 } ∧ y.l0 = { x.l0 with lc := 0 }
          ∧ y.pcc = moveCursor x.pcc (x.pc + 4) ∧ ∀ r, y.reg r = bumped x.l0 r (bumped x.l1 r (x.reg r))))

/-! Traps, system registers, towers (R32, R35 to R41, R269 to R291) -/

/-- R32, R269 to R271, R274: a synchronous trap. A task-level cause with a handler and none in progress saves pc, cause and
information word and goes to TVEC; any other saves the supervisor's set, raises the level and goes to STVEC, nested when the
cause was the task's own; one while in_strap is 1 stops the task. BREAK and PAGE are not taken so (R269, R270). TRAP raises
SYSCALL with its code. R274, R445: TRET and SRET, with a held asynchronous trap taken at the restored boundary; BRK stops
the task in debug mode and is illegal otherwise. -/
def Obligations.TrapEntryReturnAndBreakpoint : Prop :=
  (∀ (s : State) (g : Guard) (i : BitVec 11),
      let t := s.curTid
      let x := s.curTask
      (s.curTask.guardOk g = true → Traps (.trap g i) s .syscall (BitVec.ofNat 64 i.toNat))
      ∧ ∀ (c : Cause) (info : W64), c ≠ .memUe → c ≠ .rampViolation → c ≠ .brk → c ≠ .page →
        let u := raise s t c info false
        let own : Prop := (causeCode c).toNat ∈ [0x04, 0x05, 0x06, 0x07, 0x09, 0x0A, 0x0B, 0x0C, 0x0D, 0x0E, 0x0F, 0x11, 0x12, 0x15]
        let handler : Prop := x.tr.inTrap = false ∧ x.tr.tvec ≠ 0
        let saved (nested : Nat) : SupRegs :=
          { priv := true, prevPriv := x.sup.priv, inStrap := true, sepc := x.pc, spccm := x.pcc.bits.extractLsb' 64 64,
            scause := BitVec.ofNat 64 ((causeCode c).toNat + nested), sinfo := info }
        (own → handler → OnlyTask s u ∧ u.task t = { x with
          tr := ⟨true, x.tr.tvec, x.pc, BitVec.ofNat 64 (causeCode c).toNat, info⟩, pcc := moveCursor x.pcc x.tr.tvec })
        ∧ (¬ (own ∧ handler) → x.sup.inStrap = false → OnlyTask s u
          ∧ (own → u.task t = { x with sup := saved 256, pcc := (u.task t).pcc })
          ∧ (¬ own → u.task t = { x with sup := saved 0, pcc := (u.task t).pcc })
          ∧ (u.task t).pcc.tag = .mem ∧ cursor (u.task t).pcc.bits = (s.core x.core).stvec
          ∧ memBounds (u.task t).pcc.bits = (0, 2 ^ 56) ∧ capPerm (u.task t).pcc.bits = permEx)
        ∧ (¬ (own ∧ handler) → x.sup.inStrap = true → (s.die (dieOf x.core)).elogNotify.getLsbD 16 = false →
          (u.task t).status = .stopped ∧ (u.task t).pcc = x.pcc))
  ∧ (∀ (s : State) (g : Guard), s.curTask.guardOk g = true →
      let x := s.curTask
      let back : GVal := if x.sup.prevPriv then supervisorPcc x.sup.sepc else ⟨x.sup.spccm ++ x.sup.sepc, .mem⟩
      let lowered (x : Task) : Task := { x with sup := { x.sup with priv := x.sup.prevPriv, inStrap := false } }
      Transfers (.tret g) s (fun x => { x with tr := { x.tr with inTrap := false } }) (moveCursor x.pcc x.tr.tepc)
      ∧ (x.sup.priv = true → x.held = [] → Transfers (.sret g) s lowered back)
      ∧ (∀ p l, x.sup.priv = true → x.held = p :: l → p.cause ≠ 0x13 → x.status = .running →
        Does (.sret g) s fun u => (u.task s.curTid).held = l
          ∧ (routedToTask p.cause = true → x.tr.inTrap = false → x.tr.tvec ≠ 0 →
            (u.task s.curTid).tr = ⟨true, x.tr.tvec, cursor back.bits, BitVec.ofNat 64 (p.cause.toNat + 512), p.info⟩)
          ∧ (routedToTask p.cause = false →
            (u.task s.curTid).sup.sepc = cursor back.bits ∧ (u.task s.curTid).sup.prevPriv = x.sup.prevPriv
            ∧ (u.task s.curTid).sup.scause = BitVec.ofNat 64 (p.cause.toNat + 512)))
      ∧ (s.me.debugEn = false → Traps (.brk g) s .illegalInstr (wordInfo (.brk g)))
      ∧ (s.me.debugEn = true → Does (.brk g) s fun u => (u.task s.curTid).status = .stopped ∧ (u.task s.curTid).pcc = x.pcc))

/-- R35, R274, R275, R277: SRET, TLBI, and MFS and MTS of a supervisor-level register trap PRIV at task level with the word. -/
def Obligations.PrivilegedInstructionsTrapAtTaskLevel : Prop :=
  ∀ (s : State) (g : Guard) (a k : BitVec 5) (n : BitVec 12) (w : W32), s.curTask.guardOk g = true → s.curTask.sup.priv = false →
    let sup : Prop := (0x100 ≤ n.toNat ∧ n.toNat ≤ 0x106) ∨ n.toNat = 0x120 ∨ (0x200 ≤ n.toNat ∧ n.toNat ≤ 0x21F)
      ∨ (0x402 ≤ n.toNat ∧ n.toNat ≤ 0x404) ∨ (0x500 ≤ n.toNat ∧ n.toNat ≤ 0x50C) ∨ n.toNat = 0x601
    (encode (.sret g) = [w] → Traps (.sret g) s .priv (w.setWidth 64))
    ∧ (encode (.tlbi g a k) = [w] → Traps (.tlbi g a k) s .priv (w.setWidth 64))
    ∧ (sup → encode (.mfs g a n) = [w] → Traps (.mfs g a n) s .priv (w.setWidth 64))
    ∧ (sup → encode (.mts g a n) = [w] → Traps (.mts g a n) s .priv (w.setWidth 64))

/-- R28, R35 to R41, R141, R275, R276, R327, R359, R433, R438, R439, R442: what MFS of each register writes into g[rd];
FFLAGS waits for the vector queue. R8, R9, R24, R26, R35 to R41, R141, R275, R327, R359, R433, R438, R439, R442: what MTS
writes to each register, by each field's access; a read-only register keeps its value; FFLAGS waits for the vector queue as
MFS of it does (log entry 9, DEDUCED). -/
def Obligations.SystemRegistersReadAndWrite : Prop :=
  (∀ (s : State) (g : Guard) (d : BitVec 5), s.curTask.guardOk g = true →
      let x := s.curTask
      let c := s.me
      let b (v : Bool) : Nat := if v then 1 else 0
      let waits : List W64 := (c.gov.held.map fun p => p.2) ++ (s.heldStarts s.cur).map fun y => y.since
      let get (n : Nat) (v : W64) : Prop := Completes (.mfs g d (BitVec.ofNat 12 n)) 4 s (fun x => x.setReg d ⟨v.setWidth 128, .data⟩)
      get 0x000 (BitVec.ofNat 64 (b x.tr.inTrap + 2 * b x.high + 4 * b (decide (x.tower ≠ [])) + 8 * b x.pinned))
      ∧ get 0x001 x.tr.tvec ∧ get 0x002 x.tr.tepc ∧ get 0x003 x.tr.tcause ∧ get 0x004 x.tr.tinfo
      ∧ get 0x008 (x.gtid.setWidth 64) ∧ get 0x009 (x.job.setWidth 64) ∧ get 0x00B x.khdr
      ∧ get 0x00A (BitVec.ofNat 64 (s.chip.toNat + 2 ^ 8 * (s.cur / 320) + 2 ^ 11 * (s.cur % 320 / 4) + 2 ^ 18 * (s.cur % 4)))
      ∧ get 0x00C x.l0.lb ∧ get 0x00D x.l0.le ∧ get 0x00E x.l1.lb ∧ get 0x00F x.l1.le ∧ get 0x010 (s.timebase - c.cycle0)
      ∧ (c.vecq = [] → get 0x011 (x.fflags.setWidth 64))
      ∧ (c.vecq ≠ [] → Answers (.mfs g d 0x011) s (block s .vecq))
      ∧ get 0x012 (BitVec.ofNat 64 (b x.sat)) ∧ get 0x013 ((x.p ||| 1).setWidth 64)
      ∧ get 0x014 (x.l0.lc.setWidth 64) ∧ get 0x015 (x.l1.lc.setWidth 64)
      ∧ get 0x020 (x.counts.blocks.setWidth 64) ∧ get 0x021 (x.counts.squash.setWidth 64)
      ∧ get 0x022 (x.counts.fetchb.setWidth 64) ∧ get 0x023 (x.counts.hops.setWidth 64)
      ∧ get 0x400 (BitVec.ofNat 64 (c.gov.est % 2 ^ 16
          + 2 ^ 16 * (match c.gov.kind with | .unheld => 0 | .active => 1 | .ballast => 2)
          + 2 ^ 18 * (c.gov.q % 8) + 2 ^ 21 * b (s.pinnedCore s.cur)))
      ∧ get 0x510 (x.counts.lod.setWidth 64) ∧ get 0x511 (x.counts.mxw.setWidth 64) ∧ get 0x512 (x.counts.hint.setWidth 64)
      ∧ get 0x600 (x.asid.setWidth 64) ∧ get 0x610 (x.counts.dmiss.setWidth 64) ∧ get 0x611 (x.counts.walks.setWidth 64)
      ∧ get 0x612 (x.counts.parks.setWidth 64) ∧ get 0x613 (x.counts.parkcc.setWidth 64)
      ∧ (x.sup.priv = true →
        get 0x100 (BitVec.ofNat 64 (b x.sup.priv + 2 * b x.sup.prevPriv + 4 * b x.sup.inStrap))
        ∧ get 0x101 c.stvec ∧ get 0x102 x.sup.sepc ∧ get 0x103 x.sup.scause ∧ get 0x104 x.sup.sinfo ∧ get 0x105 c.sscratch
        ∧ get 0x106 x.sup.spccm ∧ get 0x120 (BitVec.ofNat 64 (b c.debugEn))
        ∧ get 0x402 ((c.settleBallast s.timebase).gov.ballast.setWidth 64) ∧ get 0x403 ((waits.foldl (fun n a => n + (s.timebase - a).setWidth 48) c.gov.rampw).setWidth 64)
        ∧ get 0x404 (c.gov.tickets.setWidth 64) ∧ get 0x601 (c.lasid.setWidth 64)
        ∧ get 0x500 c.slog.ctl ∧ get 0x501 c.slog.base ∧ get 0x502 c.slog.len ∧ get 0x503 c.slog.wr ∧ get 0x504 c.slog.t0
        ∧ get 0x505 (c.slog.lost.setWidth 64) ∧ get 0x508 c.trc.ctl ∧ get 0x509 c.trc.base ∧ get 0x50A c.trc.len
        ∧ get 0x50B c.trc.wr ∧ get 0x50C (c.trc.lost.setWidth 64)
        ∧ ∀ k < 16, get (0x200 + k) ((c.counter k).target ++ (c.counter k).count)
          ∧ get (0x210 + k) (BitVec.ofNat 64 (b (c.counter k).phase
            + 2 * b (c.counter k).trig.isSome + 2 ^ 16 * (c.counter k).fire.toNat))))
  ∧ (∀ (s : State) (g : Guard) (a : BitVec 5), s.curTask.guardOk g = true →
      let v := s.curTask.r64 a
      let x := s.curTask
      let put (n : Nat) (f : Task → Task) : Prop := Completes (.mts g a (BitVec.ofNat 12 n)) 4 s f
      let tr (f : TrapRegs → TrapRegs) (x : Task) : Task := { x with tr := f x.tr }
      let sup (f : SupRegs → SupRegs) (x : Task) : Task := { x with sup := f x.sup }
      let l0 (f : LoopRegs → LoopRegs) (x : Task) : Task := { x with l0 := f x.l0 }
      let l1 (f : LoopRegs → LoopRegs) (x : Task) : Task := { x with l1 := f x.l1 }
      let count (f : BitVec 48 → TaskCounts → TaskCounts) (x : Task) : Task := { x with counts := f (v.setWidth 48) x.counts }
      let gov (f : BitVec 48 → CoreGov → CoreGov) (c : Core) : Core := { c with gov := f (v.setWidth 48) c.gov }
      let slog (f : Ring → Ring) (c : Core) : Core := { c with slog := f c.slog }
      let trc (f : Ring → Ring) (c : Core) : Core := { c with trc := f c.trc }
      let rises (r : Ring) : Prop := v.getLsbD 0 = true ∧ r.ctl.getLsbD 0 = false
      let control (kinds : W64) (r : Ring) : Ring :=
        { r with ctl := v &&& (3 ||| kinds) ||| r.ctl &&& ~~~v &&& 4, wr := if rises r then 0 else r.wr,
                 t0 := if rises r then s.timebase else r.t0 }
      let core (n : Nat) (f : Core → Core) : Prop := Does (.mts g a (BitVec.ofNat 12 n)) s fun t =>
        t = { s with tasks := t.tasks, cores := t.cores } ∧ (∀ k, t.core k = if k = s.cur then f s.me else s.core k)
        ∧ (∀ u, u ≠ s.curTid → t.task u = s.task u) ∧ Retired 4 x (t.task s.curTid)
      put 0x000 (tr fun r => { r with inTrap := v.getLsbD 0 }) ∧ put 0x001 (tr fun r => { r with tvec := v &&& ~~~3 })
      ∧ put 0x002 (tr fun r => { r with tepc := v }) ∧ put 0x003 (tr fun r => { r with tcause := v &&& 0x3FF })
      ∧ put 0x004 (tr fun r => { r with tinfo := v }) ∧ (∀ n ∈ [0x008, 0x009, 0x00A, 0x00B, 0x010], put n id)
      ∧ put 0x00C (l0 fun r => { r with lb := v }) ∧ put 0x00D (l0 fun r => { r with le := v })
      ∧ put 0x00E (l1 fun r => { r with lb := v }) ∧ put 0x00F (l1 fun r => { r with le := v })
      ∧ (s.me.vecq = [] → put 0x011 (fun x => { x with fflags := x.fflags &&& ~~~(v.setWidth 5) }))
      ∧ (s.me.vecq ≠ [] → Answers (.mts g a 0x011) s (block s .vecq))
      ∧ put 0x012 (fun x => { x with sat := v.getLsbD 0 }) ∧ put 0x013 (fun x => { x with p := v.setWidth 8 ||| 1 })
      ∧ put 0x014 (l0 fun r => { r with lc := v.setWidth 32 }) ∧ put 0x015 (l1 fun r => { r with lc := v.setWidth 32 })
      ∧ put 0x020 (count fun n r => { r with blocks := n }) ∧ put 0x021 (count fun n r => { r with squash := n })
      ∧ put 0x022 (count fun n r => { r with fetchb := n }) ∧ put 0x023 (count fun n r => { r with hops := n })
      ∧ put 0x510 (count fun n r => { r with lod := n }) ∧ put 0x511 (count fun n r => { r with mxw := n })
      ∧ put 0x512 (count fun n r => { r with hint := n }) ∧ put 0x610 (count fun n r => { r with dmiss := n })
      ∧ put 0x611 (count fun n r => { r with walks := n }) ∧ put 0x612 (count fun n r => { r with parks := n })
      ∧ put 0x613 (count fun n r => { r with parkcc := n }) ∧ put 0x400 id ∧ put 0x600 id
      ∧ (x.sup.priv = true →
        put 0x100 (sup fun r => { r with prevPriv := v.getLsbD 1 }) ∧ put 0x102 (sup fun r => { r with sepc := v })
        ∧ put 0x103 (sup fun r => { r with scause := v &&& 0x3FF }) ∧ put 0x104 (sup fun r => { r with sinfo := v })
        ∧ put 0x106 id ∧ core 0x101 (fun c => { c with stvec := v }) ∧ core 0x105 (fun c => { c with sscratch := v })
        ∧ core 0x120 (fun c => { c with debugEn := v.getLsbD 0 }) ∧ core 0x601 (fun c => { c with lasid := v.setWidth 16 })
        ∧ core 0x402 (fun c => gov (fun n r => { r with ballast := n }) (c.settleBallast s.timebase))
        ∧ (Does (.mts g a 0x403) s fun t => t = { s with tasks := t.tasks, cores := t.cores }
          ∧ (∀ k, t.core k = if k = s.cur then gov (fun n r => { r with rampw := n, held := r.held.map fun p => (p.1, s.timebase) }) s.me
              else s.core k)
          ∧ (∀ y ∈ s.heldStarts s.cur, y.gtid ≠ s.curTid → (t.task y.gtid).since = s.timebase)
          ∧ (s.heldStarts s.cur = [] → (∀ u, u ≠ s.curTid → t.task u = s.task u) ∧ Retired 4 x (t.task s.curTid)))
        ∧ core 0x404 (gov fun n r => { r with tickets := n })
        ∧ core 0x500 (fun c => { slog (control 0) c with logAt := if rises c.slog then s.timebase else c.logAt })
        ∧ core 0x501 (slog fun r => { r with base := v &&& 0x3FFFFFFFFFC0 })
        ∧ core 0x502 (slog fun r => { r with len := v &&& 0xFFFFFFC0 }) ∧ core 0x505 (slog fun r => { r with lost := v.setWidth 48 })
        ∧ core 0x508 (trc (control 0x38)) ∧ core 0x509 (trc fun r => { r with base := v &&& 0x3FFFFFFFFFC0 })
        ∧ core 0x50A (trc fun r => { r with len := v &&& 0xFFFFFFC0 }) ∧ core 0x50C (trc fun r => { r with lost := v.setWidth 48 })
        ∧ (∀ n ∈ [0x503, 0x504, 0x50B], put n id)
        ∧ ∀ k < 16, put (0x210 + k) id
          ∧ Answers (.mts g a (BitVec.ofNat 12 (0x200 + k))) s (slotUpdate (retireOf s s.curTid 4) s.cur k
              fun c => { c with count := v.setWidth 32, target := v.extractLsb' 32 32 })))

/-- R277, R343, R344: TLBI at supervisor level removes, from every translation structure of the package, the entries that its
kind names; kinds 1 and 3 drop the walkers' roots; a kind above 3 is no encoding. -/
def Obligations.TlbiClearsEveryTranslationStructure : Prop :=
  ∀ (s : State) (g : Guard) (a k : BitVec 5), s.curTask.guardOk g = true → s.curTask.sup.priv = true → k.toNat ≤ 3 →
    let va := ((s.curTask.reg a).bits.extractLsb' 0 52).toNat
    let asid := (s.curTask.reg a).bits.extractLsb' 64 16
    let hit (e : TlbEntry) : Bool :=
      (decide (k = 1 ∨ k = 3) || decide (e.va.toNat / 2 ^ pageBits e.level = va / 2 ^ pageBits e.level))
        && (decide (k = 2 ∨ k = 3) || decide (e.asid = asid))
    let keep (l : List TlbEntry) : List TlbEntry := l.filter fun e => !hit e
    Does (.tlbi g a k) s fun t =>
      t = { s with tasks := t.tasks, cores := t.cores, clusters := t.clusters, dies := t.dies }
      ∧ (∀ c, t.core c = { s.core c with itlb := keep (s.core c).itlb, dtlb := keep (s.core c).dtlb })
      ∧ (∀ c, t.cluster c = { s.cluster c with
          l2 := keep (s.cluster c).l2, roots := if k = 1 ∨ k = 3 then [] else (s.cluster c).roots,
          roots1 := if k = 1 ∨ k = 3 then [] else (s.cluster c).roots1 })
      ∧ (∀ d, t.die d = { s.die d with
          dtc := keep (s.die d).dtc, roots := if k = 1 ∨ k = 3 then [] else (s.die d).roots })
      ∧ (∀ u, u ≠ s.curTid → t.task u = s.task u) ∧ Retired 4 s.curTask (t.task s.curTid)

/-- R285 to R288, R326, R427, R430: COMPOSE traps by reason in order, and a pinned one beyond the ramp slot with site 3, unless the
acknowledgement of R431 stands, where a member that already holds a ticket of a slot that has begun needs none; else it stops admission at its members and waits. Once every member has drained within the timeout,
each UNHELD one takes a ticket, also one that becomes UNHELD only later; 16 cc after the drain, with every ticket's slot begun, the tower
forms and p[pd] is true; past the timeout admission resumes and p[pd] is false. RELEASE hands the members back and is a NOP outside a
tower. A member that is let go takes up admission, unless another COMPOSE waits for it. -/
def Obligations.TowersFormTimeOutAndDissolve : Prop :=
  ∀ (s : State) (g : Guard) (p : BitVec 3) (a b : BitVec 5) (core : Nat) (x : Task) (till n : W64),
    let t := s.curTid
    let y := s.curTask
    let m : W16 := (y.r64 a).setWidth 16
    let ms := memberCores s.cur m
    let reason (r : Nat) : Prop := Traps (.compose g p a b) s .compose (BitVec.ofNat 64 (m.toNat + 2 ^ 16 * r))
    let few : Prop := ms.length < 2 ∨ s.cur ∉ ms
    let gone : Prop := ∃ k ∈ ms, s.harvested k = true
    let may : Prop := ¬ few ∧ ¬ gone ∧ y.tower = [] ∧ y.high = false
    let tickets := (ms.filter fun k => decide (k ≠ y.core ∧ (s.core k).gov.kind = .unheld ∧ startDue s k = false)).length
    let excess : Prop := y.pinned = true ∧ (y.rvAck = false ∨ y.sup.inStrap = true) ∧ s.gov.rcap - s.gov.rise < tickets
    let forming : Prop := composing s core = some x ∧ x.composeTill = some till ∧ s.task x.gtid = x
    let done : Prop := ∀ k ∈ x.composeSet, memberDrained s x.gtid k = true
    let begun : Prop := ∀ k ∈ x.composeSet, (s.core k).gov.kind = .unheld → startDue s k = true
    let bound (u : State) : Prop := ∀ k ∈ x.composeSet, k ≠ x.core → (s.core k).gov.kind = .unheld → (u.core k).gov.start ≠ none
    let held : Prop := ∀ k ∈ x.composeSet, (s.core k).gov.kind = .unheld → (s.core k).gov.start ≠ none
    let freed (u : State) (i : BitVec 48) : Prop := ∀ k, (s.core k).towerOf = some i → (u.core k).towerOf = none
      ∨ ∃ q ∈ s.tasks, q.2.composeTill ≠ none ∧ k ∈ q.2.composeSet ∧ (u.core k).towerOf = some q.2.gtid
    (y.guardOk g = true → y.composeTill = none →
      (few → reason 0) ∧ (¬ few → gone → reason 1) ∧ (¬ few → ¬ gone → y.tower ≠ [] → reason 2)
      ∧ (¬ few → ¬ gone → y.tower = [] → y.high = true → reason 3)
      ∧ (may → excess → Traps (.compose g p a b) s .rampViolation
          (BitVec.ofNat 64 (3 + 2 ^ 32 * (tickets - (s.gov.rcap - s.gov.rise)))))
      ∧ (may → ¬ excess → Does (.compose g p a b) s fun u =>
          (u.task t).status = .waitMsg ∧ (u.task t).wait = some .compose
          ∧ (u.task t).composeTill = some (s.timebase + ((y.r64 b).setWidth 32).setWidth 64) ∧ (u.task t).composeSet = ms
          ∧ (u.task t).pcc = y.pcc ∧ ∀ k ∈ ms, (s.core k).towerOf = none → (u.core k).towerOf = some t))
    ∧ (∀ n v, y.guardOk g = true → y.composeTill = some n → y.answer = some v →
      Completes (.compose g p a b) 4 s (fun x => { x with composeTill := none, answer := none }.setPred p (decide (v = 1))))
    ∧ (forming → x.drainedAt = none → done → s.timebase.toNat ≤ till.toNat → composeExcess s x x.composeSet = 0 →
      Does (.towerForm core) s fun u =>
      (u.task x.gtid).drainedAt = some s.timebase ∧ bound u ∧ ∀ k ∈ x.composeSet, (u.core k).towerOf = some x.gtid)
    ∧ (forming → x.drainedAt = none → ¬ done ∨ till.toNat < s.timebase.toNat → Answers (.towerForm core) s s)
    ∧ (forming → x.drainedAt = some n → n.toNat + 16 ≤ s.timebase.toNat → begun → Does (.towerForm core) s fun u =>
      (u.task x.gtid).tower = x.composeSet ∧ (u.task x.gtid).answer = some 1)
    ∧ (forming → x.drainedAt = some n → s.timebase.toNat < n.toNat + 16 ∨ (¬ begun ∧ held) → Answers (.towerForm core) s s)
    ∧ (forming → x.drainedAt = some n → n.toNat + 16 ≤ s.timebase.toNat → ¬ begun → ¬ held → composeExcess s x x.composeSet = 0 →
      Does (.towerForm core) s fun u => (u.task x.gtid).drainedAt = some n ∧ (u.task x.gtid).tower = x.tower ∧ bound u)
    ∧ (forming → x.drainedAt = none → till.toNat < s.timebase.toNat → Does (.composeTimeout core) s fun u =>
      (u.task x.gtid).answer = some 0 ∧ freed u x.gtid)
    ∧ (forming → x.drainedAt ≠ none ∨ s.timebase.toNat ≤ till.toNat → Answers (.composeTimeout core) s s)
    ∧ (y.guardOk g = true → y.tower = [] → y.composeTill = none → Completes (.release g) 4 s id)
    ∧ (y.guardOk g = true → y.tower ≠ [] → Does (.release g) s fun u => (u.task t).tower = [] ∧ freed u t
      ∧ ∃ z, Retired 4 y z ∧ (u.task t).pcc = z.pcc ∧ ∀ r, (u.task t).reg r = z.reg r)

/-- R158, R270, R272, R273, R289, R291, R356, R441: pinning; a trace mark is written when marks are traced; the entry of a held
trap, with async set; HANDLER_BUDGET; a posted atomic's error; an acknowledgement. -/
def Obligations.PinsMarksAndHeldTraps : Prop :=
  ∀ (s : State) (g : Guard) (a : BitVec 5) (i : BitVec 11) (core : Nat) (t : BitVec 48) (p : PendTrap) (l : List PendTrap)
    (x : Task) (n : W64) (ps : List (BitVec 48 × W64)),
    (s.curTask.guardOk g = true →
      Completes (.govPin g) 4 s (fun x => { x with pinned := true })
      ∧ Completes (.govUnpin g) 4 s (fun x => { x with pinned := x.launchPinned })
      ∧ (s.me.trc.ctl.getLsbD 3 = false → Completes (.trcMark g a i) 4 s id)
      ∧ (let r := s.me.trc
         let pa := r.base.toNat + r.wr.toNat % r.len.toNat
         r.ctl.getLsbD 3 = true → r.ctl.getLsbD 0 = true → 32 ≤ r.len.toNat →
         (r.ctl.getLsbD 1 = true ∨ r.wr.toNat + 32 ≤ r.len.toNat) → s.backed pa 32 = true →
         Does (.trcMark g a i) s fun u =>
           Wrote s u pa (leBytes 8 (s.timebase - s.me.cycle0).toNat ++ leBytes 8 (s.curTask.gtid.toNat + 2 ^ 52 * i.toNat)
             ++ leBytes 8 (s.curTask.r64 a).toNat ++ leBytes 8 s.curTask.pc.toNat)
           ∧ (u.core s.cur).trc = { r with wr := r.wr + 32 } ∧ Retired 4 s.curTask (u.task s.curTid)))
    ∧ (asyncTask s core = some t → (s.task t).held = p :: l → (s.task t).takeable p = true → p.cause ≠ 0x13 →
      Does (.asyncTrapEntry core) s fun u => (u.task t).held = l
        ∧ (if routedToTask p.cause = true ∧ (s.task t).tr.inTrap = false ∧ (s.task t).tr.tvec ≠ 0 then
            (u.task t).tr = ⟨true, (s.task t).tr.tvec, (s.task t).pc, BitVec.ofNat 64 (p.cause.toNat + 512), p.info⟩
            ∧ (u.task t).pcc = moveCursor (s.task t).pcc (s.task t).tr.tvec
          else (u.task t).sup.inStrap = true ∧ (u.task t).sup.priv = true ∧ (u.task t).sup.sepc = (s.task t).pc
            ∧ (u.task t).sup.scause
              = BitVec.ofNat 64 (p.cause.toNat + (if routedToTask p.cause then 256 else 0) + 512)))
    ∧ (asyncTask s core = none → Answers (.asyncTrapEntry core) s s)
    ∧ (x ∈ s.tasksOn core → s.task x.gtid = x → (∀ y ∈ s.tasksOn core, y.high = true → y = x) → x.high = true →
      x.budgetDone = false → x.status ≠ .ended → x.status ≠ .stopped → x.firstIssue = some n →
      16384 ≤ (s.timebase - n).toNat → Does (.handlerBudget core) s fun u =>
        (u.task x.gtid).held = x.held ++ [⟨0x14, x.gtid.setWidth 64⟩] ∧ (u.task x.gtid).budgetDone = true)
    ∧ ((s.core core).postedUe = (t, n) :: ps → (s.task t).status ≠ .ended → Does (.postedAtomicUe core) s fun u =>
      ⟨0x15, n⟩ ∈ (u.task t).held ∧ (u.core core).postedUe = ps
      ∧ ((s.die (dieOf (s.task t).core)).elogNotify.getLsbD 16 = false → (u.task t).held = (s.task t).held ++ [⟨0x15, n⟩]))
    ∧ Does (.writeAcknowledgement core) s fun u =>
      u = { s with tasks := u.tasks } ∧ ∀ v, u.task v = if v = BitVec.ofNat 48 core
        then { s.task v with unacked := (s.task v).unacked.drop 1 } else s.task v

/-! The vector unit (R177 to R197) -/

/-- R181 to R185: VADD, VSUB, VMUL, VFMA, VMAX, VMIN, VABS and VNEG on every lane type: active lanes take the result rounded
once, or wrapped for integers; other lanes keep their bits; each active lane's flags join when the queue executes it. R186:
VEXP2, VLOG2, VRCP and VRSQ take their function of every active lane, and the function's special cases are those of the
table. -/
def Obligations.VectorArithmeticAndFunctions : Prop :=
  (∀ (s : State) (g : Guard) (d a b : BitVec 4) (m : BitVec 2) (t : BitVec 3), s.curTask.guardOk g = true →
      s.me.vecq.length < 16 → ¬ (t = 3 ∧ s.domeOnly = true) →
      let x := s.curTask
      let w := laneWidth t.toNat
      let at_ (r : BitVec 4) (k : Nat) : Nat := (x.vec r).toNat / 2 ^ (w * k) % 2 ^ w
      let active (k : Nat) : Prop := (x.mask m).getLsbD k = true
      let runs (i : Instr) (r : Nat → Nat) (e : Nat → Flags) : Prop :=
        ∃ v fl, Queued i s (fun x => x.setVec d v) fl
          ∧ (∀ k < 512 / w, (active k → v.toNat / 2 ^ (w * k) % 2 ^ w = r k % 2 ^ w)
            ∧ (¬ active k → v.toNat / 2 ^ (w * k) % 2 ^ w = at_ d k))
          ∧ ∀ j, fl.getLsbD j = true ↔ ∃ k < 512 / w, active k ∧ (e k).getLsbD j = true
      let sx (r : BitVec 4) (k : Nat) : Int := if 2 * at_ r k < 2 ^ w then at_ r k else (at_ r k : Int) - 2 ^ w
      let int (i : Instr) (f : Int → Int → Int → Int) : Prop :=
        4 ≤ t.toNat → runs i (fun k => (f (sx a k) (sx b k) (sx d k) % 2 ^ w).toNat) fun _ => 0
      let fp (i : Instr) (f : FVal → FVal → FVal → FVal × Flags) : Prop :=
        ∀ q, laneFmt t.toNat = some q →
          let z (k : Nat) := f (fdecode q (at_ a k)) (fdecode q (at_ b k)) (fdecode q (at_ d k))
          runs i (fun k => (fconv q false .rne (z k).1).1) fun k => (fconv q false .rne (z k).1).2 ||| (z k).2
      let pick (greater : Bool) (u v _ : FVal) : FVal × Flags :=
        (if u.isNan = true ∧ v.isNan = true then .nan false else if u.isNan then v else if v.isNan then u
          else if flt true u v = greater then v else u, sigFlag u ||| sigFlag v)
      int (.vadd g d a b m t) (fun u v _ => u + v) ∧ fp (.vadd g d a b m t) (fun u v _ => fadd u v)
      ∧ int (.vsub g d a b m t) (fun u v _ => u - v) ∧ fp (.vsub g d a b m t) (fun u v _ => fadd u (fneg v))
      ∧ int (.vmul g d a b m t) (fun u v _ => u * v) ∧ fp (.vmul g d a b m t) (fun u v _ => fmul u v)
      ∧ int (.vfma g d a b m t) (fun u v z => u * v + z) ∧ fp (.vfma g d a b m t) ffma
      ∧ int (.vmax g d a b m t) (fun u v _ => max u v) ∧ fp (.vmax g d a b m t) (pick true)
      ∧ int (.vmin g d a b m t) (fun u v _ => min u v) ∧ fp (.vmin g d a b m t) (pick false)
      ∧ int (.vabs g d a m t) (fun u _ _ => (u.natAbs : Int)) ∧ fp (.vabs g d a m t) (fun u _ _ => (fabs u, sigFlag u))
      ∧ int (.vneg g d a m t) (fun u _ _ => -u) ∧ fp (.vneg g d a m t) (fun u _ _ => (fneg u, sigFlag u)))
  ∧ ((∀ (s : State) (g : Guard) (d a : BitVec 4) (m : BitVec 2) (t : BitVec 3) (q : Fmt), s.curTask.guardOk g = true →
      s.me.vecq.length < 16 → t.toNat ≤ 2 → laneFmt t.toNat = some q →
      let x := s.curTask
      let w := laneWidth t.toNat
      let runs (i : Instr) (f : FVal → Nat × Flags) : Prop :=
        let r (k : Nat) := f (fdecode q (laneOf (x.vec a) w k))
        ∃ v fl, Queued i s (fun x => x.setVec d v) fl
          ∧ (∀ k < 512 / w, laneOf v w k = if (x.mask m).getLsbD k then (r k).1 % 2 ^ w else laneOf (x.vec d) w k)
          ∧ ∀ j, fl.getLsbD j = true ↔ ∃ k < 512 / w, (x.mask m).getLsbD k = true ∧ (r k).2.getLsbD j = true
      runs (.vexp2 g d a m t) (fexp2 q) ∧ runs (.vlog2 g d a m t) (flog2 q) ∧ runs (.vrcp g d a m t) (frcp q)
      ∧ runs (.vrsq g d a m t) (frsq q))
    ∧ ∀ q ∈ [fp32, bf16, fp16],
      let neg := 2 ^ (q.ebits + q.fbits)
      let one := q.bias * 2 ^ q.fbits
      let two := (q.bias + 1) * 2 ^ q.fbits
      let inf := q.emax * 2 ^ q.fbits
      let is (f : Fmt → FVal → Nat × Flags) (l : List (Nat × Nat × Flags)) : Prop := ∀ c ∈ l, f q (fdecode q c.1) = c.2
      is fexp2 [(0, one, 0), (neg, one, 0), (inf, inf, 0), (neg + inf, 0, 0), (one, two, 0)]
      ∧ is flog2 [(0, neg + inf, flDivzero), (neg, neg + inf, flDivzero), (inf, inf, 0), (neg + inf, q.nan, flInvalid), (one, 0, 0)]
      ∧ is frcp [(0, inf, flDivzero), (neg, neg + inf, flDivzero), (inf, 0, 0), (neg + inf, neg, 0), (one, one, 0)]
      ∧ is frsq [(0, inf, flDivzero), (neg, neg + inf, flDivzero), (inf, 0, 0), (neg + inf, q.nan, flInvalid), (one, one, 0)]
      ∧ ∀ c, neg < c → c < neg + inf → is flog2 [(c, q.nan, flInvalid)] ∧ is frsq [(c, q.nan, flInvalid)])

/-- R187 to R190: VCVT converts the lanes both types have (by the rules that VectorReductionsRoundOnce states), with the flags of
those that are active, and clears the others; VSEL, VIOTA, VINS and VEXT have their own lane
rules; VSHF and VBCST write active lanes; MAND, MOR and MNOT act on 64 bits; VCMP clears inactive bits and keeps those above. -/
def Obligations.VectorSelectionMasksAndMoves : Prop :=
  ∀ (s : State) (g : Guard) (d a b : BitVec 4) (e r q : BitVec 5) (m n o : BitVec 2) (t f : BitVec 3) (c : BitVec 4),
    s.curTask.guardOk g = true → s.me.vecq.length < 16 → ¬ ((t = 3 ∨ f = 3) ∧ s.domeOnly = true) →
    let x := s.curTask
    let w := laneWidth t.toNat
    let l := 512 / w
    let lane (v : W512) (k : Nat) : Nat := laneOf v w k
    let on (k : Nat) : Bool := (x.mask m).getLsbD k
    let quiet (i : Instr) (d : BitVec 4) (val : Nat → Nat) : Prop :=
      ∃ v, Queued i s (fun x => x.setVec d v) 0 ∧ ∀ k < l, lane v k = val k
    let cvt (k : Nat) : Nat × Flags := cvtLane x.sat f.toNat t.toNat (laneOf (x.vec a) (laneWidth f.toNat) k)
    let same (t : Nat) (a b : Nat) : Bool × Flags := vcmpLane c.toNat t a b
    (∃ v fl, Queued (.vcvt g d a f m t) s (fun x => x.setVec d v) fl
      ∧ (∀ k < l, lane v k = if on k then (if k < 512 / laneWidth f.toNat then (cvt k).1 % 2 ^ w else 0) else lane (x.vec d) k)
      ∧ ∀ j, fl.getLsbD j = true ↔ ∃ k < l, k < 512 / laneWidth f.toNat ∧ on k = true ∧ (cvt k).2.getLsbD j = true)
    ∧ quiet (.vsel g d a b m t) d (fun k => lane (if on k then x.vec a else x.vec b) k)
    ∧ quiet (.vshf g d a b m t) d (fun k => if on k then lane (x.vec a) (lane (x.vec b) k % l) else lane (x.vec d) k)
    ∧ quiet (.viota g d m t) d (fun k => (List.range k).countP on % 2 ^ w)
    ∧ Queued (.mand g n m o) s (fun x => x.setMask n (x.mask m &&& x.mask o)) 0
    ∧ Queued (.mor g n m o) s (fun x => x.setMask n (x.mask m ||| x.mask o)) 0
    ∧ Queued (.mnot g n m) s (fun x => x.setMask n (~~~x.mask m)) 0
    ∧ (∃ v fl, Queued (.vcmp g n a b m t c) s (fun x => x.setMask n v) fl
      ∧ (∀ k < 64, v.getLsbD k = if l ≤ k then (x.mask n).getLsbD k
          else on k && (same t.toNat (lane (x.vec a) k) (lane (x.vec b) k)).1)
      ∧ ∀ j, fl.getLsbD j = true ↔ ∃ k < l, on k = true ∧ (same t.toNat (lane (x.vec a) k) (lane (x.vec b) k)).2.getLsbD j = true)
    ∧ quiet (.vbcst g (d.setWidth 5) r m t) d (fun k => if on k then (x.r64 r).toNat % 2 ^ w else lane (x.vec d) k)
    ∧ quiet (.vins g (d.setWidth 5) r q t) d
        (fun k => if k = (x.r64 q).toNat % l then (x.r64 r).toNat % 2 ^ w else lane (x.vec d) k)
    ∧ (let v := lane (x.vec a) ((x.r64 q).toNat % l)
       Queued (.vext g e (a.setWidth 5) q t) s (fun x => x.setReg e ⟨BitVec.ofNat 128
         (if t.toNat < 4 ∨ 2 * v < 2 ^ w then v else 2 ^ 64 - (2 ^ w - v)), .data⟩) 0)

/-- R189: VCMP tests an active lane by the condition of the table, on integers and on floating-point values, where a NaN is
unordered; a signalling NaN sets invalid. -/
def Obligations.VectorCompareConditions : Prop :=
  ∀ (s : State) (g : Guard) (n m : BitVec 2) (a b : BitVec 4) (t : BitVec 3) (c : Nat), s.curTask.guardOk g = true →
    s.me.vecq.length < 16 → ¬ (t = 3 ∧ s.domeOnly = true) → c < 6 →
    let x := s.curTask
    let w := laneWidth t.toNat
    let u (k : Nat) : Nat := laneOf (x.vec a) w k
    let v (k : Nat) : Nat := laneOf (x.vec b) w k
    let on (k : Nat) : Bool := (x.mask m).getLsbD k
    let sx (y : Nat) : Int := if 2 * y < 2 ^ w then y else (y : Int) - 2 ^ w
    let runs (bit : Nat → Bool) (e : Nat → Flags) : Prop := ∃ r fl,
      Queued (.vcmp g n a b m t (BitVec.ofNat 4 c)) s (fun x => x.setMask n r) fl
      ∧ (∀ k < 64, r.getLsbD k = if 512 / w ≤ k then (x.mask n).getLsbD k else on k && bit k)
      ∧ ∀ j, fl.getLsbD j = true ↔ ∃ k < 512 / w, on k = true ∧ (e k).getLsbD j = true
    let int (f : Nat → Nat → Bool) : Prop := runs (fun k => f (u k) (v k)) fun _ => 0
    let fp (q : Fmt) (f : Bool → Bool → Bool → Bool) : Prop := runs
      (fun k =>
        let y := fdecode q (u k)
        let z := fdecode q (v k)
        f (y.isNan || z.isNan) (flt false y z) (flt false z y))
      fun k => sigFlag (fdecode q (u k)) ||| sigFlag (fdecode q (v k))
    (4 ≤ t.toNat → match c with
      | 0 => int fun y z => decide (y = z) | 1 => int fun y z => decide (y ≠ z) | 2 => int fun y z => decide (sx y < sx z)
      | 3 => int fun y z => decide (sx y ≤ sx z) | 4 => int fun y z => decide (y < z) | _ => int fun y z => decide (y ≤ z))
    ∧ ∀ q, laneFmt t.toNat = some q → match c with
      | 0 => fp q fun un lt gt => !un && !lt && !gt | 1 => fp q fun un lt gt => un || lt || gt
      | 2 => fp q fun un lt _ => !un && lt | 3 => fp q fun un _ gt => !un && !gt
      | 4 => fp q fun un lt _ => un || lt | _ => fp q fun un _ gt => un || !gt

/-- R76, R78, R185, R191: VREDS writes the exact sum of the active lanes rounded once (a sum of zero is +0 unless every lane
is −0, as R76 has it), with the special values of a matrix sum, and for integers the sum modulo 2^64; VREDM writes their
maximum; with no active lane they write zero and the least value. R61, R63 to R66, R187: a finite value converted to a
floating-point format is rounded once to nearest even, and beyond the format's largest value becomes what R65 names, with
the flags of R63; so to an integer format, where it saturates; infinities and NaNs convert by the tables; and VCVT converts
a lane by the row of its two types, exactly to a wider type and to the same one. -/
def Obligations.VectorReductionsRoundOnce : Prop :=
  (∀ (s : State) (g : Guard) (e : BitVec 5) (a : BitVec 4) (m : BitVec 2) (t : BitVec 3), s.curTask.guardOk g = true →
      s.me.vecq.length < 16 → ¬ (t = 3 ∧ s.domeOnly = true) →
      let x := s.curTask
      let w := laneWidth t.toNat
      let ls := ((List.range (512 / w)).filter fun k => (x.mask m).getLsbD k).map fun k => laneOf (x.vec a) w k
      let sx (u : Nat) : Int := if 2 * u < 2 ^ w then u else (u : Int) - 2 ^ w
      let red (i : Instr) (v : Int) (fl : Flags) : Prop := Queued i s (fun x => x.setReg e ⟨BitVec.ofInt 128 (v % 2 ^ 64), .data⟩) fl
      let scaled (v : FVal) : Int := match v with
        | .fin neg k p => (if neg then -(k : Int) else k) * 2 ^ (p + 2000).toNat
        | _ => 0
      (4 ≤ t.toNat → red (.vreds g e (a.setWidth 5) m t) (ls.map sx).sum 0
        ∧ red (.vredm g e (a.setWidth 5) m t) ((ls.map sx).foldl max (-(2 ^ (w - 1)))) 0)
      ∧ ∀ q, laneFmt t.toNat = some q →
        let vs := ls.map (fdecode q)
        let out := if t = 3 then fp64 else fp32
        (∃ z : FVal × Flags,
          red (.vreds g e (a.setWidth 5) m t) (fconv out false .rne z.1).1 ((fconv out false .rne z.1).2 ||| z.2)
          ∧ ((∃ v ∈ vs, v.isNan = true) ∨ (FVal.inf true ∈ vs ∧ FVal.inf false ∈ vs) → z = (.nan false, flInvalid))
          ∧ (∀ n, (∀ v ∈ vs, v.isNan = false) → FVal.inf n ∈ vs → FVal.inf (!n) ∉ vs → z = (.inf n, 0))
          ∧ ((∀ v ∈ vs, ∃ n k p, v = .fin n k p) → z.2 = 0 ∧ ∃ n k p, z.1 = .fin n k p ∧ -2000 ≤ p
            ∧ scaled z.1 = (vs.map scaled).sum ∧ (k = 0 → (n = true ↔ vs ≠ [] ∧ ∀ v ∈ vs, ∃ p, v = .fin true 0 p)))
          ∧ (vs = [] → z = (.fin false 0 0, 0)))
        ∧ (ls = [] → red (.vredm g e (a.setWidth 5) m t) ((2 ^ (q.ebits + q.fbits) + q.emax * 2 ^ q.fbits : Nat) : Int) 0)
        ∧ (∀ u us, ls = u :: us →
          let z := us.foldl (fun (y : FVal × Flags) v => ((fmaxmin true y.1 (fdecode q v)).1, y.2 ||| (fmaxmin true y.1 (fdecode q v)).2))
            (fdecode q u, sigFlag (fdecode q u))
          red (.vredm g e (a.setWidth 5) m t) (fconv q false .rne z.1).1 ((fconv q false .rne z.1).2 ||| z.2)))
  ∧ (let mag (m : Nat) (e : Int) : Nat := m * 2 ^ (e + 3000).toNat
    (∀ (f : Fmt) (most over_ : Nat) (keeps : Bool) (sat neg : Bool),
      (f, most, over_, keeps) ∈ [(fp64, 0x7FEFFFFFFFFFFFFF, 0x7FF0000000000000, true), (fp32, 0x7F7FFFFF, 0x7F800000, true),
        (bf16, 0x7F7F, 0x7F80, true), (fp16, 0x7BFF, 0x7C00, true), (e5m2, 0x7B, 0x7C, true), (e4m3, 0x7E, 0x7F, false),
        (e2m1, 7, 7, true)] →
      let sign := if neg then 2 ^ (f.ebits + f.fbits) else 0
      let top := if sat = true then sign + most else if keeps then sign + over_ else over_
      (∀ (m : Nat) (e : Int), -3000 ≤ e →
        let x := mag m e
        let r := fconv f sat .rne (.fin neg m e)
        (m = 0 → r = (sign, 0))
        ∧ ∀ l z : Nat, 2 ^ l ≤ x → x < 2 ^ (l + 1) →
          let q : Int := max ((l : Int) - 3000 - f.fbits) (1 - (f.bias : Int) - f.fbits)
          let y := mag z q
          2 * y ≤ 2 * x + mag 1 q → 2 * x ≤ 2 * y + mag 1 q → (2 * y = 2 * x + mag 1 q ∨ 2 * x = 2 * y + mag 1 q → z % 2 = 0) →
          ∀ n k p, fdecode f most = .fin n k p →
            (y ≤ mag k p → (∃ k p, fdecode f r.1 = .fin neg k p ∧ -3000 ≤ p ∧ mag k p = y) ∧ r.1 < 2 ^ (1 + f.ebits + f.fbits)
              ∧ r.2 = if y = x then 0 else if x < mag 1 (1 - f.bias) then flUnderflow ||| flInexact else flInexact)
            ∧ (mag k p < y → r = (top, flOverflow ||| flInexact)))
      ∧ (∀ s, fconv f sat .rne (.nan s) = (f.nan, if s = true ∨ f = e2m1 then flInvalid else 0))
      ∧ (f.hasInf = true ∨ f = e4m3 → fconv f sat .rne (.inf neg) =
          (top, if sat = true then flInexact else if f = e4m3 then flInvalid else 0))
      ∧ fconv e2m1 sat .rne (.inf neg) = (if neg then 15 else 7, flInexact))
    ∧ (∀ w ∈ [4, 8, 16, 32, 64],
      let lo : Int := -(2 ^ (w - 1))
      let hi : Int := 2 ^ (w - 1) - 1
      (∀ (neg : Bool) (m : Nat) (e z : Int), -3000 ≤ e →
        let x : Int := if neg then -(mag m e : Int) else mag m e
        let y : Int := z * 2 ^ 3000
        2 * y ≤ 2 * x + 2 ^ 3000 → 2 * x ≤ 2 * y + 2 ^ 3000 → (2 * y = 2 * x + 2 ^ 3000 ∨ 2 * x = 2 * y + 2 ^ 3000 → z % 2 = 0) →
        let r := iconv w .rne (.fin neg m e)
        (lo ≤ z → z ≤ hi → r = ((z % 2 ^ w).toNat, if y = x then 0 else flInexact))
        ∧ (z < lo → r = (2 ^ (w - 1), flOverflow ||| flInexact)) ∧ (hi < z → r = (2 ^ (w - 1) - 1, flOverflow ||| flInexact)))
      ∧ (∀ s, iconv w .rne (.nan s) = (0, flInvalid))
      ∧ iconv w .rne (.inf true) = (2 ^ (w - 1), flInvalid) ∧ iconv w .rne (.inf false) = (2 ^ (w - 1) - 1, flInvalid))
    ∧ ∀ (sat : Bool) (t r v : Nat), t < 8 → r < 8 → v < 2 ^ laneWidth t →
      let ws := laneWidth t
      let wr := laneWidth r
      let sx : Int := if 2 * v < 2 ^ ws then v else (v : Int) - 2 ^ ws
      let int : FVal := .fin (decide (sx < 0)) sx.natAbs 0
      let c := cvtLane sat t r v
      (∀ f h, laneFmt t = some f → laneFmt r = some h → ws < wr ∨ t = r →
        (∀ s, fdecode f v = .nan s → c = (h.nan, if s = true then flInvalid else 0))
        ∧ (∀ n, fdecode f v = .inf n → fdecode h c.1 = .inf n ∧ c.2 = 0)
        ∧ (∀ n k p, fdecode f v = .fin n k p → c.2 = 0 ∧ ∃ k' p', fdecode h c.1 = .fin n k' p' ∧ -3000 ≤ p' ∧ mag k' p' = mag k p))
      ∧ (∀ f h, laneFmt t = some f → laneFmt r = some h → wr ≤ ws → t ≠ r → c = fconv h sat .rne (fdecode f v))
      ∧ (∀ f, laneFmt t = some f → 4 ≤ r → c = iconv wr .rne (fdecode f v))
      ∧ (∀ h, 4 ≤ t → laneFmt r = some h → c = fconv h sat .rne int)
      ∧ (4 ≤ t → 4 ≤ r → ws ≤ wr → c = ((sx % 2 ^ wr).toNat, 0))
      ∧ (4 ≤ t → 4 ≤ r → wr < ws → c = iconv wr .rne int))

/-- R192 to R194, R196, R356: the addresses of VLD, VLDS and VGATH outside the plane windows, and what they load into the
active lanes. Where a lane meets an uncorrectable codeword no lane is written and no flag joins (log entry 9, DESIGN
CHOICE), its address waits in the queue for VECTOR_LOAD_UE, and a frame in hand that holds it is closed. A check that fails
stops the load with memory as it was. R47, R193 to R197: VST and VSCAT, with and without a seed, at the addresses of VLD and
VGATH: a check that fails stops them with memory as it was, so nothing is written before every check has passed; then the
active lanes are converted, to nearest even or by the seed, and written in lane order, with the flags of those conversions.
Outside the plane windows a lane whose bytes no other lane writes holds its element, a nibble leaves the other of its byte,
and no byte beside theirs changes. A byte that comes to lie under a store of the task's other loop-back path keeps what
memory holds (R367; log entry 30, DEDUCED). -/
def Obligations.VectorLoadsAndStores : Prop :=
  (∀ (s s1 : State) (g : Guard) (d v : BitVec 4) (a x : BitVec 5) (m : BitVec 2) (f : BitVec 4) (ps : List (VLane × Nat)),
      s.curTask.guardOk g = true → s.me.vecq.length < 16 → ¬ ((f = 11 ∨ f = 13) ∧ s.domeOnly = true) →
      let y := s.curTask
      let c := y.reg a
      let base := cursor c.bits + y.r64 x
      let w := if f = 0 then 8 else if f = 11 ∨ f = 13 then 64 else 32
      let strided := offsetLanes y m f.toNat (cursor c.bits) fun k => BitVec.ofNat 64 k * y.r64 x
      let on := (List.range (512 / w)).filter fun k => (y.mask m).getLsbD k
      let index (k : Nat) : W64 :=
        let n := laneOf (y.vec v) w k
        BitVec.ofInt 64 (if 2 * n < 2 ^ w then n else (n : Int) - 2 ^ w)
      let got (p : VLane × Nat) : Nat × Flags := if f = 0 then (s1.seenNat p.1.a p.2 1, 0) else loadLane s1 f.toNat p.1 p.2
      let loads (i : Instr) (ls : List VLane) : Prop := (resolveLanes s c permLd f.toNat .load ls = .ok (s1, ps) →
        ((∀ p ∈ ps, laneBad s1 p.1 p.2 = false) → ∃ u fl, QueuedAccess i 4 s (fun x => x.setVec d u) fl none (MemorySame s)
          ∧ (∀ k < 512 / w, laneOf u w k = match ps.find? fun p => p.1.k = k with
              | some p => (got p).1 % 2 ^ w
              | none => laneOf (y.vec d) w k)
          ∧ ∀ j, fl.getLsbD j = true ↔ ∃ p ∈ ps, (got p).2.getLsbD j = true)
        ∧ (∀ p, ps.find? (fun p => laneBad s1 p.1 p.2) = some p →
            Answers i s (enqueued (retire (closeFrames s1 p.2 p.1.n) 4) 0 (some p.1.a))
            ∧ (closeFrames s1 p.2 p.1.n = s1 → QueuedAccess i 4 s id 0 (some p.1.a) (MemorySame s))))
        ∧ ∀ st, resolveLanes s c permLd f.toNat .load ls = .error st → StopsUnwritten i s st
      loads (.vld g d a x m f) (vldLanes m f x y c) ∧ loads (.vlds g d a x m f) strided
      ∧ loads (.vgath g d a v m f) (vgathLanes m f v y c)
      ∧ (f = 0 → (vldLanes m f x y c).map (fun l => (l.k, l.a)) = on.map fun k => (k, base + BitVec.ofNat 64 k))
      ∧ (8 ≤ rawBits f.toNat → planeWin base = none → (vldLanes m f x y c).map (fun l => (l.k, l.a))
          = on.map fun k => (k, base + BitVec.ofNat 64 (k * (rawBits f.toNat / 8))))
      ∧ (f ≠ 0 → rawBits f.toNat ≠ 4 → strided.map (fun l => (l.k, l.a))
          = on.map fun k => (k, cursor c.bits + BitVec.ofNat 64 k * y.r64 x))
      ∧ (f ≠ 0 → rawBits f.toNat ≠ 4 → (vgathLanes m f v y c).map (fun l => (l.k, l.a)) = on.map fun k => (k, cursor c.bits + index k))
      ∧ (rawBits f.toNat = 4 →
          (planeWin base = none → (vldLanes m f x y c).map (fun l => (l.k, l.a, l.nib))
            = on.map fun k => (k, base + BitVec.ofNat 64 (k / 2), some (decide (k % 2 = 1))))
          ∧ (let half (off : Nat → W64) := on.map fun k =>
               (k, cursor c.bits + BitVec.ofInt 64 ((off k).toInt / 2), some (decide ((off k).toNat % 2 = 1)))
             strided.map (fun l => (l.k, l.a, l.nib)) = half (fun k => BitVec.ofNat 64 k * y.r64 x)
             ∧ (vgathLanes m f v y c).map (fun l => (l.k, l.a, l.nib)) = half index)))
  ∧ (∀ (s s1 : State) (g : Guard) (d v : BitVec 4) (a x : BitVec 5) (m : BitVec 2) (f : BitVec 4) (sat : BitVec 1) (seed : BitVec 16)
      (ps : List (VLane × Nat)),
      s.curTask.guardOk g = true → s.me.vecq.length < 16 → ¬ ((f = 11 ∨ f = 13) ∧ s.domeOnly = true) →
      let y := s.curTask
      let c := y.reg a
      let w := if f = 0 then 8 else if f = 11 ∨ f = 13 then 64 else 32
      let owes (x : Task) : Task := if ps = [] then x else owing x
      let val (p : VLane × Nat) : Nat := laneOf (y.vec d) w p.1.k
      let outside : Prop := ∀ p ∈ ps, planeWin p.1.a = none
      let stores (i : Instr) (len : Nat) (sd : Option W16) (ls : List VLane) : Prop :=
        (resolveLanes s c permSt f.toNat .store ls = .ok (s1, ps) →
          let elem (p : VLane × Nat) : Nat × Flags := narrow f.toNat (decide (sat = 1))
            (match sd with | some z => .sr (srDraw z p.1.k) | none => .rne) (val p)
          let all := ps.foldl (fun (r : State × Flags) p =>
            let u := storeLane r.1 f.toNat (decide (sat = 1)) sd (val p) p.1 p.2
            (u.1, r.2 ||| u.2)) (s1, 0)
          QueuedAccess i len s owes (if f = 0 then 0 else all.2) none fun t =>
            (f ≠ 0 → ∀ k, t.byte k = all.1.byte k)
            ∧ (s.loopMine = [] → ∀ p ∈ ps, ∀ k, s.under p.1.a k = false)
            ∧ (f = 0 → (ps.map (·.2)).Nodup → ∀ p ∈ ps, t.byte p.2 = if s.under p.1.a p.2 then s.byte p.2 else BitVec.ofNat 8 (val p))
            ∧ (f ≠ 0 → outside → ∀ p ∈ ps,
              (p.1.nib = none → (∀ q ∈ ps, q ≠ p → q.2 + q.1.n ≤ p.2 ∨ p.2 + p.1.n ≤ q.2) → ∀ k (h : k < (leBytes p.1.n (elem p).1).length),
                t.byte (p.2 + k) = if s.under p.1.a (p.2 + k) then s.byte (p.2 + k) else (leBytes p.1.n (elem p).1)[k])
              ∧ (p.1.nib ≠ none → s.under p.1.a p.2 = true → (∀ q ∈ ps, q ≠ p → q.2 ≠ p.2) → t.byte p.2 = s.byte p.2)
              ∧ ∀ hi, p.1.nib = some hi → s.under p.1.a p.2 = false → (∀ q ∈ ps, q ≠ p → q.2 ≠ p.2) →
                (t.byte p.2).toNat = if hi = true then (s.byte p.2).toNat % 16 + (elem p).1 % 16 * 16
                  else (s.byte p.2).toNat / 16 * 16 + (elem p).1 % 16)
            ∧ (f ≠ 0 → outside → ∀ j, all.2.getLsbD j = true ↔ ∃ p ∈ ps, (elem p).2.getLsbD j = true)
            ∧ (outside → ∀ k, (∀ p ∈ ps, k < p.2 ∨ p.2 + p.1.n ≤ k) → t.byte k = s.byte k))
        ∧ ∀ st, resolveLanes s c permSt f.toNat .store ls = .error st → StopsUnwritten i s st
      stores (.vst g d a x m f sat) 4 none (vldLanes m f x y c)
      ∧ stores (.vstSeed g d a x m f sat seed) 8 (some seed) (vldLanes m f x y c)
      ∧ stores (.vscat g d a v m f sat) 4 none (vgathLanes m f v y c)
      ∧ stores (.vscatSeed g d a v m f sat seed) 8 (some seed) (vgathLanes m f v y c))

/-- R177, R183, R356: the head of a core's vector queue executes, and its flags join FFLAGS; a load that met an uncorrectable
codeword raises MEM_UE asynchronously; a full queue makes a vector instruction wait. -/
def Obligations.VectorQueueExecutesInOrder : Prop :=
  ∀ (s : State) (core : Nat) (e : VecEntry) (es : List VecEntry) (g : Guard) (d a b : BitVec 4) (m : BitVec 2) (t : BitVec 3),
    ((s.core core).vecq = e :: es →
      (e.ue = none → Does (.vectorQueueExecute core) s fun u =>
        (u.core core).vecq = es ∧ (u.task e.task).fflags = (s.task e.task).fflags ||| e.flags)
      ∧ (∀ n, e.ue = some n → (s.task e.task).status ≠ .ended → Does (.vectorLoadUe core) s fun u =>
        (u.core core).vecq = es ∧ ⟨0x15, n⟩ ∈ (u.task e.task).held
        ∧ ((s.die (dieOf (s.task e.task).core)).elogNotify.getLsbD 16 = false →
          (u.task e.task).held = (s.task e.task).held ++ [⟨0x15, n⟩])))
    ∧ ((s.core core).vecq = [] → Answers (.vectorQueueExecute core) s s ∧ Answers (.vectorLoadUe core) s s)
    ∧ (s.curTask.guardOk g = true → t ≠ 3 → 16 ≤ s.me.vecq.length → Answers (.vadd g d a b m t) s (block s .vecq))

/-! The matrix unit and long accumulators (R81 to R84, R198 to R220) -/

/-- R204 to R206: the first three checks of a matrix operand: capability over the footprint, a plane window that holds it, a
granule-aligned cursor. R198, R199, R201, R205, R206, R213, R216, R218, R219: the matrix instructions check their operands,
copy them, register their ranges and enter a tile queue; a full queue makes the task wait; MX.WAIT passes when no operation
of the task on the accumulator stands in the queue; MX.STAT reads a queue, its depth fields at most 8, whether the unit
works on it, whether its head is an MX.RAG that waits for rows, and the rows that the task's oldest MX.RAG there has
processed, by whole row granules. -/
def Obligations.MatrixInstructionsCheckAndEnterTheirQueue : Prop :=
  (∀ (s : State) (g : Guard) (c : BitVec 2) (a e : BitVec 5), s.curTask.guardOk g = true →
      let x := s.curTask
      let d := (x.reg e).bits
      let gm := ((d.extractLsb' 0 7).toNat + 1 + 15) / 16
      let gn := ((d.extractLsb' 7 7).toNat + 1 + 15) / 16
      let pitch := if (d.extractLsb' 16 16).toNat = 0 then gn else (d.extractLsb' 16 16).toNat
      let v := x.reg a
      let at_ := cursor v.bits
      let slot (w : Nat) : Nat := (winOf w).slot
      let len (w : Nat) : Nat := ((gm - 1) * pitch + (gn - 1)) * slot w + (winOf w).foot
      let n := match planeWin at_ with | some w => len w | none => 1
      let inside : Prop := (memBounds v.bits).1 ≤ foldAddr (memBounds v.bits).2 at_.toNat
        ∧ foldAddr (memBounds v.bits).2 at_.toNat + n ≤ (memBounds v.bits).2
      let may : Prop := capPerm v.bits &&& permLd = permLd
      let i : Instr := .mxLda g c a e
      (v.tag ≠ .mem → Traps i s .capTag at_) ∧ (v.tag = .mem → ¬ inside → Traps i s .capBounds at_)
      ∧ (v.tag = .mem → inside → ¬ may → Traps i s .capPerm at_)
      ∧ (v.tag = .mem → inside → may → planeWin at_ = none → Traps i s .window at_)
      ∧ ∀ w, 1 ≤ w → planeWin at_ = some w → v.tag = .mem → inside → may →
        (0x80000 < at_.toNat % 0x100000 + len w → Traps i s .window at_)
        ∧ (at_.toNat % 0x100000 + len w ≤ 0x80000 → at_.toNat % 0x100000 % slot w ≠ 0 → Traps i s .align at_))
  ∧ (∀ (s : State) (g : Guard) (c : BitVec 2) (q : BitVec 1) (a b e : BitVec 5) (seed : BitVec 16), s.curTask.guardOk g = true →
      let x := s.curTask
      let d := (x.reg e).bits
      let gm := ((d.extractLsb' 0 7).toNat + 1 + 15) / 16
      let gn := ((d.extractLsb' 7 7).toNat + 1 + 15) / 16
      let gk := ((d.extractLsb' 16 16).toNat + 1 + 15) / 16
      let pitch := if (d.extractLsb' 16 16).toNat = 0 then gn else (d.extractLsb' 16 16).toNat
      let ra : MxArg := ⟨x.reg a, permLd, gm, gk, gk⟩
      let rb : MxArg := ⟨x.reg b, permLd, gn, gk, gk⟩
      let ld : MxArg := ⟨x.reg a, permLd, gm, pitch, gn⟩
      let st : MxArg := { ld with perm := permSt }
      let tile := x.tiles.getD c.toNat 0
      let free : Prop := s.me.locks = [] ∧ s.me.eps = [] ∧ s.dbg.bp = []
      let f64 (w : Nat) : Prop := w = 11 → (d.extractLsb' 7 7).toNat + 1 ≤ 64 ∧ s.domeOnly = false
      let base (k : MxKind) : MxOp := { newMxOp s k c d with tile := tile, task := s.curTid, desc := d }
      let mxA (o : MxOp) (r : MxArg) : MxOp := { o with winA := r.win, offA := r.off }
      let mxB (o : MxOp) (r : MxArg) : MxOp := { o with winB := r.win, offB := r.off }
      let enters (i : Instr) (len k : Nat) (o : MxOp) (ls : List (MxArg × Bool)) : Prop :=
        ((coreQueue s.me k).length < 8 → ∃ t, exec i s = .next t ∧ Retired len x (t.task s.curTid)
          ∧ OnlyTask (s.onCore s.cur fun y => { setQueue y k (coreQueue y k ++ [{ o with id := y.nextOp }]) with
              nextOp := y.nextOp + 1,
              locks := y.locks ++ ls.map fun r =>
                ⟨y.nextOp, s.curTid, !r.2, true, true, 0, r.1.off, r.1.off + r.1.len⟩ }) t)
        ∧ (8 ≤ (coreQueue s.me k).length → Answers i s (block s .mxq))
      enters (.mxZero g c) 4 0 { newMxOp s .zero c 0 with tile := tile } []
      ∧ (free → mxCheck13 [ra, rb] = .ok () → winClass rb.win = winClass ra.win → f64 ra.win →
        enters (.mxMma g c q a b e) 4 q.toNat (mxB (mxA (base .mma) ra) rb) [(ra, false), (rb, false)]
        ∧ ∀ k, (d.extractLsb' 48 4).toNat < x.barriers → physSlot s.me x.job (d.extractLsb' 48 4).toNat = some k →
          ((s.me.counter k).target = 0 →
            enters (.mxRag g c q a b e) 4 q.toNat { mxB (mxA (base .rag) ra) rb with slot := k } [(rb, false)])
          ∧ ((s.me.counter k).target ≠ 0 →
            Traps (.mxRag g c q a b e) s .barrierId (BitVec.ofNat 64 ((d.extractLsb' 48 4).toNat + 16))))
      ∧ (free → mxCheck13 [ld] = .ok () → f64 ld.win → enters (.mxLda g c a e) 4 0 (mxA (base .lda) ld) [(ld, false)])
      ∧ (free → mxCheck13 [st] = .ok () → f64 st.win → enters (.mxSta g c a e) 4 0 (mxA (base .sta) st) [(st, true)]
        ∧ enters (.mxStaSeed g c a e seed) 8 0 { mxA (base .sta) st with seed := some seed } [(st, true)])
      ∧ (let mine : Prop := ∃ o ∈ coreQueue s.me q.toNat, o.task = s.curTid ∧ o.tile = tile
         (¬ mine → Completes (.mxWait g c q) 4 s id) ∧ (mine → Answers (.mxWait g c q) s (block s (.matrix q.toNat tile))))
      ∧ ∃ v : W64, Completes (.mxStat g q a) 4 s (fun x => x.setReg a ⟨v.setWidth 128, .data⟩)
        ∧ (v.extractLsb' 0 4).toNat = min 8 (coreQueue s.me q.toNat).length
        ∧ (v.extractLsb' 4 4).toNat = min 8 ((coreQueue s.me q.toNat).countP fun o => decide (o.task = s.curTid))
        ∧ v.extractLsb' 32 32 = (if q = 0 then x.retired0 else x.retired1)
        ∧ v.extractLsb' 10 6 = 0 ∧ v.extractLsb' 24 8 = 0
        ∧ (v.getLsbD 8 = true ↔ ∃ o, mxChoice s.me = .unit q.toNat o)
        ∧ (v.getLsbD 9 = true ↔ ∃ o, mxHead s.me q.toNat o ∧ o.kind = .rag ∧ o.started = true ∧ o.work ≤ o.prog)
        ∧ ((∀ o ∈ coreQueue s.me q.toNat, ¬ (o.kind = .rag ∧ o.task = s.curTid)) → v.extractLsb' 16 8 = 0)
        ∧ ∀ pre o post, coreQueue s.me q.toNat = pre ++ o :: post → (∀ p ∈ pre, ¬ (p.kind = .rag ∧ p.task = s.curTid)) → o.kind = .rag →
          o.task = s.curTid →
          let rows := o.prog / (o.gn * o.gk)
          (v.extractLsb' 16 8).toNat = if rows = 0 then 0 else min (o.extent (rows - 1)) (mxM o.desc))

/-- R63, R199 to R202, R207, R209, R212, R214: the unit starts the operation it chooses, an MX.RAG with its counter seen; a
unit of work sets the tile's elements of one granule and no others; a finished operation retires, adds its flags and
releases its ranges, in queue 0 before queue 1; an uncorrectable operand stops it and, in no frame in hand, raises MEM_UE.
Which bytes are operand bytes, and that a stopped operation neither counts nor joins its flags, is log entry 23 (DESIGN
CHOICE). R199, R200: the unit takes the first unfinished operation of queue 0 when it can start or go on, and else that of
queue 1; an operation may start once no earlier one of its task that stands in a queue uses its tile, but for two that only
read it. R76 to R80, R207, R214: an element of a granule triple takes the exact sum of its products, rounded once to the
tile's format, and adds it to the element, rounded once again; integers add modulo 2^32. An element of MX.LDA takes mult ×
x, or itself plus mult × x, rounded once, with the descriptor's sat bit at overflow; integers are rounded, saturated and
added modulo 2^32. R55, R60, R65 to R72, R215, R216: the unit of an MX.STA sets the scale bytes of the granule's rows inside
M × N, for W7 the type of its elements, and each element inside M × N: y = mult × tile(i, j), divided by its scale,
converted once, to nearest even or by the seed with index 128 i + j. No other bit of memory changes. That a W5 element whose
band and scale product is zero is inexact only where it is not itself zero is the model's choice (log entry 32, DEDUCED). -/
def Obligations.MatrixUnitPerformsOneUnitAtATime : Prop :=
  (∀ (s : State) (core q : Nat) (o : MxOp), (coreQueue (s.core core) q).filter (fun e => e.id = o.id) = [o] →
      let c := s.core core
      let rd := s.rd (spadPa core)
      let m := mxM o.desc
      let n := mxN o.desc
      let cl := winClass o.winA
      let width := if cl = .f64 then 64 else 32
      let (gi, gj, gk) := o.triple
      let (li, lj, lg) := o.cell
      let inRow (i hi : Nat) : Prop := 16 * gi ≤ i ∧ i < 16 * gi + 16 ∧ i < hi ∧ i < m
      let works : Prop := mxChoice c = .unit q o ∧ unitBad s core o = none
      let sets (p : Nat → Nat → Prop) (v : Nat → Nat → Nat) : Prop := Does (.matrixTripleBoundary core) s fun u =>
        (∀ i j, i < 128 → j < (if cl = .f64 then 64 else 128) →
          (p i j → tileCode (u.core core) cl o.tile i j = v i j)
          ∧ (¬ p i j → tileCode (u.core core) cl o.tile i j = tileCode c cl o.tile i j))
        ∧ (∀ t k, t ≠ o.tile → k < 16384 → tileWord (u.core core) t k = tileWord c t k) ∧ MemorySame s u
      (mxChoice c = .start q o → q < 2 → Does (.matrixOpStart core) s fun u =>
        ∃ p ∈ coreQueue (u.core core) q, p.id = o.id ∧ p.started = true ∧ (o.kind = .rag →
          p.hw = max o.hw (min ((c.counter o.slot).count.toNat % 2 ^ 31) m)
          ∧ p.sealed_ = (o.sealed_ || (c.counter o.slot).count.getLsbD 31)))
      ∧ (works → o.kind = .zero → Does (.matrixTripleBoundary core) s fun u =>
        ∀ t k, k < 16384 → tileWord (u.core core) t k = if t = o.tile then 0 else tileWord c t k)
      ∧ (works → o.kind = .mma ∨ o.kind = .rag → (cl = .f64 → n ≤ 64) →
        sets (fun i j => inRow i (o.extent gi) ∧ 16 * gj ≤ j ∧ j < 16 * gj + 16 ∧ j < n) fun i j => (tripleElem rd c o gk i j).1 % 2 ^ width)
      ∧ (works → o.kind = .lda → (cl = .f64 → n ≤ 64) →
        sets (fun i j => 16 * li ≤ i ∧ i < 16 * li + 16 ∧ i < m ∧ 16 * lj ≤ j ∧ j < 16 * lj + 16 ∧ j < n)
          fun i j => (ldaElem rd c o lg i j).1 % 2 ^ width)
      ∧ (c.mx0.head? = some o → q = 0 → o.done = true → (s.task o.task).status ≠ .ended →
        Does (.matrixOpRetire core) s fun u => (u.core core).mx0 = c.mx0.filter (fun e => e.id ≠ o.id)
          ∧ (u.task o.task).fflags = (s.task o.task).fflags ||| o.flags
          ∧ (u.task o.task).retired0 = (s.task o.task).retired0 + 1
          ∧ ∀ l ∈ (u.core core).locks, ¬ (l.matrix = true ∧ l.op = o.id))
      ∧ (c.mx1.head? = some o → q = 1 → o.done = true → (∀ e, c.mx0.head? = some e → e.done = false) →
        (s.task o.task).status ≠ .ended → Does (.matrixOpRetire core) s fun u => (u.core core).mx1 = c.mx1.filter (fun e => e.id ≠ o.id)
          ∧ (u.task o.task).fflags = (s.task o.task).fflags ||| o.flags
          ∧ (u.task o.task).retired1 = (s.task o.task).retired1 + 1
          ∧ ∀ l ∈ (u.core core).locks, ¬ (l.matrix = true ∧ l.op = o.id))
      ∧ ∀ v, mxChoice c = .unit q o → unitBad s core o = some v → q < 2 → (s.task o.task).status ≠ .ended →
        let frames := c.eps.filter fun p => p.2.owner = some o.task && p.2.status.live && match p.2.inHand with
          | some f => decide (f.2.1 ≤ v.toNat % 0x100000 ∧ v.toNat % 0x100000 < f.2.2)
          | none => false
        Does (.matrixOperandUe core) s fun u =>
          (frames = [] → ⟨0x15, v⟩ ∈ (u.task o.task).held
            ∧ ((s.die (dieOf (s.task o.task).core)).elogNotify.getLsbD 16 = false →
              (u.task o.task).held = (s.task o.task).held ++ [⟨0x15, v⟩]))
          ∧ (∀ e ∈ coreQueue (u.core core) q, e.id ≠ o.id) ∧ Answers (.matrixTripleBoundary core) s s)
  ∧ (∀ (c : Core) (o : MxOp),
      let free (o : MxOp) : Prop := o.started = false ∧ ∀ e ∈ c.mx0 ++ c.mx1, e.id < o.id → e.task = o.task → e.tile = o.tile →
        e.kind = .sta ∧ o.kind = .sta
      let goes (o : MxOp) : Prop := o.started = true ∧ o.finished = false ∧ o.prog < o.work
      let idle (q : Nat) : Prop := ∀ o, mxHead c q o → ¬ goes o ∧ ¬ free o
      (mxHead c 0 o → (goes o → mxChoice c = .unit 0 o) ∧ (¬ goes o → free o → mxChoice c = .start 0 o))
      ∧ (idle 0 → mxHead c 1 o → (goes o → mxChoice c = .unit 1 o) ∧ (¬ goes o → free o → mxChoice c = .start 1 o))
      ∧ (idle 0 → idle 1 → mxChoice c = .none))
  ∧ (let mag (m : Nat) (e : Int) (q : Int) : Nat := m * 2 ^ (e + q).toNat
    let sg (neg : Bool) (n : Nat) : Int := if neg then -(n : Int) else n
    let units (v : FVal) : Int := match v with | .fin n m p => sg n (mag m p 3000) | _ => 0
    let fine (v : FVal) : Prop := ∃ n m p, v = .fin n m p ∧ -3000 ≤ p
    let signed (u : Nat) : Int := if 2 * u < 2 ^ 32 then u else (u : Int) - 2 ^ 32
    (∀ u v : FVal, (fmul u v).1.isNan = true ↔ u.isNan = true ∨ v.isNan = true
      ∨ (∃ n m k p, (u = .inf n ∧ v = .fin m k p ∧ k = 0) ∨ (v = .inf n ∧ u = .fin m k p ∧ k = 0)))
    ∧ (∀ (rd : Nat → Byte) (c : Core) (o : MxOp) (gk i j : Nat), gk < (mxK o.desc + 15) / 16 →
      let cl := winClass o.winA
      let f := if cl = .f64 then fp64 else fp32
      let a (k : Nat) : FVal := operandElem rd o.winA o.offA o.desc 64 32 ((mxK o.desc + 15) / 16) i k
      let b (k : Nat) : FVal := operandElem rd o.winB o.offB o.desc 96 38 ((mxK o.desc + 15) / 16) j k
      let prod (k : Nat) : FVal := (fmul (a k) (b k)).1
      let ks := (List.range (mxK o.desc)).filter fun k => k / 16 = gk
      let fresh : Prop := o.desc.getLsbD 44 = true ∧ gk = 0
      let old := tileCode c cl o.tile i j
      let r := tripleElem rd c o gk i j
      (cl = .int → ∀ x y : Nat → Int, (∀ k ∈ ks, a k = .fin (decide (x k < 0)) (x k).natAbs 0 ∧ b k = .fin (decide (y k < 0)) (y k).natAbs 0) →
        r = ((((if fresh then 0 else signed old) + (ks.map fun k => x k * y k).sum) % 2 ^ 32).toNat, 0))
      ∧ (cl ≠ .int → ∃ z : FVal × Flags,
        let s := fconv f false .rne z.1
        let t := fadd (if fresh then .fin false 0 0 else fdecode f old) (fdecode f s.1)
        r = ((fconv f false .rne t.1).1, s.2 ||| z.2 ||| ((fconv f false .rne t.1).2 ||| t.2))
        ∧ ((∃ k ∈ ks, (prod k).isNan = true) ∨ (∃ k ∈ ks, prod k = .inf true) ∧ (∃ k ∈ ks, prod k = .inf false) → z = (.nan false, flInvalid))
        ∧ (∀ n, (∀ k ∈ ks, (prod k).isNan = false) → (∃ k ∈ ks, prod k = .inf n) → (∀ k ∈ ks, prod k ≠ .inf (!n)) → z = (.inf n, 0))
        ∧ ((∀ k ∈ ks, fine (a k) ∧ fine (b k)) → z.2 = 0 ∧ ∃ n m p, z.1 = .fin n m p ∧ -6000 ≤ p
          ∧ sg n (mag m p 6000) = (ks.map fun k => units (a k) * units (b k)).sum
          ∧ (m = 0 → (n = true ↔ ∀ k ∈ ks, ∃ p, prod k = .fin true 0 p)))))
    ∧ ∀ (rd : Nat → Byte) (c : Core) (o : MxOp) (g i j : Nat),
      let w := o.winA
      let cl := winClass w
      let f := if cl = .f64 then fp64 else fp32
      let x0 := elemValue rd w g (16 * (i % 16) + j % 16)
      let x := if w = 5 then (fmul x0 (mxBand o.desc 96 i)).1 else x0
      let code := (o.desc.extractLsb' 64 32).toNat
      let mult := fdecode fp32 (if code = 0 then 0x3F800000 else code)
      let add := o.desc.getLsbD 33
      let sat := o.desc.getLsbD 32
      let old := tileCode c cl o.tile i j
      let r := ldaElem rd c o g i j
      (cl = .int → fine mult → fine x → ∃ n m p, -6000 ≤ p ∧ sg n (mag m p 6000) = units mult * units x
        ∧ r = (if add = true then (old + (iconv 32 .rne (.fin n m p)).1) % 2 ^ 32 else (iconv 32 .rne (.fin n m p)).1,
            (iconv 32 .rne (.fin n m p)).2))
      ∧ (cl ≠ .int → fine mult → fine x → (add = true → fine (fdecode f old)) → ∃ n m p, -6000 ≤ p
        ∧ sg n (mag m p 6000) = units mult * units x + (if add = true then units (fdecode f old) * 2 ^ 3000 else 0)
        ∧ (m = 0 → add = true → (n = true ↔ (∃ p, fdecode f old = .fin true 0 p) ∧ ∃ p, (fmul mult x).1 = .fin true 0 p))
        ∧ (m = 0 → add = false → ∃ p, (fmul mult x).1 = .fin n 0 p)
        ∧ r = fconv f sat .rne (.fin n m p))
      ∧ (cl ≠ .int → mult.isNan = true ∨ x.isNan = true ∨ (add = true ∧ (fdecode f old).isNan = true) → r.1 = f.nan)
      ∧ ∀ n, cl ≠ .int → (fmul mult x).1 = .inf n → (add = true → (fdecode f old).isNan = false ∧ fdecode f old ≠ .inf (!n)) →
        r = ((if n = true then 2 ^ (f.ebits + f.fbits) else 0) + f.emax * 2 ^ f.fbits, 0))
  ∧ (∀ (s : State) (core q : Nat) (o : MxOp), (coreQueue (s.core core) q).filter (fun e => e.id = o.id) = [o] →
      mxChoice (s.core core) = .unit q o → o.kind = .sta → 1 ≤ o.winA → o.winA ≤ 11 →
      let w := o.winA
      let cl := winClass w
      let m := mxM o.desc
      let n := mxN o.desc
      let sat := o.desc.getLsbD 32
      let (gi, gj, g) := o.cell
      let at_ := spadPa core + g
      let f := winFmt w (o.desc.getLsbD 34)
      let ints : Bool := w = 8 || w = 9
      let sig := (winOf w).sig
      let code := (o.desc.extractLsb' 64 32).toNat
      let mult := fdecode fp32 (if code = 0 then 0x3F800000 else code)
      let y (i j : Nat) : FVal × Flags := fmul mult (tileVal (s.core core) cl o.tile i j)
      let band (i : Nat) : FVal := mxBand o.desc 96 i
      let most (i lo hi : Nat) : Nat := ((List.range n).filter fun j => lo ≤ j && decide (j < hi)).foldl (fun a j =>
        match (y i j).1 with | .fin _ k p => max a (k * 2 ^ (p + 3000).toNat) | _ => a) 0
      let md (i j : Nat) : Rounding := match o.seed with | some z => .sr (srDraw z (128 * i + j)) | none => .rne
      let held (i j : Nat) : Prop := 16 * gi ≤ i ∧ i < 16 * gi + 16 ∧ 16 * gj ≤ j ∧ j < 16 * gj + 16 ∧ i < m ∧ j < n
      let planes := if ints then sig else 2 + f.ebits + f.fbits
      let scales := if w = 7 then 288 else 160
      let spot (i j p : Nat) : Nat := at_ + 32 * p + (16 * (i % 16) + j % 16) / 8
      unitBad s core o = none → (cl = .f64 → n ≤ 64) → Does (.matrixTripleBoundary core) s fun u =>
        let scale (i j : Nat) : Nat := (u.byte (at_ + scales + (if w = 5 then 2 * (i % 16) + j % 16 / 8 else i % 16))).toNat
        let res (i j : Nat) : Nat × Flags :=
          if ints then iconv sig (md i j) (y i j).1
          else if w = 11 then fconv fp64 false (md i j) (y i j).1
          else if w = 6 ∨ w = 7 then fconv f sat (md i j) (match (y i j).1 with
            | .fin ny k p => .fin ny k (p - ((scale i j : Int) - 127))
            | v => v)
          else if w = 5 then match (fmul (e3m5 (scale i j)) (band i)).1, (y i j).1 with
            | .fin nb b e, .fin ny k p => if b = 0 then (if ny = true then 8 else 0, if k = 0 then 0 else flInexact)
              else roundFin e2m1 sat (md i j) (nb != ny) k b (p - e)
            | .fin nb b _, .inf ny => fconv e2m1 sat (md i j) (.inf ((nb && decide (b ≠ 0)) != ny))
            | _, v => fconv e2m1 sat (md i j) v
          else fconv f sat (md i j) (y i j).1
        let bit (i j p : Nat) : Bool :=
          if ints then (res i j).1.testBit (sig - 1 - p)
          else if p ≤ f.ebits then (res i j).1.testBit (f.fbits + f.ebits - p)
          else if p = 1 + f.ebits then decide ((res i j).1 / 2 ^ f.fbits % 2 ^ f.ebits ≠ 0)
          else (res i j).1.testBit (f.fbits - 1 - (p - 2 - f.ebits))
        (∀ i j, held i j → ∀ p < planes, (u.byte (spot i j p)).getLsbD (j % 8) = bit i j p)
        ∧ (∃ e ∈ coreQueue (u.core core) q, e.id = o.id ∧ e.prog = o.prog + 1 ∧ ∀ t, e.flags.getLsbD t = true ↔ o.flags.getLsbD t = true
          ∨ ∃ i j, held i j ∧ ((res i j).2 ||| (y i j).2).getLsbD t = true)
        ∧ (w = 6 ∨ w = 7 → ∀ i, held i (16 * gj) →
          let a := most i (gj / 2 * 32) (gj / 2 * 32 + 32)
          (a = 0 → scale i 0 = 127) ∧ ∀ l : Nat, 2 ^ l ≤ a → a < 2 ^ (l + 1) →
            (scale i 0 : Int) = max 0 (min 254 ((l : Int) - 3000 - (if w = 6 then 2 else if o.desc.getLsbD 34 then 15 else 8) + 127)))
        ∧ (w = 5 → ∀ i t, t < 2 → held i (16 * gj + 8 * t) → ∀ nb b e, band i = .fin nb b e →
          let a := most i (16 * gj + 8 * t) (16 * gj + 8 * t + 8)
          let z := scale i (8 * t)
          let by_ (c : Nat) : Nat := match e3m5 c with | .fin _ k p => 6 * k * b * 2 ^ (p + e + 3000).toNat | _ => 0
          (a = 0 ∨ b = 0 → z = 0) ∧ (a ≠ 0 → b ≠ 0 → 0 < z ∧ z ≤ 254 ∧ (∀ c, 0 < c → c < z → by_ c < a) ∧ (z < 254 → a ≤ by_ z)))
        ∧ (w = 7 → u.byte (at_ + 304) = if o.desc.getLsbD 34 then 1 else 0)
        ∧ (∀ x t, (∀ i j p, held i j → p < planes → x = spot i j p → t ≠ j % 8) →
          (∀ i j, held i j → w = 6 ∨ w = 7 → x ≠ at_ + scales + i % 16) →
          (∀ i j, held i j → w = 5 → x ≠ at_ + scales + 2 * (i % 16) + j % 16 / 8) → (w = 7 → x ≠ at_ + 304) →
          (u.byte x).getLsbD t = (s.byte x).getLsbD t)
        ∧ (∀ i j p, held i j → p < planes → u.tagAt (spot i j p) = .data)
        ∧ ∀ x, x + 16 ≤ at_ ∨ at_ + (winOf w).foot + 16 ≤ x → u.tagAt x = s.tagAt x)

/-- R81 to R84, R220: the long accumulators: LA.CLR clears the window; LA.ADD and LA.ADDV add the exact multiple of 2^-320,
nothing for a NaN or an infinity, which set invalid; LA.MRG adds two windows modulo 2^640; LA.RND rounds N × 2^-320 once. Each works on
memory itself: what the task stored through its global scratchpad address is performed first (R367; log entry 30, DEDUCED). -/
def Obligations.LongAccumulatorsAddExactly : Prop :=
  ∀ (s : State) (g : Guard) (a b d f : BitVec 5) (v : BitVec 4), s.curTask.guardOk g = true →
    s.me.locks = [] → s.me.eps = [] → s.dbg.bp = [] →
    let ok (c : GVal) (perm : Byte) : Prop :=
      let e := (cursor c.bits).toNat
      c.tag = .mem ∧ capPerm c.bits &&& perm = perm ∧ (memBounds c.bits).1 ≤ foldAddr (memBounds c.bits).2 e
        ∧ foldAddr (memBounds c.bits).2 e + 80 ≤ (memBounds c.bits).2 ∧ e + 80 ≤ 0x80000 ∧ e % 16 = 0
        ∧ Clean s (spadPa s.cur + e) 80
    let place (r : BitVec 5) : Nat := spadPa s.cur + (cursor (s.curTask.reg r).bits).toNat
    let value (r : BitVec 5) : Int :=
      let n := s.readNat (place r) 80
      if 2 * n < 2 ^ 640 then n else (n : Int) - 2 ^ 640
    let holds (n : Int) (t : State) : Prop :=
      Wrote s t (place a) (leBytes 80 (n % 2 ^ 640).toNat) ∧ Tagged s t (place a) 80 .data
    let fm := if f = 0xA then fp32 else if f = 2 then fp16 else bf16
    let unit (z : FVal) : Int := match z with
      | .fin neg m e => (if neg then -1 else 1) * ((m * 2 ^ (e + 320).toNat : Nat) : Int)
      | _ => 0
    let bad (z : FVal) : Flags := match z with | .fin _ _ _ => 0 | _ => flInvalid
    let z := fdecode fm ((s.curTask.r64 b).toNat % 2 ^ fm.width)
    let zs := (List.range (512 / fm.width)).map fun k => fdecode fm (laneOf (s.curTask.vec v) fm.width k)
    let both := permLd ||| permSt
    (ok (s.curTask.reg a) both → AccessCompletes (.laClr g a) s id (holds 0)
      ∧ AccessCompletes (.laAdd g f a b) s (fun x => x.addFlags (bad z)) (holds (value a + unit z))
      ∧ AccessCompletes (.laAddv g f a v) s (fun x => x.addFlags (zs.foldl (fun y z => y ||| bad z) 0))
          (holds (value a + (zs.map unit).sum))
      ∧ (ok (s.curTask.reg b) permLd → AccessCompletes (.laMrg g a b) s id (holds (value a + value b))))
    ∧ (ok (s.curTask.reg a) permLd →
      let r := fconv fm s.curTask.sat .rne (.fin (decide (value a < 0)) (value a).natAbs (-320))
      f = 2 ∨ f = 1 ∨ f = 0xA → AccessCompletes (.laRnd g d a f) s
        (fun x => (x.addFlags r.2).setReg d ⟨BitVec.ofNat 128 r.1, .data⟩) (MemorySame s))

/-! Channels (R222 to R262, R399 to R401) -/

/-- R232 to R234: the checks of a channel instruction in order: an ENDP, of this core, of the task's own slot, live under its
generation, with the permission, neither CLOSED nor CLOSING nor still BOUND. -/
def Obligations.EndpointChecksInOrder : Prop :=
  ∀ (s : State) (g : Guard) (d a b : BitVec 5), s.curTask.guardOk g = true →
    let v := s.curTask.reg a
    let w := v.bits.extractLsb' 0 64
    let l := endpLoc v.bits
    let e := s.ep s.cur l.ep
    let valid : Prop := v.tag = .endp ∧ endpValid v.bits = true
    let here : Prop := l.at_ = s.here s.cur
    let live : Prop := e.status ≠ .free ∧ e.gen = l.gen
    let foreign : Prop := live ∧ e.owner.isSome = true ∧ e.owner ≠ some s.curTid ∧ s.curTask.sup.priv = false
    let checks (i : Instr) (may : Bool) : Prop :=
      (¬ valid → Traps i s .capTag w) ∧ (valid → ¬ here → Traps i s .capPerm w)
      ∧ (valid → here → foreign → Traps i s .capPerm w)
      ∧ (valid → here → ¬ live → Traps i s .chClosed (BitVec.ofNat 64 (7 * 2 ^ 5)))
      ∧ (valid → here → live → ¬ foreign →
        (may = false → Traps i s .capPerm w)
        ∧ (may = true → (e.status = .closed → Traps i s .chClosed e.closeWord)
          ∧ (e.status = .closing → Traps i s .chClosed (e.word 7 0))
          ∧ (e.status = .bound → Traps i s .proto (BitVec.ofNat 64 (e.state.toNat + 2 ^ 5 * 4)))))
    checks (.chSend g a b) (v.bits.getLsbD 120) ∧ checks (.chSelect g a b) (v.bits.getLsbD 120)
    ∧ checks (.chRecv g d a) (v.bits.getLsbD 121) ∧ checks (.chOffer g d a) (v.bits.getLsbD 121)
    ∧ checks (.chAccept g d a) (v.bits.getLsbD 121) ∧ checks (.chDeleg g a b) (v.bits.getLsbD 120) ∧ checks (.chSync g a) true

/-- R227, R236, R239, R240, R242, R246: a send follows the transition of the named state: it waits for a permit, traps with a
full send queue or outside the protocol, and otherwise enters its message, raises the sent count and moves the state. A begin action takes
its count from the word, from the select word, or from the first four bytes of the payload, and refuses one outside its range; CH.SELECT
refuses a label that is not in the state; a delegation record holds what R246 lists. -/
def Obligations.ChannelSendsFollowTheProtocol : Prop :=
  ∀ (s s1 : State) (g : Guard) (a b : BitVec 5) (n m : Nat) (t : W32) (p q : EpLoc) (len : Nat) (ps : List (Nat × Nat)),
    s.curTask.guardOk g = true →
    let v := s.curTask.reg a
    let e := s.ep s.cur n
    let x := s.curTask.reg b
    let y := s.ep s.cur m
    let own (v : GVal) (n : Nat) : Prop := v.tag = .endp ∧ endpValid v.bits = true ∧ endpLoc v.bits = s.epLoc s.cur n
      ∧ (s.ep s.cur n).owner = some s.curTid ∧ (s.ep s.cur n).status.live = true
    let entry (op : Nat) (src : List (Nat × Nat)) (c : ChBody) : SendEntry :=
      ⟨⟨s.here s.cur, p.at_, false, 0, .chan p (s.epLoc s.cur n) none c⟩, s.curTid, op, src, none⟩
    let queued (s : State) : Nat := (s.me.sendq.filter fun e => e.arrive.isNone).length
    let ready : Prop := e.status = .connected ∧ e.permits ≠ 0 ∧ queued s < 16 ∧ e.peer = some p
    let sent (i : Instr) (s1 : State) (en : SendEntry) (count : BitVec 17) : Prop := Does i s fun u =>
      (u.core s.cur).sendq = (s1.core s.cur).sendq ++ [en]
      ∧ u.ep s.cur n = { (s1.ep s.cur n).take t count with sent := (s1.ep s.cur n).sent + 1 }
      ∧ ∃ z, Counted s.curTask z ∧ Retired 4 z (u.task s.curTid)
    let counts (c : BitVec 17) : Prop := tLop t = 1 → 0 < c.toNat ∧ c.toNat ≤ 0x10000
    let c17 : BitVec 17 := x.bits.extractLsb' 0 17
    let l17 : BitVec 17 := x.bits.extractLsb' 32 17
    let ty : BitVec 6 := x.bits.extractLsb' 0 6
    let refused (reason : Nat) (ty : BitVec 6) : W64 := BitVec.ofNat 64 (e.state.toNat + 2 ^ 5 * reason + 2 ^ 8 * ty.toNat)
    own v n → v.bits.getLsbD 120 = true →
    (e.find false 0 none = none → Traps (.chSend g a b) s .proto (e.state.setWidth 64))
    ∧ (e.find false 1 none = none → Traps (.chSelect g a b) s .proto (e.state.setWidth 64))
    ∧ (e.find false 0 none = some t → tShape t = 0 → ¬ counts c17 → Traps (.chSend g a b) s .proto (refused 3 (tType t)))
    ∧ (e.find false 1 none ≠ none → e.find false 1 (some ty) = none → Traps (.chSelect g a b) s .proto (refused 1 ty))
    ∧ (e.find false 1 (some ty) = some t → e.find false 1 none ≠ none → ¬ counts l17 →
      Traps (.chSelect g a b) s .proto (refused 3 (tType t)))
    ∧ (e.find false 0 none = some t → tShape t = 0 → counts c17 →
      (e.status = .resync ∨ e.permits = 0 → Answers (.chSend g a b) s (block s (.chan n)))
      ∧ (e.status = .connected → e.permits ≠ 0 → 16 ≤ queued s → ∀ w, encode (.chSend g a b) = [w] →
        Traps (.chSend g a b) s .sendqFull (w.setWidth 64))
      ∧ (ready → sent (.chSend g a b) s (entry 0 [] (.data (tType t) 0 (x.bits.extractLsb' 0 64) (if tLop t = 1 then c17 else 0) []))
        c17))
    ∧ (e.find false 0 none = some t → tShape t ≠ 0 → payloadLen e t x = .ok len →
      check1 x permLd (cursor x.bits) len false = .ok () → rangePieces s (cursor x.bits) len = .ok (s1, ps) → ready →
      s1.curTid = s.curTid → s1.cur = s.cur → queued s1 < 16 → s1.ep s.cur n = e →
      let send (c : BitVec 17) : Prop := sent (.chSend g a b) s1 (entry s1.me.nextOp ps (.data (tType t) (tShape t) 0 c [])) c
      let first : BitVec 17 := BitVec.ofNat 17 (leNat (pieceBytes s1 (firstBytes 4 ps)))
      (tLop t ≠ 1 → ∃ c, sent (.chSend g a b) s1 (entry s1.me.nextOp ps (.data (tType t) (tShape t) 0 0 [])) c)
      ∧ (tLop t = 1 → (∀ p ∈ firstBytes 4 ps, Clean s1 p.1 p.2) →
        (0 < first.toNat → first.toNat ≤ 0x10000 → send first)
        ∧ (first.toNat = 0 ∨ 0x10000 < first.toNat → Answers (.chSend g a b) s
            (raise s1 s.curTid .proto (refused 3 (tType t)) false))))
    ∧ (e.find false 1 (some ty) = some t → e.find false 1 none ≠ none → counts l17 → ready →
      sent (.chSelect g a b) s (entry 0 [] (.label ty (if tLop t = 1 then l17 else 0))) l17)
    ∧ (e.find false 2 none = some t → ready → own x m → x.bits.getLsbD 122 = true → y.status = .connected → m ≠ n →
      y.peer = some q → isGlobal x = true ∨ p.at_ = s.here s.cur →
      (y.buf ≠ [] → Traps (.chDeleg g a b) s .delegBusy (BitVec.ofNat 64 (m + 2 ^ 6 * min y.buffered 15)))
      ∧ (y.buf = [] → Does (.chDeleg g a b) s fun u =>
        (u.ep s.cur m).status = .closing ∧ (u.ep s.cur m).forwarding = true ∧ (u.ep s.cur m).owner = none
        ∧ (u.ep s.cur n).sent = e.sent + 1
        ∧ ∃ r : DelegRec, (u.core s.cur).sendq = s.me.sendq ++ [entry 0 [] (.deleg (tType t) r)]
          ∧ r = ⟨y.image, y.state.toNat, y.loop0, y.loop1, y.sent, y.returned,
              y.consumed + BitVec.ofNat 32 (y.retDue.length + if y.inHand.isSome then 1 else 0), q, y.peerL, s.epLoc s.cur m⟩))

/-- R227, R235, R241 to R244, R251: CH.RECV and CH.OFFER take the message at the head by the transition of its type; a word arrives as
DATA, a payload as a MEM capability with LD alone over exactly its bytes in the frame, which is then in hand, a label as its type; the
frame that was in hand is given up first, and its return is due; an uncorrectable error in the payload closes the channel with reason 2. With no message, or before the mark of a slot that moved, the task
waits; another kind or type is refused. -/
def Obligations.ChannelReceivesConsumeTheHead : Prop :=
  ∀ (s : State) (g : Guard) (d a : BitVec 5) (n i : Nat) (t : W32) (b : ChBody) (p : EpLoc), s.curTask.guardOk g = true →
    let v := s.curTask.reg a
    let e := s.ep s.cur n
    let (k, ty, c) := msgKind b
    let own : Prop := v.tag = .endp ∧ endpValid v.bits = true ∧ endpLoc v.bits = s.epLoc s.cur n ∧ e.owner = some s.curTid
      ∧ e.status = .connected ∧ v.bits.getLsbD 121 = true
    let due := e.retDue ++ (match e.inHand with | some f => [f] | none => [])
    let ready : Prop := e.oldSlot = none
    let z := frameSize e.image
    let o := e.bufBase.toNat + i * z
    let still : Prop := e.link = none ∧ e.trig = none ∧ (∀ p ∈ s.tasks, p.2.wait ≠ some (.chan n))
    let waits (u : State) : Prop := (u.task s.curTid).status = .waitMsg ∧ (u.task s.curTid).wait = some (.chan n)
      ∧ (u.task s.curTid).pcc = s.curTask.pcc ∧ u.ep s.cur n = { e with inHand := none, retDue := due }
    let takes (u : State) : Prop :=
      let f := u.ep s.cur n
      f.state = (e.take t c).state ∧ f.loop0 = (e.take t c).loop0 ∧ f.loop1 = (e.take t c).loop1 ∧ f.buf = []
      ∧ f.lastType = ty ∧ f.sent = e.sent ∧ f.status = .connected ∧ f.retDue = due
    own →
    (e.find true 0 none = none → Traps (.chRecv g d a) s .proto (e.state.setWidth 64))
    ∧ (e.find true 1 none = none → Traps (.chOffer g d a) s .proto (e.state.setWidth 64))
    ∧ (e.find true 0 none ≠ none → e.buf = [] → Does (.chRecv g d a) s waits)
    ∧ (e.find true 1 none ≠ none → e.buf = [] → Does (.chOffer g d a) s waits)
    ∧ (e.find true 0 none ≠ none → e.oldSlot ≠ none → Does (.chRecv g d a) s waits)
    ∧ (ready → e.buf = [⟨b, i, false⟩] → e.find true 0 none ≠ none → k ≠ 0 →
      Traps (.chRecv g d a) s .proto (BitVec.ofNat 64 (e.state.toNat + 2 ^ 8 * ty.toNat)))
    ∧ (ready → e.buf = [⟨b, i, false⟩] → e.find true k none ≠ none → k = 0 → e.find true 0 (some ty) = none →
      Traps (.chRecv g d a) s .proto (BitVec.ofNat 64 (e.state.toNat + 2 ^ 5 + 2 ^ 8 * ty.toNat)))
    ∧ (ready → e.buf = [⟨b, i, false⟩] → e.find true k none ≠ none → e.find true k (some ty) = some t → still →
      (∀ w cnt, b = .data ty 0 w cnt [] → Does (.chRecv g d a) s fun u => takes u
        ∧ Retired 4 (s.curTask.setReg d ⟨w.setWidth 128, .data⟩) (u.task s.curTid)
        ∧ (u.ep s.cur n).inHand = some (i, o, o + z) ∧ (u.ep s.cur n).consumed = e.consumed)
      ∧ (∀ sh cnt bs, b = .data ty sh 0 cnt bs → sh ≠ 0 → o + bs.length ≤ 0x80000 →
        (Clean s (spadPa s.cur + o) bs.length → ∃ v : GVal, v.tag = .mem ∧ capPerm v.bits = permLd ∧ isGlobal v = false
          ∧ memBounds v.bits = (o, o + bs.length) ∧ cursor v.bits = BitVec.ofNat 64 (o + (if 12 ≤ sh.toNat then 0 else sh.toNat * 0x100000))
          ∧ Does (.chRecv g d a) s fun u => takes u ∧ Retired 4 (s.curTask.setReg d v) (u.task s.curTid)
            ∧ (u.ep s.cur n).inHand = some (i, o, o + z) ∧ (u.ep s.cur n).consumed = e.consumed)
        ∧ (¬ Clean s (spadPa s.cur + o) bs.length →
          Answers (.chRecv g d a) s (raise (failClose s s.cur n 2 0 s.curTid) s.curTid .chClosed (e.word 2 0) false)))
      ∧ (∀ cnt, b = .label ty cnt → e.peer = some p → p.at_.chip = s.chip → Does (.chOffer g d a) s fun u => takes u
        ∧ Retired 4 (s.curTask.setReg d ⟨ty.setWidth 128, .data⟩) (u.task s.curTid)
        ∧ (u.ep s.cur n).consumed = e.consumed + 1 ∧ (u.ep s.cur n).inHand = none
        ∧ u.net = s.net ++ [⟨s.here s.cur, p.at_, true, 0, .slotReturn p (returnWord (e.consumed + 1) e.gen)⟩]))

/-- R222, R230, R237, R238, R246, R247, R252 to R256: CH.NEW refuses by code, in the order of codes 5, 1, 2, 3 and 4, or makes the
lowest FREE slot BOUND with its image and buffer, where an image is valid as R226 lists; CH.CONN sends its connect message
and waits for the answer; CH.ACCEPT takes the delegated slot over; CH.CLOSE, CH.SYNC, CH.STAT and CH.FREE. -/
def Obligations.ChannelEndsOpenAndClose : Prop :=
  ∀ (s : State) (g : Guard) (d a b : BitVec 5) (n m i : Nat) (img : Image) (t : W32) (r : DelegRec) (ty : BitVec 6) (p : EpLoc),
    s.curTask.guardOk g = true →
    let v := s.curTask.reg a
    let x := s.curTask
    let e := s.ep s.cur n
    let peer := x.reg b
    let own : Prop := v.tag = .endp ∧ endpValid v.bits = true ∧ endpLoc v.bits = s.epLoc s.cur n ∧ e.owner = some s.curTid
    let room : Prop := (s.me.sendq.filter fun e => e.arrive.isNone).length < 16
    let c := (cursor v.bits).toNat
    let states := (s.seenByte (cursor v.bits) (spadPa s.cur + c + 2)).toNat
    let il := if 1 ≤ states ∧ states ≤ 32 then 16 + 32 * states else 16
    let at0 := cursor v.bits
    let bs := s.seen at0 (spadPa s.cur + c) il
    let imageAt : Prop := v.tag = .mem ∧ capPerm v.bits &&& permLd = permLd ∧ c % 16 = 0 ∧ c + il ≤ 0x80000
      ∧ (memBounds v.bits).1 ≤ foldAddr (memBounds v.bits).2 c
      ∧ foldAddr (memBounds v.bits).2 c + il ≤ (memBounds v.bits).2 ∧ s.me.locks = [] ∧ s.dbg.bp = []
      ∧ (∀ q ∈ s.me.eps, q.2.bufSize = 0) ∧ Clean s (spadPa s.cur + c) il
    let frame := frameSize img
    let z := img.la * frame
    let at_ := (cursor peer.bits).toNat
    let bufFits : Prop := z = 0 ∨ (at_ < 0x100000 ∧ at_ % frame = 0 ∧ at_ + z ≤ 0x80000)
    let some_ : Prop := x.high = false ∧ heldSlots s.me s.curTid < x.endpoints
    let refused (k : Nat) : Prop :=
      AccessCompletes (.chNew g d a b) s (fun x => x.setReg d ⟨BitVec.ofNat 128 k, .data⟩) (MemorySame s)
    let still : Prop := e.link = none ∧ e.trig = none ∧ e.inHand = none ∧ e.retDue = []
      ∧ ∀ p ∈ s.tasks, ∀ k, p.2.wait ≠ some (.chan k)
    let slot (u : State) (k : Nat) (st : EpStatus) (im : Image) : Prop := (u.ep s.cur k).status = st ∧ (u.ep s.cur k).image = im
      ∧ (u.ep s.cur k).owner = some s.curTid ∧ (u.ep s.cur k).gen = (s.ep s.cur k).gen
    (∀ l : List Byte, ImageRead l)
    ∧ (s.loopMine = [] → bs = s.readBytes (spadPa s.cur + c) il)
    ∧ (imageAt → parseImage bs = .ok img → (z ≠ 0 → check1 peer (permLd ||| permSt) (cursor peer.bits) z false = .ok ()) →
      (x.high = true → refused 5) ∧ (x.high = false → x.endpoints ≤ heldSlots s.me s.curTid → refused 1)
      ∧ (some_ → freeEp s.me = none → refused 2)
      ∧ (some_ → freeEp s.me = some m → ¬ bufFits → refused 4)
      ∧ (some_ → freeEp s.me = some m → bufFits → Does (.chNew g d a b) s fun u => slot u m .bound img
        ∧ (∀ k < m, (s.ep s.cur k).status ≠ .free) ∧ (u.ep s.cur m).state = 0 ∧ (u.ep s.cur m).sent = 0
        ∧ (u.ep s.cur m).bufSize = BitVec.ofNat 20 z ∧ (z ≠ 0 → (u.ep s.cur m).bufBase = BitVec.ofNat 19 at_)
        ∧ Retired 4 (x.setReg d (endpCap true true true true (s.epLoc s.cur m))) (u.task s.curTid)))
    ∧ (imageAt → ∀ fault, parseImage bs = .error fault → some_ → freeEp s.me = some m → refused (3 + 2 ^ 8 * fault))
    ∧ (own → e.connTo = none → e.status = .bound → peer.tag = .endp → endpValid peer.bits = true → isGlobal peer = true →
      room → Does (.chConn g a b) s fun u => (u.task s.curTid).status = .waitMsg
        ∧ (u.task s.curTid).pcc = x.pcc ∧ (u.ep s.cur n).connTo = some (endpLoc peer.bits)
        ∧ (u.core s.cur).sendq = s.me.sendq ++ [⟨⟨s.here s.cur, (endpLoc peer.bits).at_, false, 0,
            .connect (endpLoc peer.bits) (s.epLoc s.cur n) e.image⟩, s.curTid, 0, [], none⟩]
        ∧ (u.ep s.cur n).connBy = some s.curTid)
    ∧ (own → e.connTo ≠ none → e.connBy = some s.curTid → (∀ k, e.answer = some (.ok k) → Does (.chConn g a b) s fun u =>
        (u.ep s.cur n).connTo = none ∧ Retired 4 x (u.task s.curTid))
      ∧ (e.answer = none → Answers (.chConn g a b) s (block s (.chan n))))
    ∧ (own → e.oldSlot = none → v.bits.getLsbD 121 = true → e.status = .connected → e.find true 2 none ≠ none → e.find true 2 (some ty) = some t →
      e.buf = [⟨.deleg ty r, i, false⟩] → still → freeEp s.me = some m → heldSlots s.me s.curTid < x.endpoints → frameSize r.image = 0 →
      Does (.chAccept g d a) s fun u => slot u m .connected r.image
        ∧ (u.ep s.cur m).state = BitVec.ofNat 5 r.state ∧ (u.ep s.cur m).sent = r.sent ∧ (u.ep s.cur m).consumed = r.consumed
        ∧ (u.ep s.cur m).peer = some r.peer ∧ (u.ep s.cur m).oldSlot = some r.old
        ∧ Retired 4 (x.setReg d (endpCap true true true true (s.epLoc s.cur m))) (u.task s.curTid))
    ∧ (own → e.status = .connected → e.hasClose = true → room → e.peer = some p → Does (.chClose g a) s fun u =>
      (u.ep s.cur n).status = .closing ∧ (u.ep s.cur n).closeWord = e.word 0 0 ∧ Retired 4 x (u.task s.curTid)
      ∧ (u.core s.cur).sendq = s.me.sendq ++ [⟨⟨s.here s.cur, p.at_, false, 0,
          .chan p (s.epLoc s.cur n) none (.close (e.word 0 0) s.curTid)⟩, s.curTid, 0, [], none⟩])
    ∧ (own → e.status = .closed → e.hasClose = true → e.ownClose = false → wordReason e.closeWord = 0 → Completes (.chClose g a) 4 s id)
    ∧ (own → e.status = .connected → e.syncing = true → Does (.chSync g a) s fun u =>
      (u.ep s.cur n).syncing = false ∧ Retired 4 x (u.task s.curTid))
    ∧ (own → e.status = .connected → e.syncing = false → Does (.chSync g a) s fun u => (u.ep s.cur n).status = .resync
      ∧ (u.ep s.cur n).rsSeq = e.rsSeq + 1 ∧ (u.task s.curTid).status = .waitMsg ∧ (u.task s.curTid).pcc = x.pcc)
    ∧ (own → e.status ≠ .free → ∃ w : W128, Completes (.chStat g d a) 4 s (fun x => x.setReg d ⟨w, .data⟩)
      ∧ (w.extractLsb' 0 3).toNat = e.status.code ∧ w.extractLsb' 3 5 = e.state ∧ w.extractLsb' 8 6 = e.lastType)
    ∧ (own → e.status = .bound ∨ e.status = .closed → (∀ p ∈ s.tasks, ∀ k, p.2.wait ≠ some (.chan k)) → Does (.chFree g a) s fun u =>
      (u.ep s.cur n).status = .free ∧ (u.ep s.cur n).gen = e.gen + 1 ∧ Retired 4 x (u.task s.curTid))

/-- R231, R236, R240, R244, R251, R255, R399: a message leaves the send queue and reaches its slot in a free buffer slot; a close
at the head closes the slot, which acknowledges; an acknowledgement or the peer's own close ends CLOSING; a failure notification
closes at once; returned frames and slot returns, from the peer's slot or one it moved away from (R251; log entry 21). -/
def Obligations.ChannelMessagesTravelAndArrive : Prop :=
  ∀ (s : State) (core k n f : Nat) (m : Msg) (x : SendEntry) (xs : List SendEntry) (l src p : EpLoc) (via : Option EpLoc) (b : ChBody)
    (w : W64) (gt : BitVec 48),
    let c := l.at_.core
    let e := s.ep c l.ep
    let gone (u : State) : Prop := u.net = s.net.eraseIdx k
    let arrives (b : Body) : Prop := arrivable s k = some m ∧ m.body = b ∧ e.status ≠ .free ∧ e.gen = l.gen
    let still : Prop := e.link = none ∧ e.trig = none ∧ e.oldSlot = none ∧ e.forwarding = false
      ∧ ∀ p ∈ s.tasks, p.2.wait ≠ some (.chan l.ep)
    ((s.core core).sendq = x :: xs → x.arrive = none → x.src = [] → x.msg.dst.chip = s.chip → (s.task x.task).status ≠ .ended →
      routerRoom s { x.msg with body := withPayload x.msg.body [] } = true → Does (.sendQueueInject core) s fun u => (u.core core).sendq = xs
        ∧ u.net = s.net ++ [{ x.msg with body := withPayload x.msg.body [] }]
        ∧ (u.task x.task).unacked = (s.task x.task).unacked ++ [⟨4⟩])
    ∧ ((s.core core).sendq = x :: xs → x.arrive = none → x.src = [] →
      routerRoom s { x.msg with body := withPayload x.msg.body [] } = false → Answers (.sendQueueInject core) s s)
    ∧ (∀ i, (s.core core).sendq = x :: xs → x.arrive = some (i, n) → (s.task x.task).core = core →
      ((s.core core).counter n).trig = none → ((s.core core).counter n).target = 0 →
      Does (.sendQueueInject core) s fun u => (u.core core).sendq = xs
        ∧ ((u.core core).counter n).count = ((s.core core).counter n).count + 1
        ∧ (u.task x.task).arrived = (s.task x.task).arrived ||| (1#16 <<< i))
    ∧ ((s.core core).sendq = [] → Answers (.sendQueueInject core) s s)
    ∧ (arrives (.chan l src via b) → isFlow b = true → payloadOf b = [] → still → e.status = .connected → freeFrames e ≠ [] →
      (∀ y ∈ e.buf, y.held = false ∧ isFlow y.body = true) → Does (.channelMessageArrival k) s fun u =>
        gone u ∧ ∃ i ∈ freeFrames e, (u.ep c l.ep).buf = e.buf ++ [⟨b, i, false⟩] ∧ (u.ep c l.ep).status = .connected)
    ∧ (arrives (.chan l src via (.close w gt)) → still → e.status = .connected → e.buf = [] → e.owner ≠ some peerOwner →
      e.peer = some p → p.at_.chip = s.chip → Does (.closeMessageArrival k) s fun u =>
        (u.ep c l.ep).status = .closed ∧ (u.ep c l.ep).closeWord = w ∧ (u.ep c l.ep).closeGtid = gt
        ∧ u.net = s.net.eraseIdx k ++ [⟨s.here c, p.at_, true, 0, .closeAck p⟩])
    ∧ (arrives (.chan l src via (.close w gt)) → still → e.status = .closing → e.buf = [] → Does (.closeMessageArrival k) s fun u =>
        gone u ∧ (u.ep c l.ep).status = .closed ∧ (u.ep c l.ep).closeWord = e.closeWord)
    ∧ (arrives (.closeAck l) → still → e.status = .closing → e.buf = [] → Does (.closeAckArrival k) s fun u =>
        gone u ∧ (u.ep c l.ep).status = .closed ∧ (u.ep c l.ep).closeWord = e.closeWord)
    ∧ (arrives (.failure l w gt) → still → e.status = .connected → e.owner ≠ some peerOwner → e.buf = [] →
      Does (.failureNotification k) s fun u => gone u ∧ (u.ep c l.ep).status = .closed ∧ (u.ep c l.ep).closeWord = w)
    ∧ (arrives (.slotReturn l w) → still → e.status = .connected → e.peer = some p →
      crc16 (leBytes 6 w.toNat) = w.extractLsb' 48 16 → (∃ g ∈ p.gen :: e.former, w.extractLsb' 32 16 = g.setWidth 16) →
      (e.sent - w.setWidth 32).toNat < 2 ^ 31 → ((w.setWidth 32 : W32) - e.returned).toNat < 2 ^ 31 →
      Does (.slotReturn k) s fun u => gone u ∧ u.ep c l.ep = { e with returned := w.setWidth 32 })
    ∧ (l.at_.core = core → l.ep = n → e.retDue = [(f, 0, 0)] → frameIdle s core n (f, 0, 0) = true → e.status = .connected →
      holderAway s e = false → e.peer = some p → p.at_.chip = s.chip → e.forwarding = false → Does (.slotReturnSend core n) s fun u =>
        (u.ep core n).retDue = [] ∧ (u.ep core n).consumed = e.consumed + 1
        ∧ u.net = s.net ++ [⟨s.here core, p.at_, true, 0, .slotReturn p (returnWord (e.consumed + 1) e.gen)⟩])

/-- R228, R238, R251, R254, R390, R400, R401: a connect message is answered by duality, state by state, or as closed where no live slot of a core in service is
named, and the answer connects the sender; a resync
word that balances reconnects the slot and its timeout closes it; MOVED redirects the peer, the mark ends forwarding at the old
slot and holding at the new one; a reply-sink entry frees. -/
def Obligations.ChannelsConnectResyncAndMove : Prop :=
  ∀ (s : State) (core k n i : Nat) (m : Msg) (l src p new : EpLoc) (img : Image) (w : W128),
    let c := l.at_.core
    let e := s.ep c l.ep
    let arrives (b : Body) : Prop := arrivable s k = some m ∧ m.body = b ∧ e.status ≠ .free ∧ e.gen = l.gen
    let still : Prop := e.link = none ∧ e.trig = none ∧ ∀ p ∈ s.tasks, p.2.wait ≠ some (.chan l.ep)
    let answers (r : ConnAns) (u : State) : Prop := u.net = s.net.eraseIdx k ++ [⟨s.here c, src.at_, true, 0, .connAns src r⟩]
    (∀ a b : Image, DualAnswer a b)
    ∧ (arrives (.connect l src img) → s.harvested c = false → ¬ (src.at_ = l.at_ ∧ src.ep = l.ep) → e.status = .bound →
      src.at_.chip = s.chip →
      (dual img e.image = none → Does (.connectArrival k) s fun u => answers (.ok e.image.la) u
        ∧ u.ep c l.ep = { e with status := .connected, peer := some src, peerL := img.la })
      ∧ (∀ st r, dual img e.image = some (st, r) → Does (.connectArrival k) s fun u =>
        answers (.mismatch (BitVec.ofNat 3 r) (BitVec.ofNat 5 st)) u ∧ u.ep c l.ep = { e with connRefused := true }))
    ∧ (arrives (.connect l src img) → s.harvested c = false → src.at_ = l.at_ → src.ep = l.ep → src.at_.chip = s.chip →
      Does (.connectArrival k) s (answers (.mismatch 2 0)))
    ∧ (arrivable s k = some m → m.body = .connect l src img → src.at_.chip = s.chip → s.harvested c = true ∨ slotLive s l = false →
      Does (.connectArrival k) s (answers .closed))
    ∧ (arrives (.connAns l (.ok i)) → still → e.connTo = some p → e.status = .bound → Does (.connectAnswer k) s fun u =>
        u.net = s.net.eraseIdx k
        ∧ u.ep c l.ep = { e with status := .connected, peer := some p, peerL := i, answer := some (.ok i) })
    ∧ (arrives (.resync l w) → still → e.forwarding = false → e.status = .resync → crc32c (leBytes 12 w.toNat) = w.extractLsb' 96 32 →
      w.extractLsb' 72 2 = e.rsSeq → (w.extractLsb' 0 32 : W32) = e.consumed + BitVec.ofNat 32 e.occ →
      (e.sent - w.extractLsb' 32 32).toNat < 2 ^ 31 → e.peer = some p →
      let f := s.ep p.at_.core p.ep
      let other : Prop := p.at_.core ≠ c ∨ p.ep ≠ l.ep
      let back (u : State) : Prop := (u.ep c l.ep).status = .connected ∧ (u.ep c l.ep).returned = w.extractLsb' 32 32
      (p.at_.chip ≠ s.chip → Does (.resyncWord k) s back)
      ∧ (p.at_.chip = s.chip → other → slotLive s p = true → ∀ q, balanceOf f = some (some q) → Does (.resyncWord k) s fun u =>
        back u ∧ (u.ep p.at_.core p.ep).status = .connected ∧ (u.ep p.at_.core p.ep).returned = q)
      ∧ (p.at_.chip = s.chip → other → balanceOf f = none → Does (.resyncWord k) s fun u =>
        (u.ep c l.ep).status = .resync ∧ ∃ y, (u.ep c l.ep).rsPeer = some y ∧ y.consumed = w.extractLsb' 32 32))
    ∧ (l.at_.core = core → l.ep = n → e.status = .resync → 65536 ≤ (s.timebase - e.rsSince).toNat → e.owner ≠ some peerOwner →
      e.buf = [] → still → Does (.resyncTimeout core n) s fun u => (u.ep core n).status = .closed
        ∧ wordReason (u.ep core n).closeWord = 3)
    ∧ (arrives (.moved l new) → e.status = .connected → e.forwarding = false → e.peer = some p → p.at_.chip = s.chip →
      Does (.movedArrival k) s fun u => (u.ep c l.ep).peer = some new ∧ (u.ep c l.ep).former = p.gen :: e.former
        ∧ u.net = s.net.eraseIdx k ++ [⟨s.here c, p.at_, false, 0, .mark p new⟩])
    ∧ (arrives (.mark l new) → new ≠ l → e.forwarding = true → e.status = .closing → e.oldSlot = none → e.fwdQueue = [] →
      e.retDue = [] → e.fwdTo = none → new.at_.chip = s.chip → still → Does (.markArrivalOld k) s fun u =>
        (u.ep c l.ep).status = .free ∧ (u.ep c l.ep).gen = e.gen + 1
        ∧ u.net = s.net.eraseIdx k ++ [⟨s.here c, new.at_, false, 0, .mark new new⟩])
    ∧ (arrives (.mark l l) → e.forwarding = false → e.status = .connected → still → e.fwdQueue = [] → e.fwdHeld = [] →
      (∀ y ∈ e.buf, isFlow y.body = true) → Does (.markArrivalNew k) s fun u =>
        (u.ep c l.ep).oldSlot = none ∧ (u.ep c l.ep).buf = e.buf.map fun y => { y with held := false })
    ∧ (arrivable s k = some m → m.body = .sinkRelease → (∀ p ∈ s.tasks, p.2.wait ≠ some .sink) →
      Does (.replySinkRelease k) s fun u => u.net = s.net.eraseIdx k
        ∧ (u.core m.dst.core).sink = (s.core m.dst.core).sink.erase m.src)

/-- R28, R260 to R262: BIND makes a counter trigger that fires when the count reaches its number, an endpoint trigger that fires when
enough messages are buffered, or a counter link of an endpoint; an armed trigger whose condition already holds posts one task-creating
message and disarms; a message that reaches a linked head is consumed at once and adds its word to the counter; UNBIND removes it.
That UNBIND of a MEM or ENTRY selector does nothing is the model's choice (log entry 21, DEDUCED). -/
def Obligations.BindingsArmAndFire : Prop :=
  ∀ (s : State) (g : Guard) (d a b : BitVec 5) (k n : Nat), s.curTask.guardOk g = true →
    let x := s.curTask
    let fired (y : TaskDesc) (sel en : GVal) (count : Nat) : Prop := y.entry = en ∧ y.job = x.job
      ∧ y.args = [sel, ⟨BitVec.ofNat 128 count, .data⟩]
    let sel := x.reg a
    let w := sel.bits.extractLsb' 0 64
    let en := x.reg b
    let f := if (x.r64 d).toNat % 2 ^ 16 = 0 then 1 else (x.r64 d).toNat % 2 ^ 16
    let c := s.me.counter k
    let slot : Prop := sel.tag = .data ∧ (w.extractLsb' 0 4).toNat < x.barriers
      ∧ physSlot s.me x.job (w.extractLsb' 0 4).toNat = some k
    let entry : Prop := en.tag = .entry ∧ (entrySv en.bits = true → x.sup.priv = true)
    let trigger (armed : Bool) : Trigger := ⟨en, sel, f, armed, x.job, x.asid, s.curTid, s.me.nextOp⟩
    (slot → w.getLsbD 10 = false → entry → (c.count - BitVec.ofNat 32 f).toNat ≥ 2 ^ 31 → Does (.bind g d a b) s fun u =>
      (u.core s.cur).counter k = { c with fire := BitVec.ofNat 16 f, trig := some (trigger true) } ∧ u.net = s.net
      ∧ Retired 4 x (u.task s.curTid))
    ∧ (slot → w.getLsbD 10 = false → entry → (c.count - BitVec.ofNat 32 f).toNat < 2 ^ 31 → Does (.bind g d a b) s fun u =>
      (u.core s.cur).counter k = { c with fire := BitVec.ofNat 16 f, trig := some (trigger false) }
      ∧ (u.job x.job).count = (s.job x.job).count + 1 ∧ Retired 4 x (u.task s.curTid)
      ∧ ∃ q y, u.net = s.net ++ [q] ∧ q.dst = s.here s.cur ∧ q.body = .task y 0
        ∧ fired y ⟨BitVec.ofNat 128 (w.toNat % 16), .data⟩ en c.count.toNat)
    ∧ (let f16 := max 1 (min ((x.r64 d).toNat % 2 ^ 16) (s.ep s.cur n).image.la)
       sel.tag = .endp → endpValid sel.bits = true → endpLoc sel.bits = s.epLoc s.cur n → (s.ep s.cur n).owner = some s.curTid →
       (s.ep s.cur n).status = .connected → entry →
       ((s.ep s.cur n).buffered < f16 → Does (.bind g d a b) s fun u =>
        u.ep s.cur n = { s.ep s.cur n with trig := some { trigger true with f := f16 } } ∧ u.net = s.net
        ∧ Retired 4 x (u.task s.curTid))
       ∧ (f16 ≤ (s.ep s.cur n).buffered → Does (.bind g d a b) s fun u =>
        u.ep s.cur n = { s.ep s.cur n with trig := some { trigger false with f := f16 } }
        ∧ (u.job x.job).count = (s.job x.job).count + 1 ∧ Retired 4 x (u.task s.curTid)
        ∧ ∃ q y, u.net = s.net ++ [q] ∧ q.dst = s.here s.cur ∧ q.body = .task y 0 ∧ fired y sel en ((s.ep s.cur n).buffered % 2 ^ 64)))
    ∧ (∀ (i : Nat) (m : Msg) (l src p : EpLoc) (via : Option EpLoc) (q : Nat) (t : W32) (ty : BitVec 6) (word : W64) (cnt : BitVec 17),
       let r := l.at_.core
       let e := s.ep r l.ep
       let h := (s.core r).counter q
       let count := h.count + word.setWidth 32
       arrivable s i = some m → m.body = .chan l src via (.data ty 0 word cnt []) → e.status = .connected → e.gen = l.gen →
       e.oldSlot = none → e.forwarding = false → e.trig = none → e.buf = [] → freeFrames e ≠ [] → holderAway s e = false →
       e.peer = some p → p.at_.chip = s.chip → e.link = some q → h.trig = none → e.find true 0 (some ty) = some t → tShape t = 0 →
       Does (.channelMessageArrival i) s fun u =>
        (u.ep r l.ep).buf = [] ∧ (u.ep r l.ep).state = (e.take t cnt).state ∧ (u.ep r l.ep).consumed = e.consumed + 1
        ∧ (u.ep r l.ep).lastType = ty
        ∧ ((u.core r).counter q).count = (if h.target ≠ 0 ∧ count = h.target then 0 else count)
        ∧ ((u.core r).counter q).phase = (if h.target ≠ 0 ∧ count = h.target then !h.phase else h.phase)
        ∧ u.net = s.net.eraseIdx i ++ [⟨s.here r, p.at_, true, 0, .slotReturn p (returnWord (e.consumed + 1) e.gen)⟩])
    ∧ (slot → w.getLsbD 10 = false → en.tag ≠ .entry → Traps (.bind g d a b) s .capTag (en.bits.extractLsb' 0 64))
    ∧ (slot → w.getLsbD 10 = true → (w.extractLsb' 4 6).toNat = n → (s.ep s.cur n).status = .connected →
      (s.ep s.cur n).owner = some s.curTid → (s.ep s.cur n).buf = [] → (s.ep s.cur n).trig = none →
      (∀ p ∈ s.tasks, p.2.wait ≠ some (.chan n)) → Does (.bind g d a b) s fun u =>
        u.ep s.cur n = { s.ep s.cur n with link := some k } ∧ Retired 4 x (u.task s.curTid))
    ∧ (slot → w.getLsbD 10 = false → Does (.unbind g a) s fun u =>
      (u.core s.cur).counter k = { c with trig := none, fire := 0 } ∧ Retired 4 x (u.task s.curTid))
    ∧ (slot → w.getLsbD 10 = true → (w.extractLsb' 4 6).toNat = n → (s.ep s.cur n).owner = some s.curTid →
      (s.ep s.cur n).link = some k → Does (.unbind g a) s fun u => (u.ep s.cur n).link = none ∧ Retired 4 x (u.task s.curTid))
    ∧ (sel.tag = .mem ∨ sel.tag = .entry → Traps (.bind g d a b) s .capTag w ∧ Completes (.unbind g a) 4 s id)

/-! Tasks and the spire (R143, R257 to R265, R295 to R320) -/

/-- R257 to R259, R263 to R265, R312, R390: SPAWN and AM count the task before its message leaves and carry what the table says;
LAUNCH hands its record to the spire and returns the answer; JOBQ reads the count; iteration pools give the upper half of the
oldest range. An AM argument without GLOBAL traps CAP_PERM with its register, the first of them in order. That no created task is
pinned, also in a PINNED launch's job (R50), is the model's choice (log entry 22, DESIGN CHOICE). -/
def Obligations.TaskCreationAndPools : Prop :=
  ∀ (s s1 : State) (g : Guard) (d a b : BitVec 5) (n : BitVec 3) (pa : Nat), s.curTask.guardOk g = true →
    let x := s.curTask
    let w := x.r64 a
    let en := x.reg b
    let dst := (placeOf w).1
    let desc (args : List GVal) (am : Bool) : TaskDesc := ⟨en, args, x.job, x.asid, s.here s.cur, s.curTid, am, false, 0, false, none⟩
    let msg (reply : Bool) (t : TaskDesc) : Msg := ⟨s.here s.cur, dst, reply, 0, .task t w⟩
    let named : Prop := (placeOf w).2 = true
    let sealed_ : Prop := en.tag = .entry ∧ ((named ∧ dst = s.here s.cur) ∨ isGlobal en = true)
      ∧ (entrySv en.bits = true → x.sup.priv = true)
    let there : Prop := named ∧ (dst.chip = s.chip → s.harvested dst.core = false)
    let room : Prop := (s.me.sendq.filter fun e => e.arrive.isNone).length < 16
    let args := (List.range n.toNat).map fun i => x.reg (BitVec.ofNat 5 (d.toNat + i))
    let counted (u : State) : Prop := (u.job x.job).count = (s.job x.job).count + 1
    let c := clusterOf s.cur
    let pools := (s.cluster c).pools
    let p := (x.r64 a).toNat % 16
    let lo : W32 := (x.r64 b).extractLsb' 0 32
    let hi : W32 := (x.r64 b).extractLsb' 32 32
    (sealed_ → entryHl en.bits = false → there → room → Does (.spawn g a b) s fun u => counted u ∧ Retired 4 x (u.task s.curTid)
      ∧ (u.core s.cur).sendq = s.me.sendq ++ [⟨msg false (desc [] false), s.curTid, 0, [], none⟩])
    ∧ (sealed_ → entryHl en.bits = true → Traps (.spawn g a b) s .capPerm (en.bits.extractLsb' 0 64))
    ∧ (∀ i < n.toNat, sealed_ → (∀ k < i, isGlobal (x.reg (BitVec.ofNat 5 (d.toNat + k))) = true) →
      isGlobal (x.reg (BitVec.ofNat 5 (d.toNat + i))) = false →
      Traps (.am g d a b n) s .capPerm (BitVec.ofNat 64 (d.toNat + i)))
    ∧ (sealed_ → entryHl en.bits = false → ¬ there → Traps (.spawn g a b) s .busError w)
    ∧ (sealed_ → (∀ v ∈ args, isGlobal v = true) → there → room → s.me.sink.length < 64 → ¬ (x.high = true ∧ x.replyTo = some dst) →
      Does (.am g d a b n) s fun u => counted u ∧ Retired 4 x (u.task s.curTid) ∧ (u.core s.cur).sink = s.me.sink ++ [dst]
        ∧ (u.core s.cur).sendq = s.me.sendq ++ [⟨msg false (desc args true), s.curTid, 0, [], none⟩])
    ∧ (sealed_ → (∀ v ∈ args, isGlobal v = true) → there → x.high = true → x.replyTo = some dst → dst.chip = s.chip →
      Does (.am g d a b n) s fun u => counted u ∧ u.net = s.net ++ [msg true (desc args false)]
        ∧ (u.task s.curTid).replyTo = none ∧ (u.task s.curTid).unacked = x.unacked ++ [⟨4⟩])
    ∧ (x.answer = none → (∀ r ∈ s.spire.requests, r.task ≠ s.curTid) →
      (let v := x.reg a
       resolve s v permLd (cursor v.bits) 64 64 .load false = .ok (s1, .mem pa) → Clean s pa 64 → Does (.launch g d a) s fun u =>
        (u.task s.curTid).status = .waitMsg ∧ (u.task s.curTid).pcc = x.pcc
        ∧ ∃ t0 t1, u.spire.requests = s.spire.requests ++ [⟨s.curTid, s.readBytes pa 64, t0, t1, x.sup.priv⟩]))
    ∧ (∀ v, x.answer = some v → (v.extractLsb' 62 2).toNat ≠ 1 →
      Completes (.launch g d a) 4 s (fun x => { x with answer := none }.setReg d ⟨v.setWidth 128, .data⟩))
    ∧ (let k := (s.job ((x.r64 a).setWidth 32)).count
       Completes (.jobq g d a) 4 s (fun x => x.setReg d ⟨BitVec.ofNat 128 (k % 2 ^ 48), .data⟩))
    ∧ (hi.toNat ≤ lo.toNat → Completes (.ipGive g a b) 4 s id)
    ∧ (lo.toNat < hi.toNat → (pools.filter fun r => r.pool = p).length < 8 → Does (.ipGive g a b) s fun u =>
      (u.cluster c).pools = pools ++ [⟨p, x.job, lo, hi⟩] ∧ Retired 4 x (u.task s.curTid))
    ∧ (lo.toNat < hi.toNat → 8 ≤ (pools.filter fun r => r.pool = p).length → Answers (.ipGive g a b) s (block s .pool))
    ∧ ((∀ r ∈ pools, ¬ (r.pool = p ∧ r.job = x.job)) → Completes (.ipTake g d a) 4 s (fun x => x.setReg d .zero))
    ∧ ∀ pre r post, pools = pre ++ r :: post → (∀ q ∈ pre, ¬ (q.pool = p ∧ q.job = x.job)) → r.pool = p → r.job = x.job →
      (∀ q ∈ s.tasks, q.2.wait ≠ some .pool) → r.first.toNat < r.last.toNat →
      let m : W32 := r.last - BitVec.ofNat 32 ((r.last.toNat - r.first.toNat + 1) / 2)
      Does (.ipTake g d a) s fun u => Retired 4 (x.setReg d ⟨(r.last ++ m).setWidth 128, .data⟩) (u.task s.curTid)
        ∧ (u.cluster c).pools = pre ++ (if m = r.first then [] else [{ r with last := m }]) ++ post

/-- R50, R257, R305 to R307, R309, R311, R319, R418: a task message enters a run queue that has room; the head is admitted when
all it declares is free, with its registers and region as at creation; a quantum ends; a task ships with its state and is queued
at its home; an unreachable destination answers with an error. That a message of a job being killed is dropped as it arrives is what a
kill drops (R318; log entry 22, DEDUCED). -/
def Obligations.TasksArriveAreAdmittedAndMove : Prop :=
  ∀ (s : State) (core k j : Nat) (m : Msg) (d : TaskDesc) (w h : W64) (rest : List RunEntry) (r : Grant) (t : BitVec 48)
    (v : Saved) (die home : Nat),
    let y := s.core core
    let tid := mkGtid s.chip core y.serial
    let quiet : Prop := ∀ k, (s.core k).slog.ctl.getLsbD 0 = false
    let x := s.task t
    (arrivable s k = some m → m.body = .task d w → m.reply = false → entryHl d.entry.bits = false → s.harvested m.dst.core = false →
      (s.coreUp m.dst.core = true → freeRun (s.core m.dst.core) ≠ 0 →
        ((s.job d.job).state ≠ .killing → Does (.taskMessageArrival k) s fun u => u.net = s.net.eraseIdx k
          ∧ (u.core m.dst.core).runBase = (s.core m.dst.core).runBase ++ [.desc d])
        ∧ ((s.job d.job).state = .killing → d.am = false → Answers (.taskMessageArrival k) s { s with net := s.net.eraseIdx k }))
      ∧ (s.coreUp m.dst.core = false ∨ freeRun (s.core m.dst.core) = 0 → Answers (.taskMessageArrival k) s s))
    ∧ (y.towerOf = none → s.coreUp core = true → y.runHigh = [] → y.runBase = .desc d :: rest → jobHeld s d.job = false →
      headerOf s core d.asid d.entry.bits = some h → grantFor s core d.job h none = some r → y.gov.kind = .active → quiet →
      Does (.taskAdmission core) s fun u =>
        let z := u.task tid
        let n := (h.extractLsb' 32 20).toNat
        (u.core core).runBase = rest ∧ (u.core core).serial = y.serial + 1
        ∧ z.job = d.job ∧ z.asid = d.asid ∧ z.khdr = h ∧ z.core = core ∧ z.tiles = r.tiles ∧ z.spadBase = r.spad
        ∧ z.pcc = ⟨permEx ++ d.entry.bits.extractLsb' 0 120, .mem⟩ ∧ z.sup.priv = entrySv d.entry.bits ∧ z.p = 1
        ∧ z.mask 0 = BitVec.allOnes 64 ∧ z.reg 1 = exactCap (permLd ||| permSt ||| permLdcap ||| permStcap ||| permAtom) r.spad n
            (BitVec.ofNat 64 r.spad)
        ∧ (∀ i < 6, z.reg (BitVec.ofNat 5 (2 + i)) = d.args.getD i .zero) ∧ (∀ i, 8 ≤ i → i < 32 → z.reg (BitVec.ofNat 5 i) = .zero)
        ∧ ∀ a, spadPa core + r.spad ≤ a → a < spadPa core + r.spad + n → u.byte a = 0)
    ∧ (y.towerOf ≠ none → Answers (.taskAdmission core) s s)
    ∧ (∀ i l, y.slotBase = some t → y.slotHigh = none → y.readyHigh = [] → y.towerOf = none → x.core = core → x.high = false →
      y.suspBy = none → x.status = .running → x.tower = [] → y.readyBase = i :: l → t ∉ i :: l → i ∉ l →
      (65536 ≤ (s.timebase - x.since).toNat → Does (.quantumExpiry core) s fun u => (u.core core).slotBase = some i
        ∧ (u.core core).readyBase = l ++ [t] ∧ (u.task t).status = .ready ∧ (u.task i).status = .running)
      ∧ ((s.timebase - x.since).toNat < 65536 → Answers (.quantumExpiry core) s s))
    ∧ (t = BitVec.ofNat 48 j → x.ship = some (die, home) → x.status = .waitMsg → drained s t = true →
      (∀ p ∈ s.tasks, p.1 ≠ t.toNat → p.2.status ≠ .waitMsg) → Does (.migrationShip j) s fun u => u.task t = Task.none
        ∧ ∃ v, u.ships = s.ships ++ [(die * 80 + home, v)] ∧ v.task.gtid = x.gtid ∧ v.task.job = x.job ∧ v.task.pcc = x.pcc
          ∧ v.task.g = x.g ∧ v.task.v = x.v ∧ v.task.arrived = x.arrived)
    ∧ (s.ships[k]? = some (home, v) → shipCore s v home = some j → Does (.migrationArrival k) s fun u =>
      u.ships = s.ships.eraseIdx k ∧ (u.core j).runBase = (s.core j).runBase ++ [.saved v])
    ∧ (s.net[k]? = some m → m.body = .task d w → m.dst.chip ≠ s.chip → podFibre s m.dst.chip = none →
      Does (.podPortDiscard k) s fun u => u.net = s.net.eraseIdx k ++ [⟨m.dst, m.src, true, 0, .podError d w⟩])
    ∧ (arrivable s k = some m → m.body = .podError d w → d.am = false → (s.task d.by_).status ≠ .ended →
      Does (.podErrorReply k) s fun u => u.net = s.net.eraseIdx k ∧ (u.job d.job).count = (s.job d.job).count - 1
        ∧ (u.task d.by_).held = (s.task d.by_).held ++ [⟨0x18, w⟩])

/-- R263, R295 to R301, R303 to R305, R313, R314, R317, R318, R356: the spire answers a LAUNCH, numbers the active cores of its partition,
deals every group once to the core that its mode names, in order and when that core's report shows room, reads host records, and
carries out job commands; a command while one is in progress is lost. A host record in an uncorrectable codeword is refused with
reason 1 (log entry 26, DESIGN CHOICE). -/
def Obligations.SpireLaunchesDealsAndCommands : Prop :=
  ∀ (s : State) (core ℓ j : Nat) (job : W32) (r : LaunchReq) (rs : List LaunchReq) (l : Launch) (v : W64) (t : BitVec 48) (die : Nat),
    let f := recFields r.bytes
    let entry : GVal := ⟨BitVec.ofNat 128 (fieldOf r.bytes 0 16), r.tag0⟩
    let valid : Prop := entry.tag = .entry ∧ entryHl entry.bits = false ∧ entrySv entry.bits = false
      ∧ (spireHeader s (launchAsid s r) entry.bits).isSome = true
    let answers (a : W64) (u : State) : Prop := (u.task r.task).answer = some a ∧ u.spire.requests = rs
    let y := s.job job
    let cs := l.cores s
    let i := sget 0 y.delivered core
    let rep := sget Report.zero (s.die (dieOf core)).reports (core % 320)
    let ring := ringSize s
    let at_ := s.spire.lqBase.toNat + 64 * (s.spire.lqHead.toNat % ring)
    let x := s.task t
    let idle : Prop := s.spire.busy = none ∧ s.spireUp = true
    let dealt (g : Nat) : Nat := if l.pack then g % (cs.length * l.depth) / l.depth else g % cs.length
    (s.spire.requests = r :: rs →
      (¬ valid → Does .spireLaunchRequest s (answers (BitVec.ofNat 64 (2 ^ 63 + 1))))
      ∧ (valid → badFields s f = true → Does .spireLaunchRequest s (answers (BitVec.ofNat 64 (2 ^ 63 + 2))))
      ∧ (valid → badFields s f = false → (pendingJobs s).length < 64 → f.flags.getLsbD 1 = false → Does .spireLaunchRequest s fun u =>
        answers (s.spire.nextJob.setWidth 64) u ∧ (u.job s.spire.nextJob).state = .pending
        ∧ (u.job s.spire.nextJob).count = f.groups * f.perGroup))
    ∧ (s.spire.requests = [] → Answers .spireLaunchRequest s s)
    ∧ ((∀ p ∈ s.spire.jobs, p.2.state ≠ .dealing) → (headJob s).map (·.1) = some job.toNat → Does .jobDealStart s fun u =>
      (u.job job).state = .dealing)
    ∧ (cs.Pairwise (· < ·) ∧ ∀ k, k ∈ cs ↔ k < 2560 ∧ l.dies.getLsbD (k / 320) = true ∧ l.clusters.getLsbD (k % 320 / 4) = true
        ∧ s.harvested k = false)
    ∧ (∀ n, n < cs.length → 0 < l.depth →
      (∀ g, (∃ m < groupsOn l cs.length n, groupOf l cs.length n m = g) ↔ g < l.groups ∧ dealt g = n)
      ∧ ∀ m, groupOf l cs.length n m < groupOf l cs.length n (m + 1))
    ∧ (y.state = .dealing → y.launch = some l → cs.idxOf? core = some ℓ → i < groupsOn l cs.length ℓ → l.perGroup ≤ rep.runq →
      s.coreUp core = true →
      entryHl l.entry.bits = false → Does (.groupDelivery job core) s fun u =>
        (u.core core).runBase = (s.core core).runBase ++ (List.range l.perGroup).map (fun n =>
          .desc (launchDesc s job y l cs.length ℓ (groupOf l cs.length ℓ i) n))
        ∧ sget 0 (u.job job).delivered core = i + 1)
    ∧ (y.state = .dealing → y.launch = some l → rep.runq < l.perGroup ∨ s.coreUp core = false → Answers (.groupDelivery job core) s s)
    ∧ (die < 8 → 128 ≤ (s.timebase - (s.die die).reportAt).toNat → Does (.freeCountReport die) s fun u =>
      (u.die die).reportAt = s.timebase ∧ ∀ n < 320, s.harvested (die * 320 + n) = false →
        sget Report.zero (u.die die).reports n = reportOf s (die * 320 + n))
    ∧ (let tail : W32 := v.setWidth 32
       (s.spireUp = false → Answers (.lqTailWrite v) s s) ∧ (s.spireUp = true → Does (.lqTailWrite v) s fun u => u.spire.lqTail = tail
        ∧ (ring = 0 ∨ (tail - s.spire.lqHead).toNat ≤ ring → u.spire.lqHead = s.spire.lqHead ∧ u.spire.lqCfg = s.spire.lqCfg)
        ∧ (0 < ring → ring < (tail - s.spire.lqHead).toNat →
          u.spire.lqHead = tail - BitVec.ofNat 32 ring ∧ u.spire.lqCfg.getLsbD 21 = true)))
    ∧ (0 < ring → s.spire.lqCfg.getLsbD 20 = true → s.spire.lqHead ≠ s.spire.lqTail → (pendingJobs s).length < 64 →
      s.backed (at_ + 0x38) 8 = true →
      (¬ Clean s at_ 64 → Does .hostLaunchRecord s fun u =>
        u.spire.lqHead = s.spire.lqHead + 1 ∧ Wrote s u (at_ + 0x38) (leBytes 8 (2 ^ 63 + 1)))
      ∧ (∀ e, Clean s at_ 64 → hostLaunch s (s.readBytes at_ 64) = .error e → Does .hostLaunchRecord s fun u =>
        u.spire.lqHead = s.spire.lqHead + 1 ∧ Wrote s u (at_ + 0x38) (leBytes 8 (2 ^ 63 + e)))
      ∧ (∀ p, Clean s at_ 64 → hostLaunch s (s.readBytes at_ 64) = .ok (l, p) → l.pinned = false → Does .hostLaunchRecord s fun u =>
        u.spire.lqHead = s.spire.lqHead + 1 ∧ Wrote s u (at_ + 0x38) (leBytes 8 s.spire.nextJob.toNat)
        ∧ (u.job s.spire.nextJob).state = .pending))
    ∧ (idle → Answers (.jobCtlNone job) s s)
    ∧ (s.spireUp = false → ∀ i ∈ [Instr.jobCtlNone job, .jobPreempt job, .jobResume job, .jobKill job], Answers i s s)
    ∧ (s.spireUp = true → s.spire.busy ≠ none → ∀ i ∈ [Instr.jobCtlNone job, .jobPreempt job, .jobResume job, .jobKill job],
      Answers i s { s with spire := { s.spire with jobStat := s.spire.jobStat ||| (1#64 <<< 36) } })
    ∧ (idle → y.state = .running → coresOf s job ≠ [] → Does (.jobPreempt job) s fun u =>
      (u.job job).state = .preempting ∧ (u.job job).sentTo = coresOf s job ∧ u.spire.busy = some job)
    ∧ (idle → y.state = .saved → y.saved = [] → y.resumeDealing = false → y.count ≠ 0 →
      (∀ p ∈ s.tasks, ¬ (p.2.job = job ∧ p.2.inPlace = true)) →
      (∀ p ∈ s.cores, ∀ e ∈ p.2.runBase, ∀ z, e = .saved z → z.task.job ≠ job) → Does (.jobResume job) s fun u =>
        (u.job job).state = .running ∧ u.spire.busy = none)
    ∧ (idle → y.state = .running → (∀ p ∈ s.tasks, p.2.job ≠ job) → Does (.jobKill job) s fun u =>
      (u.job job).state = .done ∧ (u.job job).count = 0 ∧ u.spire.busy = none
      ∧ ∀ k, ∀ e ∈ (u.core k).runHigh ++ (u.core k).runBase, isOfJob job e = false)
    ∧ (y.state = .preempting → core ∈ y.sentTo → (∀ e ∈ (s.core core).runHigh ++ (s.core core).runBase, isOfJob job e = false) →
      (∀ p ∈ s.tasks, p.2.job = job → p.2 = x) → (t.toNat, x) ∈ s.tasks → x.gtid = t → x.job = job → x.core = core → x.high = false →
      x.status = .running → x.held = [] → x.preempt = none → x.inPlace = false → holdsSlot s t = false → Does (.preemptArrival job core) s fun u =>
        (u.task t).preempt = some (s.timebase + s.spire.preemptDl) ∧ (u.job job).sentTo = y.sentTo.erase core)
    ∧ (t = BitVec.ofNat 48 j → (x.preempt = none → Answers (.preemptDeadline j) s s) ∧ ∀ dl, x.preempt = some dl →
      let waits : Prop := x.status = .waitMsg ∨ x.status = .waitMem
      let due : Prop := waits ∨ (x.status = .running ∧ dl.toNat ≤ s.timebase.toNat)
      let first : Prop := x.waitOver = false ∧ x.held.any x.takeable = true ∧ x.ship = none
        ∧ (x.status = .running ∨ (x.status = .waitMsg ∧ x.wait ≠ none ∧ x.wait ≠ some .saving))
      (x.status = .running → s.timebase.toNat < dl.toNat → Answers (.preemptDeadline j) s s)
      ∧ (due → first → Answers (.preemptDeadline j) s (
          let u := takeHeld s t
          if (u.task t).waits = true ∨ dl.toNat ≤ s.timebase.toNat then finishPreempt (saveNow u t) x.job else u))
      ∧ (due → x.held = [] → holdsSlot s t = false →
        (saveable s t = true → Answers (.preemptDeadline j) s (finishPreempt (fullSave s t) x.job))
        ∧ (saveable s t = false → x.wait ≠ some .saving → Answers (.preemptDeadline j) s (finishPreempt (beginSave s t) x.job))
        ∧ (saveable s t = false → x.wait = some .saving → Answers (.preemptDeadline j) s (finishPreempt s x.job)))
      ∧ (due → x.held = [] → holdsSlot s t = true → Answers (.preemptDeadline j) s (finishPreempt (stopInPlace (dissolveTower s t) t) x.job))
      ∧ (x.status = .stopped → Answers (.preemptDeadline j) s (finishPreempt (stopInPlace s t) x.job)))

/-! Engines (R278 to R284, R356, R409 to R412, R498, R499) -/

/-- R278 to R281, R283, R284: ENG.W checks and writes a register of a shadow set that no other task owns and that is not
ready; ENG.R reads the status registers; ENG.GO restarts the task's faulted operation, or checks and registers the footprints
and marks the set ready, which an idle engine takes at once; ENG.WAIT waits for the task's operations and frees its set. That ENG.W at a
set of another task or a ready one waits before any check of its register, and that a W0 capability is kept as it is written, is log entry 23
(DEDUCED). -/
def Obligations.EngineInstructions : Prop :=
  ∀ (s : State) (g : Guard) (d e : BitVec 5) (i : BitVec 11), s.curTask.guardOk g = true →
    let x := s.curTask
    let E := decide (e = 1)
    let h := s.me.shadow E
    let id := engineOf s.cur E
    let held : Prop := e = 1 ∧ s.domeOnly = true
    let mine : Prop := ∀ t, h.owner = some t → t = s.curTid
    let v := x.reg d
    let w := v.bits.extractLsb' 0 64
    let need : Option Byte :=
      if E then (if i.toNat = 1 then some permSt else if i.toNat ≤ 4 then some permLd else none)
      else if i.toNat = 0 then some permLd
      else if i.toNat = 1 ∨ i.toNat = 2 ∨ (i.toNat = 4 ∧ v.tag ≠ .data) then some permSt else none
    let takes (r : GVal) : Prop := ∃ t, exec (.engW g d e i) s = .next t ∧ Retired 4 x (t.task s.curTid)
      ∧ OnlyTask (s.onShadow s.cur E fun h => { h with owner := some s.curTid, regs := sset .zero h.regs i.toNat r }) t
    let free : Prop := ¬ held ∧ mine ∧ h.ready = false
    let fs := engFootprints E h.regs
    let noWaiter : Prop := ∀ p ∈ s.tasks, p.2.wait ≠ some (.engine E)
    let shadowAfter (u : State) : Prop := ((u.core s.cur).shadow E).owner = some s.curTid ∧ ((u.core s.cur).shadow E).regs = h.regs
      ∧ Retired 4 x (u.task s.curTid)
      ∧ (u.core s.cur).locks = s.me.locks ++ (fs.filter fun f => f.2 ≠ 0).map (engLock s s.me.nextOp h.regs)
    let busy : Prop := (h.ready = true ∧ h.owner = some s.curTid) ∨ ∃ o, s.engine id = some o ∧ o.task = s.curTid
    (held → Traps (.engW g d e i) s .illegalInstr (wordInfo (.engW g d e i)) ∧ Traps (.engGo g e) s .illegalInstr (wordInfo (.engGo g e))
      ∧ Traps (.engWait g e) s .illegalInstr (wordInfo (.engWait g e)))
    ∧ (¬ held → ¬ mine → Answers (.engW g d e i) s (block s (.engine E)))
    ∧ (¬ held → mine → h.ready = true → Answers (.engW g d e i) s (block s (.engine E)))
    ∧ (free → need = none → takes ⟨w.setWidth 128, .data⟩)
    ∧ (∀ p, free → need = some p →
      (v.tag ≠ .mem → Traps (.engW g d e i) s .capTag w)
      ∧ (v.tag = .mem → capPerm v.bits &&& p ≠ p → Traps (.engW g d e i) s .capPerm w)
      ∧ (v.tag = .mem → capPerm v.bits &&& p = p → 0x100000 ≤ w.toNat → w.toNat < 0x1000000 → Traps (.engW g d e i) s .window w)
      ∧ (v.tag = .mem → capPerm v.bits &&& p = p → (w.toNat < 0x80000 ∨ 0x1000000 ≤ w.toNat) → takes v))
    ∧ (∃ a : W64, Completes (.engR g d e i) 4 s (fun x => x.setReg d ⟨a.setWidth 128, .data⟩)
      ∧ (i = 0 → (a.extractLsb' 0 2).toNat = (match s.engine id with | none => 0 | some o => if o.faulted then 2 else 1)
        ∧ a.getLsbD 2 = h.ready ∧ a.getLsbD 3 = decide (h.owner = some s.curTid) ∧ a.extractLsb' 4 4 = sget 0 h.errs s.curTid.toNat
        ∧ a.extractLsb' 8 24 = 0 ∧ a.extractLsb' 32 32 = h.done)
      ∧ (i = 1 → a = h.faddr) ∧ (i = 2 → a = match s.engine id with | none => 0 | some o => o.prog)
      ∧ (i = 3 → a = if E then 0 else h.dropped.setWidth 64))
    ∧ (∀ o, ¬ held → s.engine id = some o → o.faulted = true → o.task = s.curTid → ∃ t, exec (.engGo g e) s = .next t
      ∧ OnlyTask (s.setEngine id (some { o with faulted := false })) t ∧ Retired 4 x (t.task s.curTid))
    ∧ (¬ held → (∀ o, s.engine id = some o → ¬ (o.faulted = true ∧ o.task = s.curTid)) →
      (¬ mine → Answers (.engGo g e) s (block s (.engine E)))
      ∧ (mine → h.ready = true → Answers (.engGo g e) s (block s (.engine E)))
      ∧ (∀ k n rest, mine → h.ready = false → fs = (k, n) :: rest → n ≠ 0 →
        capCheck (engReg h.regs k) 0 (cursor (engReg h.regs k).bits) n ≠ none →
        Traps (.engGo g e) s .capBounds (cursor (engReg h.regs k).bits))
      ∧ (mine → h.ready = false → (∀ l ∈ s.me.locks, l.matrix = true → l.task = s.curTid) →
        (∀ f ∈ fs, f.2 ≠ 0 → capCheck (engReg h.regs f.1) 0 (cursor (engReg h.regs f.1).bits) f.2 = none) →
        (∀ o, s.engine id = some o → Does (.engGo g e) s fun u => shadowAfter u ∧ ((u.core s.cur).shadow E).ready = true
          ∧ u.engine id = some o)
        ∧ (s.engine id = none → (∀ p ∈ s.cores, (p.2.shadow E).ready = false) → noWaiter → Does (.engGo g e) s fun u =>
          shadowAfter u ∧ ((u.core s.cur).shadow E).ready = false ∧ ∃ o, u.engine id = some o ∧ o.core = s.cur
            ∧ o.task = s.curTid ∧ o.regs = h.regs ∧ o.sup = x.sup.priv)))
    ∧ (¬ held → busy → Answers (.engWait g e) s (block s (.engine E)))
    ∧ (¬ held → ¬ busy → noWaiter → ∃ t, exec (.engWait g e) s = .next t ∧ Retired 4 x (t.task s.curTid)
      ∧ OnlyTask (s.onShadow s.cur E fun h => if h.owner = some s.curTid then { h with owner := none } else h) t)

/-- R409, R410, R280, R281, R283: a routing operation whose tables lie in its core's scratchpad writes the kept entries in increasing
expert order, within an expert in entry order; their counts; the prefixes where asked; and counts what it drops. An invalid
register ends it with no access; where it is to note its completion, its slot's count rises by one then, also with an invalid register; and
while a matrix operation of its task reads where it writes, it stalls (R201). That all its accesses are
made in one step is log entry 16, that the dropped count adds up over operations log entry 23 (DEDUCED). -/
def Obligations.RoutingSortsTokensByExpert : Prop :=
  ∀ (s : State) (c : Nat) (o : EngOp), s.engine (.route c) = some o → o.faulted = false → o.dropped = false →
    let f := rtCfg o.regs
    let reg (i : Nat) := engReg o.regs i
    let at_ (i : Nat) := spadPa o.core + (cursor (reg i).bits).toNat
    let inSpad (i n : Nat) : Prop := (cursor (reg i).bits).toNat < 0x100000
      ∧ ∀ a m, 0 < m → at_ i ≤ a → a + m ≤ at_ i + n → s.backed a m = true
    let N := f.ntok * f.topk
    let expert (n : Nat) := s.readNat (at_ 0 + 2 * n) 2
    let kept (x : Nat) := (List.range N).filter fun n => expert n = x
    let order := (List.range f.nexp).flatMap kept
    let offsets : Prop := (reg 4).tag = .mem
    let apart (a m b n : Nat) : Prop := a + m ≤ b ∨ b + n ≤ a
    let ended (u : State) (err : BitVec 4) (drop : Nat) : Prop := u.engine (.route c) = none
      ∧ sget 0 (u.core o.core).sh0.errs o.task.toNat = err ∧ (u.core o.core).sh0.done = (s.core o.core).sh0.done + 1
      ∧ (u.core o.core).sh0.dropped = (s.core o.core).sh0.dropped + BitVec.ofNat 32 drop
    let quiet : Prop := ∀ l ∈ (s.core o.core).locks, l.matrix = true → l.task ≠ o.task
    (o.err ≠ 0 → Does (.engineCompletion (.route c)) s fun u => ended u o.err 0)
    ∧ (∀ k, o.err ≠ 0 ∨ o.todo = some [] → f.note = true → f.slot.toNat < (s.task o.task).barriers →
      physSlot (s.core o.core) (s.task o.task).job f.slot.toNat = some k → ((s.core o.core).counter k).target = 0 →
      Does (.engineCompletion (.route c)) s fun u =>
        ((u.core o.core).counter k).count = ((s.core o.core).counter k).count + 1)
    ∧ (o.err = 0 → o.todo = none → (cursor (reg 2).bits).toNat < 0x100000 →
      (∃ l ∈ (s.core o.core).locks, l.matrix = true ∧ l.read = true ∧ l.task = o.task ∧ l.spad = true ∧ l.asid = 0
        ∧ overlap (cursor (reg 2).bits).toNat ((cursor (reg 2).bits).toNat + 4 * f.nexp) l.lo l.hi = true) →
      Answers (.engineCompletion (.route c)) s s)
    ∧ (o.err = 0 → f.note = false → o.todo = some [] → Does (.engineCompletion (.route c)) s fun u => ended u 0 o.drop)
    ∧ (o.err = 0 → f.note = false → o.todo = none → quiet → (∀ k, (s.core k).slog.ctl.getLsbD 0 = false) → inSpad 0 (2 * N) → Clean s (at_ 0) (2 * N) →
      inSpad 1 (4 * order.length) → inSpad 2 (4 * f.nexp) → (offsets → inSpad 4 (4 * f.nexp)) →
      (f.add = true → Clean s (at_ 2) (4 * f.nexp)) →
      apart (at_ 1) (4 * order.length) (at_ 2) (4 * f.nexp) →
      (offsets → apart (at_ 4) (4 * f.nexp) (at_ 2) (4 * f.nexp) ∧ apart (at_ 4) (4 * f.nexp) (at_ 1) (4 * order.length)) →
      Does (.engineCompletion (.route c)) s fun u =>
        ended u 0 ((List.range N).filter fun n => f.nexp ≤ expert n).length
        ∧ (∀ i (h : i < order.length), u.readNat (at_ 1 + 4 * i) 4 = order[i] / f.topk + order[i] % f.topk * 2 ^ 24)
        ∧ (∀ x < f.nexp, u.readNat (at_ 2 + 4 * x) 4 =
            if f.add then (s.readNat (at_ 2 + 4 * x) 4 + (kept x).length) % 2 ^ 32 else (kept x).length)
        ∧ (offsets → ∀ x < f.nexp, u.readNat (at_ 4 + 4 * x) 4 = ((List.range x).map fun y => (kept y).length).sum))

/-- R278, R280, R282, R284, R356, R412, R498, R499: only an idle engine takes a ready set, in rotating order; an access that
meets a page fault leaves the operation faulted and tells its task, with what it finished performed and the rest kept; a bus error
or an uncorrectable error ends it; an exchange joins once every rank is there, moves the smaller count of each pair, and notes
each rank's bytes. A set whose owner waits to be saved does not swap in (R293). That an operation makes its accesses in one step, pair by pair,
and what a stop so leaves performed, are log entries 16 and 23 (DEDUCED). -/
def Obligations.EnginesSwapFaultAndExchange : Prop :=
  ∀ (s : State) (e : EngId) (k c die rank n : Nat) (o : EngOp) (t : BitVec 48) (a m : Nat) (wr : Bool) (rest : List (Nat × Nat)),
    let ready (j : Nat) (y : Core) : Prop := (engCores e).1 ≤ j ∧ j < (engCores e).1 + (engCores e).2 ∧ (y.shadow (isExch e)).ready = true
      ∧ ∀ t, (y.shadow (isExch e)).owner = some t → (s.task t).wait ≠ some .saving
    let quiet (o : EngOp) : Prop := ∀ l ∈ (s.core o.core).locks, l.matrix = true → l.task ≠ o.task
    let after (j : Nat) := (j - (engCores e).1 + (engCores e).2 - (s.lastServed e - (engCores e).1) % (engCores e).2
      + (engCores e).2 - 1) % (engCores e).2
    let y := s.core o.core
    let ended (u : State) (err : BitVec 4) (cause : Byte) : Prop := u.engine (.route c) = none
      ∧ sget 0 (u.core o.core).sh0.errs o.task.toNat = err ∧ (u.core o.core).sh0.done = y.sh0.done + 1
      ∧ (u.task o.task).held = (s.task o.task).held ++ [⟨cause, BitVec.ofNat 64 a⟩]
    let src := cursor (engReg o.regs 0).bits
    let reads : Prop := s.engine (.route c) = some o ∧ o.faulted = false ∧ o.dropped = false ∧ o.err = 0 ∧ o.todo = none
      ∧ (s.task o.task).status ≠ .ended ∧ 0x100000 ≤ src.toNat
      ∧ pageParts src.toNat (2 * (rtCfg o.regs).ntok * (rtCfg o.regs).topk) = (a, m) :: rest
    let walk := (s.translate ⟨none, some c, dieOfCluster c⟩ o.asid a .load o.sup).2.2
    (s.engine e = none → nextReady s e = some k → ((s.core k).shadow (isExch e)).owner = some t →
      (∃ p ∈ s.cores, p.1 = k ∧ ready k p.2) ∧ (∀ p ∈ s.cores, ready p.1 p.2 → after k ≤ after p.1)
      ∧ Does (.engineSwap e) s fun u => ((u.core k).shadow (isExch e)).ready = false ∧ u.lastServed e = k
        ∧ ∃ o, u.engine e = some o ∧ o.core = k ∧ o.task = t ∧ o.regs = ((s.core k).shadow (isExch e)).regs ∧ o.faulted = false)
    ∧ ((s.engine e).isSome = true → Answers (.engineSwap e) s s)
    ∧ (reads → ∀ kind lv, a < 2 ^ 52 → walk = .fault kind lv → Does (.engineFault (.route c)) s fun u =>
      u.engine (.route c) = some { o with faulted := true } ∧ (u.core o.core).sh0.faddr = BitVec.ofNat 64 a
      ∧ (u.task o.task).held = (s.task o.task).held ++ [⟨0x0F, BitVec.ofNat 64 a⟩])
    ∧ (reads → (2 ^ 52 ≤ a ∨ walk = .bus) → Does (.engineBusError (.route c)) s fun u => ended u 0xE 0x18)
    ∧ (∀ ws s1 left, s.engine (.route c) = some o → o.faulted = false → o.dropped = false → o.err = 0 → o.todo = some ws →
      engPerform s (.route c) o (cutWrites o ws) = (s1, left, some (.fault a wr)) → quiet o → Does (.engineFault (.route c)) s fun u =>
        u.engine (.route c) = some { o with todo := some left, prog := tokensDone o left, faulted := true } ∧ (∀ b, u.byte b = s1.byte b)
        ∧ (u.core o.core).sh0.faddr = engFaultInfo false a wr)
    ∧ (reads → a < 2 ^ 52 → walk = .ue → (s.die (dieOf (s.task o.task).core)).elogNotify.getLsbD 16 = false → Does (.engineUe (.route c)) s fun u => ended u 0xF 0x15)
    ∧ (s.engine e = some o → o.faulted = true → Answers (.engineCompletion e) s s)
    ∧ (s.engine (.exch die) = some o → o.faulted = false → o.joined = false → o.checked = true → (xcCfg o.regs).pod = false →
      (membersOf s o = none → Answers (.exchangeJoin die []) s s)
      ∧ ∀ ds s1, membersOf s o = some ds → (∀ d ∈ ds, quiet (exchOp s d)) →
        let moves := movePairs s ds ((List.range ds.length).flatMap fun r => (List.range ds.length).map fun q => (r, q))
        (moves = (s1, none) → Does (.exchangeJoin die []) s fun u => (∀ b, u.byte b = s1.byte b) ∧ ∀ d ∈ ds, (exchOp u d).joined = true)
        ∧ (moves = (s1, some (die, .fault a wr)) → o.dropped = false → Answers (.exchangeJoin die []) s s
          ∧ Does (.engineFault (.exch die)) s fun u => (∀ b, u.byte b = s1.byte b) ∧ (exchOp u die).faulted = true
            ∧ (exchOp u die).joined = false))
    ∧ (let sc := exchOp s die
       let p := sc.send.getD rank (0, 0)
       let q := (exchOp s c).recv.getD k (0, 0)
       let src := cursor (engReg sc.regs 0).bits
       let dst := cursor (engReg (exchOp s c).regs 1).bits
       let from_ := spadPa sc.core + src.toNat + p.2
       let to_ := spadPa (exchOp s c).core + dst.toNat + q.2
       src.toNat < 0x100000 → dst.toNat < 0x100000 → Clean s from_ (min p.1 q.1) →
       (∀ b l, 0 < l → from_ ≤ b → b + l ≤ from_ + min p.1 q.1 → s.backed b l = true) →
       (∀ b l, 0 < l → to_ ≤ b → b + l ≤ to_ + min p.1 q.1 → s.backed b l = true) →
       (from_ + min p.1 q.1 ≤ to_ ∨ to_ + min p.1 q.1 ≤ from_) → movedTo sc rank = 0 →
       ∃ u, movePair s die c k rank = (u, none) ∧ Wrote s u to_ (s.readBytes from_ (min p.1 q.1)))
    ∧ (s.engine (.exch die) = some o → o.faulted = false → o.joined = true → o.notes = [] → o.dropped = false →
      Does (.engineCompletion (.exch die)) s fun u => u.engine (.exch die) = none
        ∧ sget 0 (u.core o.core).sh1.errs o.task.toNat = o.err ∧ (u.core o.core).sh1.done = y.sh1.done + 1)
    ∧ (s.engine (.exch die) = some o → o.dropped = false →
      ((∀ p ∈ o.notes, p.1 ≠ rank) → Answers (.exchangeNote die rank) s s)
      ∧ ∀ pre post, o.notes = pre ++ (rank, n) :: post → (∀ p ∈ pre, p.1 ≠ rank) →
        (xcCfg o.regs).slot.toNat < (s.task o.task).barriers →
        physSlot (s.core o.core) (s.task o.task).job (xcCfg o.regs).slot.toNat = some k →
        Answers (.exchangeNote die rank) s (slotAdd (s.setEngine (.exch die) (some { o with notes := o.notes.filter fun p => p.1 ≠ rank }))
          o.core k (BitVec.ofNat 32 n)))
    ∧ (o.err = 0 → ∀ sent wanted recv offered : List Nat, sent.length = wanted.length → recv.length = offered.length →
      let z := settle o sent wanted recv offered
      (sent ≠ wanted → z.err = 3) ∧ (sent = wanted → recv ≠ offered → z.err = 4) ∧ (sent = wanted → recv = offered → z.err = 0)
      ∧ z.joined = true ∧ z.prog = BitVec.ofNat 64 ((List.zip recv offered).map fun p => min p.1 p.2).sum)

/-! Page faults, circuits and the pod ports (R346 to R352, R379, R394, R395, R418 to R421, R450 to R452) -/

/-- R346 to R352: a faulting access leaves the caches of its path, parks its task, joins the pending entry of its page or makes
and posts one; freeing a posting; a replay takes everything parked and runs it again in order. That the access runs again with its whole
instruction, as a step of its own before any other, is log entry 31 (DEDUCED). -/
def Obligations.PageFaultsParkPostAndReplay : Prop :=
  ∀ (s : State) (j c : Nat) (t : BitVec 48) (f : WalkFault) (v : W64),
    let x := s.task t
    let y := s.cluster (clusterOf x.core)
    let va := f.vpn.toNat * 2 ^ 16
    let same (e : PendEntry) : Prop := e.asid = f.asid ∧ e.vpn = f.vpn
    let gone (l : List TlbEntry) : Prop := ∀ e ∈ l, e.covers f.asid va = false
    let new (p : Option Nat) : PendEntry := ⟨f.asid, f.vpn, f.kind, f.level, f.acc, t, 1, false, p⟩
    let taken (m : Nat) : Prop := ∃ p ∈ y.fb, p.1 = m
    let parks : Prop := t = BitVec.ofNat 48 j ∧ x.status = .waitMem ∧ x.fault = some f
    let z := s.cluster c
    let k := (y.fbNotify.extractLsb' 0 3).toNat * 320 + (y.fbNotify.extractLsb' 3 7).toNat * 4 + (y.fbNotify.extractLsb' 10 2).toNat
    let slot := (y.fbNotify.extractLsb' 12 4).toNat
    (parks → y.fbNotify.getLsbD 16 = false → Does (.pageFaultPark j) s fun u =>
      let w := u.cluster (clusterOf x.core)
      gone (u.core x.core).itlb ∧ gone (u.core x.core).dtlb ∧ gone w.l2 ∧ gone (u.die (dieOfCluster (clusterOf x.core))).dtc
      ∧ w.parked = y.parked ++ [.task t] ∧ (u.task t).status = .waitMem ∧ (u.task t).fault = none ∧ (u.task t).pcc = x.pcc
      ∧ (u.task t).counts.parks = x.counts.parks + 1 ∧ u.mem = s.mem
      ∧ (∀ pre e post, y.pend = pre ++ e :: post → same e → (∀ q ∈ pre ++ post, ¬ same q) →
        w.pend = pre ++ { e with waiters := e.waiters + 1, acc := e.acc ||| f.acc } :: post ∧ w.dropped = y.dropped)
      ∧ ((∀ e ∈ y.pend, ¬ same e) →
        (∀ m < 8, ¬ taken m → (∀ i < m, taken i) → w.pend = y.pend ++ [new (some m)] ∧ w.dropped = y.dropped
          ∧ (sget .free w.fb m).gtid = t ∧ (sget .free w.fb m).pf = false
          ∧ let low := (sget .free w.fb m).low
            low.extractLsb' 0 36 = f.vpn ∧ low.extractLsb' 36 16 = f.asid ∧ low.extractLsb' 52 2 = f.kind
            ∧ low.extractLsb' 54 2 = f.level ∧ low.extractLsb' 56 4 = f.acc ∧ low.extractLsb' 60 4 = 0)
        ∧ ((∀ m < 8, taken m) → w.pend = y.pend ++ [new none] ∧ w.fb = y.fb ∧ w.dropped = true)))
    ∧ (parks → y.fbNotify.getLsbD 16 = true → (∀ e ∈ y.pend, ¬ same e) → (∃ m < 8, ¬ taken m) ∨ y.dropped = false →
      ((s.core k).counter slot).target = 0 → Does (.pageFaultPark j) s fun u =>
        ((u.core k).counter slot).count = ((s.core k).counter slot).count + 1)
    ∧ (t = BitVec.ofNat 48 j → x.status ≠ .waitMem ∨ x.fault = none → Answers (.pageFaultPark j) s s)
    ∧ Does (.fbStatWrite c v) s (fun u =>
      (∀ m < 8, sget .free (u.cluster c).fb m = if v.getLsbD m then .free else sget .free z.fb m)
      ∧ (u.cluster c).dropped = (z.dropped && !v.getLsbD 8) ∧ (u.cluster c).pend.length = z.pend.length)
    ∧ Does (.replayAll c) s (fun u => (u.cluster c).pend = [] ∧ (u.cluster c).fb = [] ∧ (u.cluster c).dropped = z.dropped
      ∧ (u.cluster c).parked = [] ∧ (u.cluster c).replaying = z.replaying ++ z.parked)
    ∧ (z.replaying = [] → Answers (.replayRerun c) s s)
    ∧ (∀ ps, z.replaying = .task t :: ps → x.status = .waitMem → Does (.replayRerun c) s fun u =>
      (u.cluster c).replaying = ps ∧ u.again = some (.task t) ∧ u.task t = x)
    ∧ (∀ ps, z.replaying = .task t :: ps → x.status ≠ .waitMem → Does (.replayRerun c) s fun u =>
      (u.cluster c).replaying = ps ∧ u.again = s.again)
    ∧ (∀ ps core ep, z.replaying = .walker core ep :: ps → Does (.replayRerun c) s fun u =>
      (u.cluster c).replaying = ps ∧ (u.cluster c).walkFault = none ∧ u.again = some (.walker core ep))
    ∧ (s.power = .on → slotPassed s = false → s.again = some (.task t) →
      let b := againState s t
      b.cur = x.core ∧ (b.task t).pcc = x.pcc
      ∧ ∀ b1 i, fetchInstr b = .ok (b1, i) →
        Sys2Proof.Machine.step s = mapNext endStep (mapNext (againDone t) (mapNext (afterIssue b1 b.curTask (some i)) (exec i b1))))

/-- R394, R395: a write to CT_ENTRY takes its circuit down and sets up the new one unless it is rejected; 2,400 cycles later
it is up. R379, R418 to R421, R450 to R452: a message from another chip arrives on a live link, and is logged; a replay
re-injects the records of the ring at their time and takes no arrivals, holding a slot return that comes before its messages
were sent, and a resync word before its slot is in RESYNC; what cannot be read of a record is never taken (R356; log entry
25, DESIGN CHOICE); a link that has failed ten replays goes down, and the channels over it begin a count exchange (log entry
25). -/
def Obligations.CircuitsAndPodPorts : Prop :=
  (∀ (s : State) (e : BitVec 9) (v : W64),
      let src (w : W64) := (w.extractLsb' 1 3, w.extractLsb' 4 3)
      let dst (w : W64) := (w.extractLsb' 20 3, w.extractLsb' 23 3)
      let first (w : W64) := (w.extractLsb' 7 6).toNat
      let last (w : W64) := (w.extractLsb' 7 6).toNat + (w.extractLsb' 13 6).toNat
      let pod (w : W64) := w.getLsbD 19
      let state (w : W64) := (w.extractLsb' 32 2).toNat
      let others := ((s.fabric.ct.filter fun p => p.1 ≠ e.toNat).map (·.2)).filter fun w => state w = 1 || state w = 2
      let used := ((others.filter fun w => pod w && w.extractLsb' 26 4 = v.extractLsb' 26 4).map fun w => (w.extractLsb' 13 6).toNat + 1).sum
      let rejected : Prop :=
        63 < last v ∨ s.dieEnabled (src v).1.toNat = false ∨ (pod v = false ∧ s.dieEnabled (dst v).1.toNat = false)
        ∨ (pod v = false ∧ (src v).1 = (dst v).1) ∨ (pod v = true ∧ dst v ≠ (0, 0)) ∨ (pod v = false ∧ v.extractLsb' 26 4 ≠ 0)
        ∨ (∃ w ∈ others, first v ≤ last w ∧ first w ≤ last v
            ∧ (src v = src w ∨ (pod v = false ∧ pod w = false ∧ dst v = dst w)))
        ∨ (pod v = true ∧ 50 < (v.extractLsb' 13 6).toNat + 1 + used)
      let was := sget 0 s.fabric.ct e.toNat
      let old := (s.timebase - sget 0 s.fabric.ctAt e.toNat).toNat
      let up : Prop := s.spireUp = true
      (up → Does (.ctEntryWrite e v) s (fun u =>
        let w := sget 0 u.fabric.ct e.toNat
        w.extractLsb' 0 30 = v.extractLsb' 0 30 ∧ w.extractLsb' 30 2 = 0 ∧ w.extractLsb' 34 30 = 0
        ∧ (v.getLsbD 0 = false → state w = 0) ∧ (v.getLsbD 0 = true → rejected → state w = 3)
        ∧ (v.getLsbD 0 = true → ¬ rejected → state w = 1)
        ∧ ∀ i ≠ e.toNat, sget 0 u.fabric.ct i = sget 0 s.fabric.ct i))
      ∧ (¬ up → Answers (.ctEntryWrite e v) s s)
      ∧ (up → state was = 1 → 2400 ≤ old → Does (.circuitUp e) s fun u => state (sget 0 u.fabric.ct e.toNat) = 2
        ∧ (sget 0 u.fabric.ct e.toNat).extractLsb' 0 30 = was.extractLsb' 0 30)
      ∧ (¬ up ∨ state was ≠ 1 ∨ old < 2400 → Answers (.circuitUp e) s s))
  ∧ (∀ (s : State) (fibre : BitVec 4) (m : Msg) (v : W64) (die : Nat) (rank : ExPeer),
      let f := s.fabric
      let down (k : BitVec 4) : Prop := f.down.getLsbD k.toNat = true
      let takes : Prop := f.alogCtl.getLsbD 3 = false ∧ ¬ down fibre ∧ m.dst.chip = s.chip ∧ m.src.chip ≠ s.chip
      let up : Prop := s.spireUp = true
      let wraps : Prop := f.alogCtl.getLsbD 1 = true
      let full : Prop := f.alogCtl.getLsbD 2 = true
      let payload := wirePayload m.body
      let n := (32 + payload.length + 31) / 32 * 32
      let at_ := f.alogBase.toNat + f.alogWr.toNat % f.alogLen.toNat
      let tries := sget 0 f.replays fibre.toNat
      let early (d : EpLoc) (w : W64) : Prop :=
        let e := s.ep d.at_.core d.ep
        let ahead := ((w.extractLsb' 0 32) - e.sent).toNat
        e.gen = d.gen ∧ (e.status = .free ∨ (returnForeign e w = false ∧ 0 < ahead ∧ ahead < 2 ^ 31))
      (¬ takes → Answers (.podArrival fibre m) s s)
      ∧ (takes → f.alogCtl.getLsbD 0 = false → Does (.podArrival fibre m) s fun u => u.net = s.net ++ [m] ∧ u.mem = s.mem
        ∧ u.fabric = { f with replays := u.fabric.replays } ∧ sget 0 u.fabric.replays fibre.toNat = 0)
      ∧ (takes → f.alogCtl.getLsbD 0 = true → f.alogWr.toNat % f.alogLen.toNat + n ≤ f.alogLen.toNat →
        (wraps ∨ (¬ full ∧ f.alogWr.toNat + n ≤ f.alogLen.toNat)) → s.backed at_ n = true → f.alogWr.toNat + n < 2 ^ 64 →
        Does (.podArrival fibre m) s fun u => u.net = s.net ++ [m] ∧ u.fabric.alogWr.toNat = f.alogWr.toNat + n
          ∧ u.fabric.records = f.records + 1 ∧ u.readNat at_ 8 = s.timebase.toNat ∧ u.readNat (at_ + 8) 1 = m.src.chip.toNat
          ∧ u.readNat (at_ + 12) 4 = payload.length % 2 ^ 32 ∧ u.readNat (at_ + 16) 8 = m.header.toNat
          ∧ u.readNat (at_ + 24) 8 = f.records.toNat ∧ recordMeans u (u.readBytes at_ n) = some (.msg m) ∧ u.readBytes (at_ + 32) payload.length = payload
          ∧ ∀ a, a < at_ ∨ at_ + n ≤ a → u.byte a = s.byte a)
      ∧ (takes → f.alogCtl.getLsbD 0 = true → ¬ wraps → full ∨ f.alogLen.toNat < f.alogWr.toNat + n →
        Does (.podArrival fibre m) s fun u => u.net = s.net ++ [m] ∧ u.mem = s.mem ∧ u.fabric.alogCtl.getLsbD 2 = true
          ∧ u.fabric.alogWr = f.alogWr)
      ∧ (¬ up → Answers (.alogEnable v) s s ∧ Answers (.alogReplayStart v) s s)
      ∧ (up → Does (.alogEnable v) s (fun u => u.fabric.alogCtl.getLsbD 0 = true
        ∧ (f.alogCtl.getLsbD 0 = false → u.fabric.alogWr = 0 ∧ u.fabric.alogOrigin = s.timebase ∧ u.fabric.records = 0)))
      ∧ (up → Does (.alogReplayStart v) s (fun u => u.fabric.alogCtl.getLsbD 3 = true
        ∧ (f.alogCtl.getLsbD 3 = false → u.fabric.replayPos = 0 ∧ u.fabric.injected = 0 ∧ u.fabric.diverged = false)))
      ∧ (let p := replayFrom s
        let a := f.alogBase.toNat + p % f.alogLen.toNat
        let k := recordSize s a
        let since := (BitVec.ofNat 64 (s.readNat a 8) - f.alogOrigin).toNat
        let means := recordMeans s (s.readBytes a k)
        let due : Prop := f.alogCtl.getLsbD 3 = true ∧ f.alogLen ≠ 0 ∧ Clean s a 32 ∧ p + k ≤ f.alogEnd.toNat ∧ s.backed a k = true
          ∧ since ≤ (s.timebase - f.replayAt).toNat
        (¬ due → Answers .replayReinject s s)
        ∧ (due → ¬ Clean s a k → Does .replayReinject s fun u =>
          u = { s with fabric := u.fabric } ∧ u.fabric = { f with replayPos := p + k })
        ∧ (due → Clean s a k → Does .replayReinject s fun u => u.fabric.replayPos = p + k ∧ u.fabric.injected = f.injected + 1
          ∧ (means = none → u.net = s.net)
          ∧ (means = some (.exchange die rank) → u.fabric.replayed = f.replayed ++ [(die, rank)])
          ∧ (means = some (.msg m) → (∀ d w, m.body ≠ .slotReturn d w) → (∀ d w, m.body ≠ .resync d w) → u.net = s.net ++ [m])
          ∧ (∀ d w, means = some (.msg m) → m.body = .slotReturn d w →
            (early d w → u.net = s.net ∧ u.fabric.heldBack = f.heldBack ++ [m])
            ∧ (¬ early d w → u.net = s.net ++ [m] ∧ u.fabric.heldBack = f.heldBack))
          ∧ (∀ d w, means = some (.msg m) → m.body = .resync d w →
            let e := s.ep d.at_.core d.ep
            (e.gen = d.gen → e.status ≠ .resync → u.net = s.net ∧ u.fabric.heldBack = f.heldBack ++ [m])
            ∧ (e.gen ≠ d.gen ∨ e.status = .resync → u.net = s.net ++ [m] ∧ u.fabric.heldBack = f.heldBack))))
      ∧ Does (.linkReplay fibre) s (fun u => sget 0 u.fabric.replays fibre.toNat = tries + 1 ∧ u.net = s.net)
      ∧ (tries < 10 → Answers (.linkDown fibre) s s)
      ∧ (10 ≤ tries → Does (.linkDown fibre) s fun u => u.fabric.down.getLsbD fibre.toNat = true
        ∧ (∀ k : BitVec 4, k ≠ fibre → u.fabric.down.getLsbD k.toNat = f.down.getLsbD k.toNat)
        ∧ ∀ core n l, (core, s.core core) ∈ s.cores → (n, s.ep core n) ∈ (s.core core).eps → (s.ep core n).status = .connected →
          (s.ep core n).peer = some l → l.at_.chip ≠ s.chip →
          ((sget 0 f.route l.at_.chip.toNat).getLsbD 4 = false ∨ down ((sget 0 f.route l.at_.chip.toNat).extractLsb' 0 4)
            ∨ (sget 0 f.route l.at_.chip.toNat).extractLsb' 0 4 = fibre) →
          (u.ep core n).status = .resync))

/-! The host ports and the tile-walk engine (R402 to R408, R413 to R417, R498) -/

/-- R413 to R417, R47, R384: a packet is dropped or counted, or reaches its READY queue pair; ahead of its turn it is a
sequence error, behind it it is answered again; a WRITE within its region writes its bytes and clears their tags, a READ
answers with the bytes, the doorbell writes LQ_TAIL; what a region does not allow is a NAK that ends in ERROR; while the
priority of a queue pair is paused the port pauses the sender and takes nothing for it (log entry 26). R416, R417, R459: the
management controller's writes to a queue-pair context keep its fields' rules; a pause holds its priority for its quanta
(512 bit times each, log entry 26) and runs out; a link changes. -/
def Obligations.HostRequestsQueuePairsAndPauses : Prop :=
  (∀ (s : State) (r : RdmaReq),
      let p := r.port
      let ctl := s.hp p 0
      let rows : List Instr := [.rdmaWrite r, .rdmaRead r, .rdmaUnsupported r]
      let on : Prop := p < 4 ∧ ctl.getLsbD 0 = true ∧ (s.hp p 5).getLsbD 0 = true
      let c := r.qpn.toNat - 0x1000
      let ready : Prop := 0x1000 + 512 * p ≤ r.qpn.toNat ∧ r.qpn.toNat < 0x1000 + 512 * (p + 1)
        ∧ (s.qpWord c 0).extractLsb' 0 2 = 1
      let version : Prop := ctl.getLsbD (if (s.qpWord c 0).getLsbD 2 then 2 else 1) = true
      let prio : BitVec 3 := (s.qpWord c 0).extractLsb' 3 3
      let named_ : Prop := on ∧ r.bad = false ∧ ready ∧ version
      let admitted : Prop := named_ ∧ pausedOn s p prio = false
      let before := if r.ce && ctl.getLsbD 17 then s.sent ++ [.cnp p r.qpn] else s.sent
      let ahead := (r.psn - (s.qpWord c 1).setWidth 24).toNat
      let i := (r.rkey.extractLsb' 0 8).toNat
      let low := sget 0 s.host.regLow i
      let high := sget 0 s.host.regHigh i
      let named : Prop := low.getLsbD 0 = true ∧ high.extractLsb' 40 24 = r.rkey.extractLsb' 8 24
      let base := (low.extractLsb' 12 34).toNat * 2 ^ 12
      let len := (high.extractLsb' 0 40).toNat
      let a := base + r.va.toNat
      let inside (perm n : Nat) : Prop := named ∧ low.getLsbD 3 = false ∧ low.getLsbD perm = true
        ∧ r.va.toNat + n ≤ len ∧ s.backed base len = true ∧ base % 2 ^ 43 < 0x060000000000 ∧ s.backed a n = true
      let bell : Prop := named ∧ low.getLsbD 3 = true ∧ low.getLsbD 2 = true ∧ r.va.toNat + r.data.length ≤ 8
      let mtu := 1024 * 2 ^ ((s.qpWord c 0).extractLsb' 6 2).toNat
      let moved (u : State) (n : Nat) : Prop :=
        (u.qpWord c 1).setWidth 24 = r.psn + BitVec.ofNat 24 (max 1 ((n + mtu - 1) / mtu))
        ∧ ((u.qpWord c 5).setWidth 24 : BitVec 24) = (s.qpWord c 5).setWidth 24 + 1 ∧ (u.qpWord c 0) = s.qpWord c 0
      let nak (i : Instr) (syn : Nat) (st : W64) : Prop := Does i s fun u => u.sent = before ++ [.rdmaNak p r.qpn syn]
        ∧ (u.qpWord c 0).extractLsb' 0 2 = st.setWidth 2 ∧ (u.qpWord c 5).extractLsb' 32 3 = BitVec.ofNat 3 syn
        ∧ (u.qpWord c 1) = s.qpWord c 1 ∧ u.mem = s.mem ∧ u.tags = s.tags
      (¬ on → ∀ x ∈ rows, Answers x s s)
      ∧ (on → r.bad = true ∨ ¬ ready → ∀ x ∈ rows, Answers x s (s.setHp p 6 ((s.hp p 6 + 1) &&& 0xFFFFFFFFFFFF)))
      ∧ (on → r.bad = false → ready → ¬ version → ∀ x ∈ rows, Answers x s s)
      ∧ (named_ → pausedOn s p prio = true → ∀ x ∈ rows, ∃ q, Answers x s { s with sent := s.sent ++ [.pfcPause p prio q] })
      ∧ (admitted → 0 < ahead → ahead < 2 ^ 23 → ∀ x ∈ rows, nak x 1 1)
      ∧ (admitted → ahead = 0 ∨ 2 ^ 23 ≤ ahead → nak (.rdmaUnsupported r) 2 2)
      ∧ (admitted → ahead = 0 → inside 2 r.data.length → r.data ≠ [] → Does (.rdmaWrite r) s fun u =>
        Wrote s u a r.data ∧ Tagged s u a r.data.length .data ∧ u.sent = before ++ [.rdmaAck p r.qpn r.psn] ∧ moved u r.data.length)
      ∧ (admitted → ahead = 0 → bell → Does (.rdmaWrite r) s fun u => u.mem = s.mem
        ∧ u.sent = before ++ [.rdmaAck p r.qpn r.psn] ∧ moved u r.data.length
        ∧ (s.spireUp = true → ∀ k < 4, (u.spire.lqTail.extractLsb' (8 * k) 8) =
            if r.va.toNat ≤ k then r.data.getD (k - r.va.toNat) (s.spire.lqTail.extractLsb' (8 * k) 8) else s.spire.lqTail.extractLsb' (8 * k) 8))
      ∧ (admitted → ahead = 0 → ¬ inside 2 r.data.length → ¬ bell → nak (.rdmaWrite r) 3 2)
      ∧ (admitted → 2 ^ 23 ≤ ahead → Does (.rdmaWrite r) s fun u => u = { s with sent := before ++ [.rdmaAck p r.qpn r.psn] })
      ∧ (admitted → ahead = 0 → inside 1 r.len → Clean s a r.len → Does (.rdmaRead r) s fun u =>
        u.sent = before ++ [.rdmaData p r.qpn r.psn (s.readBytes a r.len)] ∧ moved u r.len ∧ u.mem = s.mem)
      ∧ (admitted → 2 ^ 23 ≤ ahead → inside 1 r.len → Clean s a r.len → Does (.rdmaRead r) s fun u =>
        u = { s with sent := before ++ [.rdmaData p r.qpn r.psn (s.readBytes a r.len)] })
      ∧ (admitted → ahead = 0 ∨ 2 ^ 23 ≤ ahead → ¬ inside 1 r.len → nak (.rdmaRead r) 3 2)
      ∧ (admitted → ahead = 0 ∨ 2 ^ 23 ≤ ahead → inside 1 r.len → ¬ Clean s a r.len → nak (.rdmaRead r) 4 2))
  ∧ (∀ (s : State) (port : BitVec 2) (q : BitVec 9) (word : BitVec 3) (v : W64) (p : Nat) (prio : BitVec 3) (quanta : W16) (up : Bool),
      let c := 512 * port.toNat + q.toNat
      let i := word.toNat
      let ctl := s.hp p 0
      let honoured : Prop := (ctl.getLsbD 6 = true ∧ ctl.extractLsb' 3 3 = prio) ∨ (ctl.getLsbD 10 = true ∧ ctl.extractLsb' 7 3 = prio)
      let st : BitVec 2 := if v.extractLsb' 0 2 = 3 then 0 else v.extractLsb' 0 2
      let cycles := if s.slowClock then (quanta.toNat * 512 + 399) / 400 else (quanta.toNat * 512 + 249) / 250
      Does (.qpContextWrite port q word v) s (fun u =>
        let w := u.qpWord c 0
        (i = 0 → w.extractLsb' 0 2 = (if (s.qpWord c 0).extractLsb' 0 2 = 2 ∧ st = 1 then 2 else st) ∧ w.extractLsb' 2 4 = v.extractLsb' 2 4
          ∧ w.extractLsb' 6 2 = (if v.extractLsb' 6 2 = 3 then 0 else v.extractLsb' 6 2)
          ∧ w.extractLsb' 8 5 = (if v.extractLsb' 8 5 = 0 then 1 else v.extractLsb' 8 5)
          ∧ w.extractLsb' 13 19 = 0 ∧ w.extractLsb' 32 24 = v.extractLsb' 32 24 ∧ w.extractLsb' 56 8 = 0)
        ∧ (i ≠ 0 → w.extractLsb' 0 2 = (if (s.qpWord c 0).extractLsb' 0 2 = 1 then 0 else (s.qpWord c 0).extractLsb' 0 2)
          ∧ w.extractLsb' 2 62 = (s.qpWord c 0).extractLsb' 2 62)
        ∧ (i = 1 → u.qpWord c 1 = v &&& 0x0000FFFF00FFFFFF) ∧ (i = 2 → u.qpWord c 2 = v &&& 0x0000FFFFFFFFFFFF)
        ∧ (i = 3 ∨ i = 4 → u.qpWord c i = v) ∧ (5 ≤ i → u.qpWord c i = s.qpWord c i)
        ∧ ∀ d j, j < 8 → ¬ (d = c ∧ (j = 0 ∨ j = i)) → u.qpWord d j = s.qpWord d j)
      ∧ (p < 4 → honoured → Does (.pfcPause p prio quanta) s fun u =>
        sget 0 u.host.pausedTill (8 * p + prio.toNat) = if quanta = 0 then 0 else s.timebase + BitVec.ofNat 64 cycles)
      ∧ (4 ≤ p ∨ ¬ honoured → Answers (.pfcPause p prio quanta) s s)
      ∧ Does (.pfcPauseExpiry p) s (fun u => u = { s with host := { s.host with pausedTill := u.host.pausedTill } }
        ∧ ∀ x, x ∈ u.host.pausedTill ↔ x ∈ s.host.pausedTill ∧ ¬ (x.1 / 8 = p ∧ x.2.toNat ≤ s.timebase.toNat))
      ∧ (p < 4 → ¬ (up = true ∧ (s.die 0).bootPhase = 5) → Does (.ethernetLinkChange p up) s fun u => (u.hp p 5).getLsbD 0 = up)
      ∧ (4 ≤ p ∨ (up = true ∧ (s.die 0).bootPhase = 5) → Answers (.ethernetLinkChange p up) s s))

/-- R402 to R408, R498: adoption reports the first error in the order 3, 1, 2, 4; a request is checked before its transition; a
peer sends items while it holds permits, writes the items it receives, and after the last one acknowledges and closes; a stopped
access parks the engine or closes the channel, and so does a message that cannot be read. That bytes 4 to 7 of a request count as reserved,
and that a peer counts until its slot is FREE, is log entry 26 (PRESUMED). -/
def Obligations.TileWalkPeersAdoptAndServe : Prop :=
  ∀ (s s1 : State) (c core n k : Nat) (v : W64) (p : Peer) (t : W32) (cnt : BitVec 17) (w : W64) (bs : List Byte) (sl : Nat)
    (l : EpLoc) (ps : List (Nat × Nat)),
    let slot := (v.extractLsb' 0 2).toNat
    let ep := (v.extractLsb' 2 6).toNat
    let kind := (v.extractLsb' 8 2).toNat
    let fmt := (v.extractLsb' 10 4).toNat
    let b := s.ep (4 * c + slot) ep
    let y := s.cluster c
    let bad3 : Prop := kind = 3 ∨ fmt = 0 ∨ 11 < fmt
    let image : Prop := b.image.states = standardStates kind fmt
    let code (x : Nat) : Prop := Does (.twAdopt c v) s fun u => (u.cluster c).twErr.toNat = x ∧ (u.cluster c).peers = y.peers
    let e := s.ep core n
    let got (ty : BitVec 6) (sh : BitVec 4) : BufMsg := ⟨.data ty sh w cnt bs, sl, false⟩
    let first (ty : BitVec 6) (sh : BitVec 4) : Prop := e.oldSlot = none ∧ e.buf = [got ty sh] ∧ frameBad s core n (got ty sh) = false
    let at_ (u : State) (q : Peer) : Prop := q ∈ (u.cluster (clusterOf core)).peers ∧ q.slot = core % 4 ∧ q.ep = n
    let f (o m : Nat) := leNat ((bs.drop o).take m)
    let item := if p.kind = 2 then 4096 else (winOf p.fmt).foot
    let inside (j : Nat) : Prop :=
      0 ≤ (f 8 8 : Int) + j * (BitVec.ofNat 64 (f 16 8)).toInt ∧ (f 8 8 : Int) + j * (BitVec.ofNat 64 (f 16 8)).toInt + item ≤ p.len.toNat
    let fits : Prop := f 0 4 < 2 ^ 17 ∧ f 4 4 = 0 ∧ f 24 40 = 0 ∧ f 8 8 % 32 = 0 ∧ f 16 8 % 32 = 0 ∧ inside 0 ∧ inside (f 0 4 - 1)
    let local_ : Prop := e.peer = some l ∧ l.at_.chip = s.chip ∧ s.fabric.heldBack = []
    let msg (s : State) (body : ChBody) : Msg := ⟨s.here core, l.at_, false, 0, .chan l (s.epLoc core n) none body⟩
    ((standardStates 0 fmt).map (·.trans) = [[0x00087013], [BitVec.ofNat 32 (0x00904021 + 0x400 * fmt)], [0x0000000D]]
      ∧ (standardStates 1 fmt).map (·.trans) = [[0x00087013], [BitVec.ofNat 32 (0x00904033 + 0x400 * fmt)], [0x0000C041], [0x0000000D]]
      ∧ (standardStates 2 fmt).map (·.trans) = [[0x00087013], [0x00907851], [0x0000000D]])
    ∧ (bad3 → code 3) ∧ (¬ bad3 → b.status ≠ .bound → code 1) ∧ (¬ bad3 → b.status = .bound → ¬ image → code 2)
    ∧ (¬ bad3 → b.status = .bound → image → 16 ≤ y.peers.length → code 4)
    ∧ (¬ bad3 → b.status = .bound → image → y.peers.length < 16 → Does (.twAdopt c v) s fun u => (u.cluster c).twErr = 0
      ∧ (u.cluster c).peers = y.peers ++ [⟨slot, ep, kind, fmt, v.extractLsb' 16 16, y.twBase, y.twLen, 0, 0, 0, 0, false⟩]
      ∧ (u.ep (4 * c + slot) ep).owner = some 0xFFFFFFFFFFFF ∧ (u.ep (4 * c + slot) ep).status = .bound)
    ∧ (peerAt s core n = none → ∀ i ∈ [Instr.tilePeerRequest core n, .tilePeerSend core n, .tilePeerWrite core n], Answers i s s)
    ∧ (peerAt s core n = some p → e.status = .connected → e.state = 0 → first 1 12 →
      e.find true 0 (some 1) = some t →
      (¬ fits → Answers (.tilePeerRequest core n) s (failClose s core n 1 0x05 0xFFFFFFFFFFFF))
      ∧ (fits → Does (.tilePeerRequest core n) s fun u => (u.ep core n).buf = [] ∧ (u.ep core n).state = (e.take t cnt).state
        ∧ ∃ q, at_ u q ∧ q.offset.toNat = f 8 8 ∧ q.stride.toNat = f 16 8 ∧ q.count = f 0 4 ∧ q.done = 0 ∧ q.busy = true))
    ∧ (peerAt s core n = some p → e.status = .connected → p.busy = true → p.kind ≠ 1 → p.done < p.count →
      e.find false 0 none = some t →
      (e.permits = 0 → Answers (.tilePeerSend core n) s s)
      ∧ (e.permits ≠ 0 → ∀ st, itemParts s (clusterOf core) p p.done .load = .error (s1, st) →
        (∀ wf, st = .park wf → Answers (.tilePeerSend core n) s (parkWalker s1 core n wf))
        ∧ ∀ r x, st = .close r x → Answers (.tilePeerSend core n) s (failClose s1 core n r x 0xFFFFFFFFFFFF))
      ∧ (e.permits ≠ 0 → itemParts s (clusterOf core) p p.done .load = .ok (s1, ps) → piecesBad s1 ps = true →
        Answers (.tilePeerSend core n) s (failClose s1 core n 2 0 0xFFFFFFFFFFFF))
      ∧ (e.permits ≠ 0 → itemParts s (clusterOf core) p p.done .load = .ok (s1, ps) → piecesBad s1 ps = false → local_ →
        Does (.tilePeerSend core n) s fun u => u.net = s.net ++ [msg s (.data (tType t) (tShape t) 0 0 (pieceBytes s1 ps))]
          ∧ (u.ep core n).sent = e.sent + 1 ∧ (u.ep core n).state = (e.take t 0).state
          ∧ ∃ q, at_ u q ∧ q.done = p.done + 1 ∧ q.busy = decide (p.done + 1 < p.count)))
    ∧ (peerAt s core n = some p → e.status = .connected → p.busy = true → p.kind = 1 → p.done < p.count →
      first 3 (BitVec.ofNat 4 k) → e.find true 0 (some 3) = some t →
      (∀ wf, itemParts s (clusterOf core) p p.done .store = .error (s1, .park wf) →
        Answers (.tilePeerWrite core n) s (parkWalker s1 core n wf))
      ∧ (∀ r x, itemParts s (clusterOf core) p p.done .store = .error (s1, .close r x) →
        Answers (.tilePeerWrite core n) s (failClose s1 core n r x 0xFFFFFFFFFFFF))
      ∧ (∀ pa, itemParts s (clusterOf core) p p.done .store = .ok (s1, [(pa, bs.length)]) → bs ≠ [] →
        (∀ k, (s.core k).slog.ctl.getLsbD 0 = false) → Does (.tilePeerWrite core n) s fun u =>
          Wrote s u pa bs ∧ Tagged s u pa bs.length .data ∧ (u.ep core n).buf = [] ∧ (u.ep core n).state = (e.take t cnt).state
          ∧ (u.ep core n).consumed = (if e.peer = none then e.consumed else e.consumed + 1)
          ∧ ∃ q, at_ u q ∧ q.done = p.done + 1))
    ∧ (peerAt s core n = some p → e.status = .connected → e.oldSlot = none → ∀ m : BufMsg, e.buf = [m] → m.held = false →
      frameBad s core n m = true →
      (e.state = 0 → m = got 1 12 → e.find true 0 (some 1) = some t →
        Answers (.tilePeerRequest core n) s (failClose s core n 2 0 0xFFFFFFFFFFFF))
      ∧ (p.busy = true → p.kind = 1 → p.done < p.count → m = got 3 (BitVec.ofNat 4 k) → e.find true 0 (some 3) = some t →
        Answers (.tilePeerWrite core n) s (failClose s core n 2 0 0xFFFFFFFFFFFF)))
    ∧ (peerAt s core n = some p → e.status = .connected → p.busy = true → p.kind = 1 → p.count ≤ p.done →
      e.find false 0 none = some t →
      (e.permits = 0 → Answers (.tilePeerWrite core n) s s)
      ∧ (e.permits ≠ 0 → local_ → e.owner = some 0xFFFFFFFFFFFF → (s.cluster (clusterOf core)).twNotify.getLsbD 16 = false →
        Does (.tilePeerWrite core n) s fun u =>
        (u.ep core n).status = .closing ∧ (u.ep core n).state = (e.take t 0).state
        ∧ (∃ m, u.net = s.net ++ [msg s (.data (tType t) 0 (BitVec.ofNat 64 p.count) 0 []), msg s (.close m 0xFFFFFFFFFFFF)]
          ∧ (u.cluster (clusterOf core)).twCloseLo = m)
        ∧ (u.cluster (clusterOf core)).twCloseHi = BitVec.ofNat 64 (0xFFFFFFFFFFFF + core % 4 * 2 ^ 48 + n * 2 ^ 50)
        ∧ (u.cluster (clusterOf core)).twCloseCnt = (s.cluster (clusterOf core)).twCloseCnt + 1 ∧ ∃ q, at_ u q ∧ q.busy = false))

/-! Debug, the governor's slots, boot, attestation and thermal events (R422 to R432, R437, R438, R443 to R448, R454 to R464) -/

/-- R436 to R438, R443, R445, R447, R448: a stop writes the record where the area has room for it and is memory, notes that it has none
where it has not, and leaves the task STOPPED, and one of a
task that is shipped waits for its arrival; a resume reloads the record if there is one (bytes of an uncorrectable codeword in it read as
zeros, the model's choice, log entry 17: here its pc is read without error); a task that was pre-empted in place waits for its
job; a step is a resume that stops again; a
command for a task in another state does nothing; a resumption on an idle core may wait for its ramp slot (log entry 24). -/
def Obligations.DebugCommandsAndTheStateLog : Prop :=
  ∀ (s : State) (t : BitVec 48) (core a : Nat),
    let x := s.task t
    let area := s.dbg.area.toNat + s.dbg.next.toNat
    let stopped : Prop := x.status = .stopped ∧ x.forDebug = true ∧ x.inPlace = false
    let held : Prop := (s.job x.job).state = .preempting ∨ (s.job x.job).state = .saved
    let runs : Prop := x.status ≠ .ended ∧ x.status ≠ .stopped
    let awake (u : State) : Prop := (u.task t).status ∈ [.ready, .running, .suspended, .waitMsg] ∧ (u.task t).wait = none
      ∧ (u.task t).stopRec = none ∧ (x.high = true ∨ (s.core x.core).gov.kind ≠ .unheld → (u.task t).status ≠ .waitMsg)
    let y := (s.core core).slog
    let n := chunksLen (taskRecord (atStop s t) t none)
    let fits : Prop := s.dbg.next.toNat + n ≤ s.dbg.areaLen.toNat ∧ s.backed area n = true
    let quiet : Prop := (∀ k, (s.core k).slog.ctl.getLsbD 0 = false) ∧ ∀ k, (s.core k).trc.ctl.getLsbD 5 = false
    let stops (u : State) : Prop := exec (.dbgStop t) s = .next u ∧ (u.task t).status = .stopped ∧ (u.task t).wait = none
      ∧ (u.task t).pcc = x.pcc ∧ (u.task t).g = x.g ∧ (u.task t).v = x.v
    exec (.dbgCmdNone t) s = .next s
    ∧ (inTransit s t = true → ∃ u, exec (.dbgStop t) s = .next u ∧ (u.task t).status = x.status
      ∧ (x.ship ≠ none → (u.task t).stopDue = true) ∧ ∀ p ∈ u.ships, p.2.task.gtid = t → p.2.task.stopDue = true)
    ∧ (inTransit s t = false → ¬ runs → exec (.dbgStop t) s = .next s)
    ∧ (inTransit s t = false → runs → fits → ∃ u, stops u ∧ u.dbg = { s.dbg with next := s.dbg.next + BitVec.ofNat 64 n }
      ∧ (u.task t).stopRec = some area
      ∧ (quiet → area % 16 = 0 → u.readNat area 8 = x.gtid.toNat ∧ u.readNat (area + 8) 1 = 1
        ∧ u.readNat (area + 64) 16 = x.pcc.bits.toNat ∧ u.tagAt (area + 64) = x.pcc.tag))
    ∧ (inTransit s t = false → runs → ¬ fits → ∃ u, stops u ∧ u.dbg = { s.dbg with noarea := true } ∧ (u.task t).stopRec = none)
    ∧ (∀ r ∈ [(Instr.dbgResume t, false), (.dbgStep t, true)],
      (¬ stopped ∨ held → exec r.1 s = .next s)
      ∧ (stopped → ¬ held → x.stopRec = none → ∃ u, exec r.1 s = .next u ∧ awake u ∧ (u.task t).stepping = r.2
        ∧ (u.task t).pcc = x.pcc ∧ (u.task t).g = x.g ∧ (u.task t).v = x.v)
      ∧ (stopped → ¬ held → x.stopRec = some a → (s.core x.core).slog.ctl.getLsbD 0 = false → Clean s (a + 64) 16 → ∃ u, exec r.1 s = .next u ∧ awake u ∧ (u.task t).stepping = r.2
        ∧ (u.task t).pcc = ⟨BitVec.ofNat 128 (s.readNat (a + 64) 16), s.tagAt (a + 64)⟩))
    ∧ (∃ u, exec (.slogEnable core) s = .next u ∧ (u.core core).slog.ctl = (y.ctl &&& 6) ||| 1
      ∧ (y.ctl.getLsbD 0 = false → (u.core core).slog.wr = 0 ∧ (u.core core).slog.t0 = s.timebase ∧ (u.core core).logAt = s.timebase)
      ∧ (y.ctl.getLsbD 0 = true → (u.core core).slog.wr = y.wr))
    ∧ ∃ u, exec (.slogDisable core) s = .next u ∧ (u.core core).slog.ctl = y.ctl &&& 6 ∧ (u.core core).slog.wr = y.wr

/-- R422, R423, R426, R429, R432: a slot boundary closes the core estimates, makes written limits effective, carries what was used
beyond a capacity, charges tickets granted ahead, tapers ballast within the fall capacity, and lets held starts proceed; the wait of a
queued start counts up to the slot of its ticket. The estimates' units and rounding, and the package figure formed from them, are log entry
24 (DEDUCED). -/
def Obligations.RampSlotsOpenWithTheirBudgets : Prop :=
  ∀ (s : State) (k n : Nat),
    let g := s.gov
    let cfg := g.newCfg.getD g.cfg
    let per := if s.slowClock then 12800 else 8000
    let rcap (w : W64) := max 1 ((w.extractLsb' 0 9).toNat * 1000 / (w.extractLsb' 20 12).toNat)
    let fcap (w : W64) := max 1 ((w.extractLsb' 9 9).toNat * 4000 / (w.extractLsb' 20 12).toNat)
    let room := fcap cfg - (g.fall - fcap g.cfg)
    let y := (s.core k).gov
    let passed : Prop := g.slot < s.timebase.toNat / 1600
    let opens (u : State) : Prop := u.gov.slot = g.slot + 1 ∧ u.gov.cfg = cfg ∧ u.gov.newCfg = none
      ∧ u.gov.rise = g.rise - rcap g.cfg + sget 0 g.ahead (g.slot + 1)
    (¬ passed → Answers .rampSlotBoundary s s)
    ∧ (passed → Does .rampSlotBoundary s opens)
    ∧ (passed → (∀ p ∈ s.cores, (s.core p.1).towerOf = none ∧ p.2.gov.kind ≠ .ballast) →
      Does .rampSlotBoundary s fun u =>
        (∀ i, (u.core i).gov.est = (s.core i).gov.energy / per ∧ (u.core i).gov.energy = 0 ∧ (u.core i).gov.slotBallast = 0)
        ∧ (swf Core.zero s.cores = true → u.gov.watts = BitVec.ofNat 16 (((s.cores.map fun p => p.2.gov.energy / per).sum
          + (s.cores.map fun p => 2640 * p.2.gov.slotBallast / per).sum) / 1000 + 400)))
    ∧ (passed → g.order = [] → Does .rampSlotBoundary s fun u => u.gov.fall = g.fall - fcap g.cfg)
    ∧ (passed → g.order = [k] → y.kind = .ballast → y.start = none → y.q ≠ 0 → Does .rampSlotBoundary s fun u =>
      let d := min room y.q
      (u.core k).gov.q = y.q - d ∧ u.gov.fall = g.fall - fcap g.cfg + d
      ∧ ((u.core k).gov.kind = if d = y.q then .unheld else .ballast) ∧ u.gov.order = (if d = y.q then [] else [k]))
    ∧ (passed → (k, s.core k) ∈ s.cores → y.kind = .unheld → y.start = some n → n ≤ g.slot + 1 →
      (s.heldStarts k ≠ [] →
        Does .rampSlotBoundary s fun u => (u.core k).gov.kind = .active ∧ (u.core k).gov.start = none ∧ (u.core k).gov.held = [])
      ∧ (s.heldStarts k = [] → ∀ j since, y.held = [(j, since)] → Does .rampSlotBoundary s fun u =>
        (u.core k).gov.held = [] ∧ (u.core k).gov.start = some n
        ∧ (u.core k).gov.rampw = y.rampw + (BitVec.ofNat 64 (1600 * (g.slot + 1)) - since).setWidth 48))

/-- R5, R454 to R459, R462, R463: power-on and reset begin at phase 0 with the image verified, its version fused, or in recovery
with the host links down; only power-on sets the timebase to 0, and CYCLE counts from the reset; each phase ends as the table
says; the firmware's first supervisor tasks wait when phase 3 begins; training sets HBM_TOP; full service begins at a slot
boundary; recovery takes an image that verifies. What a reset leaves of memory, and what the first tasks are, is the model's
choice (log entry 27); the values of the registers for which the spec gives no reset are log entry 2 (DESIGN CHOICE), and that CYCLE counts
while cores are held in reset is log entry 28. -/
def Obligations.BootPhasesAndRecovery : Prop :=
  ∀ (s : State) (die : Nat) (img new : List Byte),
    let floor := s.trust.floor.getD Config.rollback
    let good (img : List Byte) : Prop := Config.imageVerifies img = true ∧ floor.toNat ≤ (Config.imageVersion img).toNat
    let boots (now : W64) (u : State) (img : List Byte) : Prop := u.power = .on
      ∧ u.trust = ⟨some img, s.trust.index, some (Config.imageVersion img)⟩ ∧ (∀ d, (u.die d).bootPhase = 0) ∧ u.tasks = [] ∧ u.net = []
      ∧ (∀ k < 2560, u.core k = { Core.zero with cycle0 := now }) ∧ u.timebase = now
      ∧ u.gov = { Gov.zero with slot := now.toNat / 1600 }
    let recovers (u : State) : Prop := (∀ d < 8, (u.die d).bootPhase = 5) ∧ ∀ p < 4, (u.hp p 5).getLsbD 0 = false
    let phase (d : Nat) := (s.die d).bootPhase
    let up : Prop := s.power = .on ∧ die < 8
    let fused (d : Nat) : Prop := d < 8 ∧ Config.enabledDies.getLsbD d = true ∧ Config.latmap d ≠ 0xFF
    let training : Prop := ∀ d < 8, s.dieEnabled d = true → phase d = 3 ∧ (s.die d).trained = false
    let trained : Prop := ∀ d < 8, s.dieEnabled d = true → phase d = 3 ∧ (s.die d).trained = true
    let out (d : Nat) := ((List.range 128).filter fun j => (sget 0 (s.die d).pcmap (j / 64)).getLsbD (j % 64)).length
    (s.trust.image = some img → good img → Does .powerOnReset s fun u => boots 0 u img ∧ u.mem = [] ∧ u.tags = [] ∧ u.ue = [])
    ∧ ((∀ img, s.trust.image = some img → ¬ good img) → Does .powerOnReset s recovers)
    ∧ (s.power = .off → Answers .packageReset s s)
    ∧ (s.power ≠ .off → s.trust.image = some img → good img → Does .packageReset s fun u =>
      boots s.timebase u img ∧ u.mem = s.mem ∧ u.tags = s.tags ∧ u.ue = s.ue)
    ∧ (s.power ≠ .off → (∀ img, s.trust.image = some img → ¬ good img) → Does .packageReset s recovers)
    ∧ Does .powerLoss s (fun u => u.power = .off ∧ (phase 0 = 5 → u.trust.image = none) ∧ (phase 0 ≠ 5 → u.trust = s.trust))
    ∧ (s.power = .on → phase 0 = 5 → good new → Does (.recoveryImage new) s fun u => boots s.timebase u new)
    ∧ (s.power ≠ .on ∨ phase 0 ≠ 5 ∨ ¬ good new → Answers (.recoveryImage new) s s)
    ∧ (¬ up → Answers (.bootPhaseAdvance die) s s)
    ∧ (up → phase die = 0 → s.trust.image = some img → good img → Does (.bootPhaseAdvance die) s fun u =>
      u.trust.floor = some (Config.imageVersion img) ∧ (∀ w < 5, sget 0 (u.die die).hmap w = Config.hmap die w)
      ∧ (∀ d < 8, u.dieEnabled d = true ↔ fused d)
      ∧ (fused die → (u.die die).bootPhase = 1 ∧ (u.die die).fwVer = Config.imageVersion img) ∧ (¬ fused die → (u.die die).bootPhase = 0))
    ∧ (up → phase die = 0 → (∀ img, s.trust.image = some img → ¬ good img) → Does (.bootPhaseAdvance die) s recovers)
    ∧ (up → phase die = 1 → (∀ d < 8, s.dieEnabled d = true → phase d ≠ 0) → Does (.bootPhaseAdvance die) s fun u =>
      (u.die die).bootPhase = 2 ∧ (∀ w < 5, sget 0 (u.die die).qmap w = Config.qmap die w)
      ∧ (∀ w < 2, sget 0 (u.die die).pcmap w = Config.pcmap die w) ∧ (∀ w < 8, sget 0 (u.die die).wlmap w = Config.wlmap die w)
      ∧ (u.die die).latmap = Config.latmap die)
    ∧ (up → phase die = 1 → (∃ d < 8, s.dieEnabled d = true ∧ phase d = 0) → Answers (.bootPhaseAdvance die) s s)
    ∧ (up → phase die = 2 → Does (.bootPhaseAdvance die) s fun u => (u.die die).bootPhase = 3
      ∧ ∀ f ∈ Config.firstTasks die, let k := die * 320 + f.core % 320
        s.harvested k = false → ∃ d : TaskDesc, .desc d ∈ (u.core k).runHigh ++ (u.core k).runBase
          ∧ d.entry = ⟨f.entry ||| (1#128 <<< 121), .entry⟩ ∧ d.job = f.job ∧ d.asid = f.asid)
    ∧ (up → 3 ≤ (phase die).toNat → Answers (.bootPhaseAdvance die) s s)
    ∧ (training → Does .hbmTrainingDone s fun u => ∀ d < 8, s.dieEnabled d = true → (u.die d).trained = true
      ∧ (u.die d).hbmTop.toNat = (128 - out d) * 2 ^ 30 ∧ (u.die d).hbmFail = decide (out d ≠ 0))
    ∧ (¬ training → Answers .hbmTrainingDone s s)
    ∧ (s.gov.slot < s.timebase.toNat / 1600 → trained → Does .fullServiceStart s fun u =>
      ∀ d < 8, (u.die d).bootPhase = if s.dieEnabled d then 4 else phase d)
    ∧ (s.timebase.toNat / 1600 ≤ s.gov.slot ∨ ¬ trained → Answers .fullServiceStart s s)

/-- R458, R460, R461: an identity request is answered at any time until the index is exhausted, a report only outside recovery; the index advances by one for each
report and each report is signed under its own; the rest are refused by status. That a malformed request and recovery come before an
exhausted index, and that the ninth report of a batch is busy, is log entry 27 (DESIGN CHOICE). -/
def Obligations.AttestationAnswersAndRefuses : Prop :=
  ∀ (s : State) (r : List Byte),
    let n (o k : Nat) := leNat ((r.drop o).take k)
    let well (kind len : Nat) : Prop := r.length = 16 + len ∧ n 0 4 = 0x4B574154 ∧ n 4 2 = 1 ∧ n 6 1 = kind ∧ n 7 1 = 0 ∧ n 8 4 = len ∧ n 12 4 = 0
    let reply (status : Nat) (body : List Byte) : Sent := .attest (leBytes 4 0x4B574154 ++ leBytes 2 1 ++ leBytes 1 (n 6 1)
      ++ leBytes 1 status ++ leBytes 4 body.length ++ leBytes 4 0 ++ body)
    let idx := s.trust.index
    let signed (d : Sent) (idx : W32) : Prop := ∃ body, d = reply 0 (body ++ leBytes 2820 (Config.sign idx body).toNat)
      ∧ body.length = 1488 ∧ body.take 32 = r.drop 16
      ∧ leNat ((body.drop 32).take 32) = (shake256 (s.trust.image.getD [])).toNat
      ∧ leNat ((body.drop 66).take 2) = (s.trust.floor.getD Config.rollback).toNat
      ∧ leNat ((body.drop 68).take 4) = idx.toNat ∧ leNat ((body.drop 72).take 8) = s.enabled.toNat
      ∧ ∀ d < 8, s.dieEnabled d = false → (body.drop (80 + 176 * d)).take 176 = List.replicate 176 0
    let recovery : Prop := (s.die 0).bootPhase = 5
    (well 1 0 → 2 ^ 20 ≤ idx.toNat → Answers (.attestIdentityRequest r) s { s with sent := s.sent ++ [reply 2 []] })
    ∧ (well 1 0 → idx.toNat < 2 ^ 20 → Does (.attestIdentityRequest r) s fun u => ∃ body, body.length = 2584 ∧ u = { s with sent := s.sent ++ [reply 0 body] }
      ∧ leNat (body.take 16) = Config.serial.toNat ∧ leNat ((body.drop 16).take 68) = Config.identityKey.toNat)
    ∧ (well 2 32 → Answers (.attestIdentityRequest r) s s)
    ∧ (¬ well 1 0 → ¬ well 2 32 → Answers (.attestIdentityRequest r) s { s with sent := s.sent ++ [reply 3 []] }
      ∧ Answers (.attestReportRequest [r]) s { s with sent := s.sent ++ [reply 3 []] })
    ∧ (well 1 0 → Answers (.attestReportRequest [r]) s s)
    ∧ (well 2 32 → recovery → Answers (.attestReportRequest [r]) s { s with sent := s.sent ++ [reply 4 []] })
    ∧ (well 2 32 → ¬ recovery → 2 ^ 20 ≤ idx.toNat → Answers (.attestReportRequest [r]) s { s with sent := s.sent ++ [reply 2 []] })
    ∧ (well 2 32 → ¬ recovery → idx.toNat < 2 ^ 20 → Does (.attestReportRequest [r]) s fun u => u.trust = { s.trust with index := idx + 1 }
      ∧ ∃ d, u.sent = s.sent ++ [d] ∧ signed d idx)
    ∧ (well 2 32 → ¬ recovery → idx.toNat + 8 ≤ 2 ^ 20 → Does (.attestReportRequest (List.replicate 9 r)) s fun u =>
      u.trust = { s.trust with index := idx + 8 } ∧ ∃ l, u.sent = s.sent ++ l ++ [reply 1 []] ∧ l.length = 8
        ∧ ∀ i (h : i < l.length), signed l[i] (idx + BitVec.ofNat 32 i))

/-- R457, R464: the thermal actions: rise and fall limits of 10 W/µs from the next slot on, their return, the clock's stop; each
writes a kind-3 record to the die's error log; that of the return goes to the die that throttled first (log entry 27, DESIGN CHOICE). -/
def Obligations.ThermalActions : Prop :=
  ∀ (s : State) (die : Nat) (old : W64) (d : Nat),
    let at_ (d : Nat) := (s.die d).elogBase.toNat + (s.die d).elogWr.toNat % (s.die d).elogLen.toNat
    let ring (d : Nat) : Prop := 32 ≤ (s.die d).elogLen.toNat ∧ s.backed (at_ d) 32 = true ∧ (s.die d).elogNotify.getLsbD 16 = false
    let logged (d : Nat) (u : State) : Prop := ring d → u.readNat (at_ d) 8 = s.timebase.toNat ∧ u.readNat (at_ d + 8) 8 = 3
      ∧ u.readNat (at_ d + 24) 8 = 0 ∧ (u.die d).elogWr = (s.die d).elogWr + 32
    let now := s.gov.newCfg.getD s.gov.cfg
    let limits (u : State) (rise fall : BitVec 9) : Prop := ∃ c, u.gov.newCfg = some c
      ∧ c.extractLsb' 0 9 = rise ∧ c.extractLsb' 9 9 = fall ∧ c.extractLsb' 18 46 = now.extractLsb' 18 46
    (s.dieEnabled die = false → exec (.thermalThrottle die) s = .next s ∧ exec (.thermalClockStop die) s = .next s)
    ∧ (s.dieEnabled die = true → ∃ u, exec (.thermalThrottle die) s = .next u ∧ limits u 10 10
      ∧ u.gov.before = some (s.gov.before.getD (now, die)) ∧ u.gov.cfg = s.gov.cfg ∧ u.power = s.power ∧ logged die u)
    ∧ (s.dieEnabled die = true → ∃ u, exec (.thermalClockStop die) s = .next u ∧ u.power = .clockStopped ∧ logged die u)
    ∧ (s.gov.before = none → exec .thermalRestore s = .next s)
    ∧ (s.gov.before = some (old, d) → ∃ u, exec .thermalRestore s = .next u ∧ limits u (old.extractLsb' 0 9) (old.extractLsb' 9 9)
      ∧ u.gov.before = none ∧ u.gov.cfg = s.gov.cfg ∧ u.power = s.power ∧ logged d u)

/-! Control registers (R8, R151, R299, R300, R330, R331, R351, R394, R408, R416, R417, R419, R432, R443, R457) -/

/-- R8, R299, R330, R331, R351, R394, R408, R414, R416, R419, R432, R443, R457: a RW register reads back its assigned bits, a
32-bit write changes its half, W1C bits clear, a RO register and an unassigned offset take nothing, limits are clamped. That a base
or length off its alignment is rounded down, and PREEMPT_DL outside its range clamped, is the model's choice (log entry 28). -/
def Obligations.ControlRegistersKeepTheirAccess : Prop :=
  ∀ (s : State) (d c i p : Nat) (v old : W64), s.dieEnabled d = true → (s.die d).bootPhase ≠ 0 → (s.die d).bootPhase ≠ 5 →
    c < 80 → i < 256 → p < 4 →
    let put (off n : Nat) : Instr := .controlRegisterWrite false d off n v
    let ones : W64 := BitVec.allOnes 64
    let phys : W64 := 0x3FFFFFFFFFC0
    let virt : W64 := 0xFFFFFFFFFFFFF
    let rw : List (Nat × W64) :=
      [(0x100000, phys), (0x100020, virt), (0x100028, virt), (0x100030, virt), (0x100038, virt), (0x100050, phys), (0x100058, ones),
       (0x400008 + 0x100 * c, 0x1FFFF), (0x502000 + 8 * i, 0x1F), (0x503000, 0x3FFFFFFFF000), (0x503008, ~~~0xFFF), (0x503028, ones),
       (0x601000 + 16 * i, 0x3FFFFFFFF00F), (0x601008 + 16 * i, ones), (0x800008 + 0x100 * c, 0xFFFFFFFFFFFE0),
       (0x800010 + 0x100 * c, 0xFFFFFFFFFF), (0x800038 + 0x100 * c, 0x1FFFF), (0x900000, phys), (0x900008, ones), (0x900020, ones),
       (0x900100 + 32 * (i % 8), ones), (0x900108 + 32 * (i % 8), 0xFFFFFFFFFFFF), (0x900110 + 32 * (i % 8), virt),
       (0xA00008, phys), (0xA00010, ~~~63), (0xA00020, ones), (0xA00028, 0x1FFFF)]
    let ro : List Nat :=
      [8 * (i % 5), 0x40, 0x80 + 8 * (i % 5), 0xC0, 0xC8, 0xD0 + 8 * (i % 8), 0x110, 0x1000 + 8 * (i % 160), 0x100010, 0x300000,
       0x400040 + 0x100 * c + 8 * (i % 16), 0x503010, 0x503020, 0x503030, 0x600000 + 0x100 * p + 8 * (i % 7), 0x610000 + 8 * i,
       0x700008, 0x700010, 0x700018, 0x800018 + 0x100 * c, 0x800020 + 0x100 * c, 0x800028 + 0x100 * c, 0x800030 + 0x100 * c, 0x900018,
       0xA00000, 0xA00018]
    let lsize := (v.extractLsb' 0 4).toNat
    let port : List (Nat × W64) := [(0, 0x3FFFF), (1, 0xFFFFFFFFFFFF), (2, 0xFFFFFFFF), (3, ones), (4, ones)]
    (∀ r ∈ rw, Does (put r.1 8) s (fun u => ctlRead u d r.1 = some (v &&& r.2))
      ∧ (ctlRead s d r.1 = some old →
        Does (put r.1 4) s (fun u => ctlRead u d r.1 = some ((old.extractLsb' 32 32 ++ v.extractLsb' 0 32) &&& r.2))
        ∧ Does (put (r.1 + 4) 4) s (fun u => ctlRead u d r.1 = some ((v.extractLsb' 0 32 ++ old.extractLsb' 0 32) &&& r.2))))
    ∧ (∀ o ∈ ro, Answers (put o 8) s s ∧ Answers (put o 4) s s ∧ Answers (put (o + 4) 4) s s)
    ∧ (∀ o, o % 8 = 0 → ctlRead s d o = none → Answers (put o 8) s s)
    ∧ Does (put 0x300008 8) s (fun u => ctlRead u d 0x300008 = some (if lsize ≤ 12 then v &&& 0x3FFFFFFFF00F else (v &&& 0x3FFFFFFFF000) ||| 12))
    ∧ Does (put 0x700000 8) s (fun u => ∃ w, ctlRead u d 0x700000 = some w
      ∧ (w.extractLsb' 0 9).toNat = max 10 (min 400 (v.extractLsb' 0 9).toNat)
      ∧ (w.extractLsb' 9 9).toNat = max 10 (min 400 (v.extractLsb' 9 9).toNat) ∧ w.extractLsb' 18 2 = 0
      ∧ (w.extractLsb' 20 12).toNat = max 100 (min 4000 (v.extractLsb' 20 12).toNat) ∧ w.extractLsb' 32 32 = 0 ∧ u.gov.cfg = s.gov.cfg)
    ∧ Does (put 0x100060 8) s (fun u => u.spire.preemptDl.toNat = max 1 (min (2 ^ 32 - 1) v.toNat))
    ∧ Does (put 0x100008 8) s (fun u => u.spire.lqCfg.extractLsb' 0 21 = v.extractLsb' 0 21
      ∧ u.spire.lqCfg.getLsbD 21 = (s.spire.lqCfg.getLsbD 21 && !v.getLsbD 21) ∧ u.spire.lqCfg.extractLsb' 22 42 = 0)
    ∧ Does (put 0x100048 8) s (fun u => u.spire.jobStat.getLsbD 36 = (s.spire.jobStat.getLsbD 36 && !v.getLsbD 36))
    ∧ (∀ r ∈ port, Does (.controlRegisterWrite true d (0x600000 + 0x100 * p + 8 * r.1) 8 v) s fun u =>
      ctlRead u d (0x600000 + 0x100 * p + 8 * r.1) = some (v &&& r.2))

/-- R300, R350, R352, R395, R402, R416, R417, R419, R443, R450, R454, R464: writing a command register is the command; the
management port reaches the host block alone; a die that does not answer yet takes no write. -/
def Obligations.CommandRegistersActAsTheirCommands : Prop :=
  ∀ (s : State) (d c p : Nat) (e : BitVec 9) (port : BitVec 2) (q : BitVec 9) (word : BitVec 3) (v : W64) (m : Bool) (off n : Nat),
    let up : Prop := s.dieEnabled d = true ∧ (s.die d).bootPhase ≠ 0 ∧ (s.die d).bootPhase ≠ 5
    let put (off : Nat) := exec (.controlRegisterWrite false d off 8 v) s
    let job : W32 := v.extractLsb' 0 32
    let gtid : BitVec 48 := v.extractLsb' 0 48
    let k := d * 80 + c
    (¬ up ∨ (n ≠ 4 ∧ n ≠ 8) ∨ off % n ≠ 0 → Answers (.controlRegisterWrite m d off n v) s s)
    ∧ (off / 0x100000 ≠ 6 → Answers (.controlRegisterWrite true d off n v) s s)
    ∧ (up → c < 80 →
      put 0x100018 = exec (.lqTailWrite v) s
      ∧ put 0x100040 = exec ([.jobCtlNone job, .jobPreempt job, .jobResume job, .jobKill job].getD (v.extractLsb' 32 2).toNat (.jobKill job)) s
      ∧ put (0x400000 + 0x100 * c) = exec (.fbStatWrite k v) s
      ∧ (v.getLsbD 0 = true → put (0x400010 + 0x100 * c) = exec (.replayAll k) s)
      ∧ (v.getLsbD 0 = false → put (0x400010 + 0x100 * c) = .next s)
      ∧ put (0x501000 + 8 * e.toNat) = exec (.ctEntryWrite e v) s
      ∧ (v.getLsbD 0 = true → put 0x503018 = exec (.alogEnable v) s)
      ∧ (v.getLsbD 3 = true → put 0x503018 = exec (.alogReplayStart v) s)
      ∧ put (0x800000 + 0x100 * c) = exec (.twAdopt k v) s
      ∧ put 0x900010 = exec ([.dbgCmdNone gtid, .dbgStop gtid, .dbgResume gtid, .dbgStep gtid].getD (v.extractLsb' 48 2).toNat (.dbgStep gtid)) s
      ∧ exec (.controlRegisterWrite true d (0x610000 + 64 * (512 * port.toNat + q.toNat) + 8 * word.toNat) 8 v) s
          = exec (.qpContextWrite port q word v) s
      ∧ (p < 256 → ∀ h < 2, exec (.controlRegisterWrite true d (0x601000 + 16 * p + 8 * h) 8 v) s = put (0x601000 + 16 * p + 8 * h)))

/-! Decoding, stepping, reset and what every step keeps -/

/-- R86, R88 to R90, R113: when the word at the pc, with its literal word, decodes to an instruction within the task's declared
registers, an issue of the core runs it, with what afterIssue adds; a word that decodes to none traps ILLEGAL_INSTR, one that
names an undeclared register ILLEGAL_REG. An event that comes next is its row. That a step is the head of an agenda, that time passes at its
end, and that a slot boundary which the timebase has passed and a parked access whose turn has come are steps of their own before it, is the
model's choice (log entries 4, 5, 31); that loop-back stores may be performed before an issue is log entry 30. -/
def Obligations.StepRunsTheDecodedInstruction : Prop :=
  ∀ (s : State) (k : Nat) (ms : List Move) (i : Instr) (rest : List Byte),
    let b := State.stepLoop { s with agenda := ms, cur := k }
    let x := b.curTask
    let pc := x.pc
    let pa := spadPa k + pc.toNat
    let w := BitVec.ofNat 32 (b.readNat pa 4)
    let l := BitVec.ofNat 32 (b.readNat (pa + 4) 4)
    let len := if hasLiteral w then 8 else 4
    let now : Prop := s.power = .on ∧ slotPassed s = false ∧ s.again = none
    let f := if hasLiteral w then (b.chargeCur pa 4).chargeCur (pa + 4) 4 else b.chargeCur pa 4
    let issues : Prop := now ∧ s.agenda = .issue k :: ms ∧ canIssue s k = true ∧ x.held = []
    let fetches : Prop := pc.toNat % 4 = 0 ∧ pc.toNat + len ≤ 0x80000 ∧ capCheck x.pcc permEx pc 4 = none
      ∧ (hasLiteral w = true → capCheck x.pcc permEx (pc + 4) 4 = none) ∧ Clean b pa len
    let info : W64 := (if hasLiteral w then l else 0) ++ w
    (issues → fetches → s.dbg.bp = [] → decodeBytes (b.readBytes pa 8) = .ok (i, rest) → illegalReg x i = none →
      step s = mapNext (fun u => endStep (afterIssue f x (some i) u)) (exec i f))
    ∧ (issues → fetches → (∀ j r, decodeBytes (b.readBytes pa 8) ≠ .ok (j, r)) →
      step s = .next (endStep (afterIssue b x none (raise f b.curTid .illegalInstr info false))))
    ∧ (∀ r, issues → fetches → decodeBytes (b.readBytes pa 8) = .ok (i, rest) → illegalReg x i = some r →
      step s = .next (endStep (afterIssue b x none (raise f b.curTid .illegalReg
        (BitVec.ofNat 64 (w.toNat + r.1 * 2 ^ 32 + r.2 * 2 ^ 34)) false))))
    ∧ (now → s.agenda = .event i :: ms → step s = mapNext endStep (exec i { s with agenda := ms }))
    ∧ (s.power = .on → slotPassed s = true → step s = .next { slotBoundary s with tick := s.tick + 1 })
    ∧ (s.power = .off → (∀ ms, s.agenda ≠ .event .powerOnReset :: ms) → step s = .fault .powerOff)

/-- R92, R96 to R102: words written out field by field from the encoding tables decode to their instructions; words with a
reserved bit, an unassigned major or function do not. -/
def Obligations.WordsDecodeAsTheTablesSay : Prop :=
  let always : Guard := ⟨false, 0⟩
  decode 0x0384_0268 0 = .ok (.engW always 7 1 4) ∧ decode 0x0404_0069 0 = .ok (.engR always 8 1 0)
  ∧ decode 0x0004_006A 0 = .ok (.engGo always 1) ∧ decode 0x0004_00EA 0 = .ok (.engWait always 1)
  ∧ decode 0b0000_00011_00001_00010_000000_0000001#32 0 = .ok (.add always 3 1 2)
  ∧ decode 0b1010_00011_00001_11111111111_0000010#32 0 = .ok (.addi ⟨true, 2⟩ 3 1 0x7FF)
  ∧ decode 0b0000_00101_0000000000000000_0001100#32 0xDEADBEEF = .ok (.lit always 5 0xDEADBEEF)
  ∧ decode 0b0000_00100_00001_00000011_110_0100000#32 0 = .ok (.ld always 4 1 3 6)
  ∧ (∃ e, decode 0 0 = .error e) ∧ (∃ e, decode 0xFFFFFFFF 0 = .error e)
  ∧ ∃ e, decode 0b0000_00011_00001_00001_101000_0000001#32 0 = .error e

/-- R88, R92, R96 to R102: the bytes of every well-formed instruction that has words decode to it, with every operand as it is,
and leave what follows. -/
def Obligations.EveryInstructionDecodesFromItsWords : Prop :=
  ∀ (i : Instr) (rest : List Byte), i.wf = true → encode i ≠ [] →
    decodeBytes ((encode i).flatMap bytesOfWord ++ rest) = .ok (i, rest)

/-- R88: decoding is strict: a word that decodes, with its literal word where it has one, is the encoding of its instruction and
of no other, and that instruction is well-formed. -/
def Obligations.EveryDecodedWordIsAnEncoding : Prop :=
  ∀ (w l : W32) (i : Instr), decode w l = .ok i → encode i = (if hasLiteral w then [w, l] else [w]) ∧ i.wf = true

/-- R5, R49, R299, R431, R432, R454: after power-on reset the timebase is 0, every die is in phase 0, no task, run queue entry,
counter, endpoint slot or range lock is held, every tag is DATA, and the limits are those of GOV_CFG and PREEMPT_DL. -/
def Obligations.ResetLeavesTheStatedState : Prop :=
  let s := State.reset
  s.timebase = 0 ∧ (∀ d, (s.die d).bootPhase = 0) ∧ (∀ t, (s.task t).status = .ended) ∧ (∀ a, s.tagAt a = .data)
  ∧ (∀ k, (s.core k).runHigh = [] ∧ (s.core k).runBase = [] ∧ (s.core k).locks = [] ∧ (s.core k).debugEn = false
    ∧ (s.core k).cycle0 = 0 ∧ (s.core k).gov.kind = .unheld
    ∧ ∀ n, (s.core k).counter n = Counter.zero ∧ (s.ep k n).status = .free ∧ (s.ep k n).gen = 0)
  ∧ s.gov.riseLim = 60 ∧ s.gov.fallLim = 60 ∧ s.gov.cstart = 1200 ∧ s.gov.slot = 0 ∧ s.gov.viol = 0
  ∧ s.spire.preemptDl = 32000 ∧ s.spire.lqBase = 0 ∧ s.spire.lqCfg = 0 ∧ s.astab = 0 ∧ s.net = [] ∧ s.sent = []

/-- Memory is in its canonical form after reset: the model's invariant (log entry 1). -/
def Obligations.ResetMemoryIsCanonical : Prop := MemoryWf State.reset

/-- Every step keeps memory in its canonical form, from any state that has it: addresses strictly rising, none listed with the
value an unlisted one reads as. The form is the model's (log entry 1). -/
def Obligations.EveryStepKeepsMemoryCanonical : Prop := Invariant MemoryWf
end

