-- ==== Sys2Proof/Laws/Sparse.lean ====
section
/-! SUPPORT. Sparse data: a read after a write, and the canonical form under every write. -/

namespace Sys2Proof.Machine

variable {α : Type}

@[simp] theorem sget_nil (d : α) (n : Nat) : sget d [] n = d := rfl

theorem sget_sdel (d : α) (m : List (Nat × α)) (n k : Nat) :
    sget d (sdel m n) k = if k = n then d else sget d m k := by
  induction m with
  | nil => simp [sdel]
  | cons e m ih =>
    obtain ⟨j, v⟩ := e
    by_cases h : n = j
    · by_cases hk : k = n
      · simp_all [sdel, sget]
      · simp_all [sdel, sget]
    · by_cases hk : k = j
      · have : k ≠ n := fun e => h (e ▸ hk ▸ rfl)
        simp_all [sdel, sget]
      · simp_all [sdel, sget]

theorem sget_sins_same (d : α) (m : List (Nat × α)) (n : Nat) (v : α) :
    sget d (sins (sdel m n) n v) n = v := by
  induction m with
  | nil => simp [sdel, sins, sget]
  | cons e m ih =>
    obtain ⟨j, w⟩ := e
    by_cases hn : n = j
    · simpa [sdel, hn] using hn ▸ ih
    · by_cases hl : n < j
      · simp [sdel, sins, sget, hn, hl]
      · simp [sdel, sins, sget, hn, hl, ih]

theorem sget_sins_other (d : α) (m : List (Nat × α)) (n k : Nat) (v : α) (h : k ≠ n) :
    sget d (sins m n v) k = sget d m k := by
  induction m with
  | nil => simp [sins, sget, h]
  | cons e m ih =>
    obtain ⟨j, w⟩ := e
    by_cases hl : n < j
    · simp [sins, sget, hl, h]
    · by_cases hk : k = j
      · simp [sins, sget, hl, hk]
      · simp [sins, sget, hl, hk, ih]

/-- A read after a write: the value at the key written, every other key as before. -/
theorem sget_sset [DecidableEq α] (d : α) (m : List (Nat × α)) (n k : Nat) (v : α) :
    sget d (sset d m n v) k = if k = n then v else sget d m k := by
  unfold sset
  split
  · rename_i h
    simp [sget_sdel, h]
  · by_cases h : k = n
    · subst h; simpa using sget_sins_same d m k v
    · simp [sget_sins_other d _ n k v h, sget_sdel, h]

@[simp] theorem sget_sset_same [DecidableEq α] (d : α) (m : List (Nat × α)) (n : Nat) (v : α) :
    sget d (sset d m n v) n = v := by simp [sget_sset]

theorem sget_sset_other [DecidableEq α] (d : α) (m : List (Nat × α)) (n k : Nat) (v : α) (h : k ≠ n) :
    sget d (sset d m n v) k = sget d m k := by simp [sget_sset, h]

theorem swfFrom_mono [DecidableEq α] (d : α) (m : List (Nat × α)) (lo hi : Nat) (h : lo ≤ hi)
    (w : swfFrom d hi m = true) : swfFrom d lo m = true := by
  cases m with
  | nil => rfl
  | cons e m =>
    obtain ⟨j, v⟩ := e
    simp only [swfFrom, Bool.and_eq_true, decide_eq_true_eq] at w ⊢
    exact ⟨⟨by omega, w.1.2⟩, w.2⟩

theorem swfFrom_sdel [DecidableEq α] (d : α) (m : List (Nat × α)) (lo n : Nat) (w : swfFrom d lo m = true) :
    swfFrom d lo (sdel m n) = true := by
  induction m generalizing lo with
  | nil => rfl
  | cons e m ih =>
    obtain ⟨j, v⟩ := e
    simp only [swfFrom, Bool.and_eq_true, decide_eq_true_eq] at w
    by_cases h : n = j
    · simp only [sdel, h, if_true]
      exact h ▸ ih lo (swfFrom_mono d m lo (j + 1) (by omega) w.2)
    · simp only [sdel, h, if_false, swfFrom, Bool.and_eq_true, decide_eq_true_eq]
      exact ⟨w.1, ih (j + 1) w.2⟩

theorem swfFrom_sins [DecidableEq α] (d : α) (m : List (Nat × α)) (lo n : Nat) (v : α) (hv : v ≠ d) (hlo : lo ≤ n)
    (hn : ∀ e ∈ m, e.1 ≠ n) (w : swfFrom d lo m = true) : swfFrom d lo (sins m n v) = true := by
  induction m generalizing lo with
  | nil => simp [sins, swfFrom, hv, hlo]
  | cons e m ih =>
    obtain ⟨j, u⟩ := e
    have hj : j ≠ n := hn (j, u) (by simp)
    simp only [swfFrom, Bool.and_eq_true, decide_eq_true_eq] at w
    by_cases h : n < j
    · simp only [sins, h, if_true, swfFrom, Bool.and_eq_true, decide_eq_true_eq]
      exact ⟨⟨hlo, hv⟩, ⟨by omega, w.1.2⟩, w.2⟩
    · simp only [sins, h, if_false, swfFrom, Bool.and_eq_true, decide_eq_true_eq]
      exact ⟨w.1, ih (j + 1) (by omega) (fun e he => hn e (by simp [he])) w.2⟩

theorem sdel_keys (m : List (Nat × α)) (n : Nat) : ∀ e ∈ sdel m n, e.1 ≠ n := by
  induction m with
  | nil => simp [sdel]
  | cons e m ih =>
    obtain ⟨j, v⟩ := e
    by_cases h : n = j
    · subst h; simp only [sdel, if_true]; exact ih
    · simp only [sdel, h, if_false, List.mem_cons]
      rintro e (rfl | he)
      · exact fun hj => h hj.symm
      · exact ih e he

/-- A write keeps the canonical form. -/
theorem swf_sset [DecidableEq α] (d : α) (m : List (Nat × α)) (n : Nat) (v : α) (w : swf d m = true) :
    swf d (sset d m n v) = true := by
  unfold sset swf at *
  split
  · exact swfFrom_sdel d m 0 n w
  · rename_i hv
    exact swfFrom_sins d _ 0 n v hv (by omega) (sdel_keys m n) (swfFrom_sdel d m 0 n w)

/-- Two canonical maps that read the same at every key are the same list. -/
theorem swf_ext [DecidableEq α] (d : α) (m n : List (Nat × α)) (lo : Nat) (hm : swfFrom d lo m = true) (hn : swfFrom d lo n = true)
    (h : ∀ k, sget d m k = sget d n k) : m = n := by
  have low : ∀ (l : List (Nat × α)) (b : Nat), swfFrom d b l = true → ∀ k < b, sget d l k = d := by
    intro l
    induction l with
    | nil => intros; rfl
    | cons e l ih =>
      obtain ⟨j, v⟩ := e
      intro b hb k hk
      simp only [swfFrom, Bool.and_eq_true, decide_eq_true_eq] at hb
      have : k ≠ j := by omega
      simp [sget, this, ih (j + 1) hb.2 k (by omega)]
  induction m generalizing n lo with
  | nil =>
    cases n with
    | nil => rfl
    | cons e n =>
      obtain ⟨j, v⟩ := e
      simp only [swfFrom, Bool.and_eq_true, decide_eq_true_eq] at hn
      have := h j
      simp [sget] at this
      exact absurd this.symm hn.1.2
  | cons e m ih =>
    obtain ⟨j, v⟩ := e
    have hm0 := hm
    simp only [swfFrom, Bool.and_eq_true, decide_eq_true_eq] at hm
    cases n with
    | nil =>
      have := h j
      simp [sget] at this
      exact absurd this hm.1.2
    | cons f n =>
      obtain ⟨i, u⟩ := f
      have hn0 := hn
      simp only [swfFrom, Bool.and_eq_true, decide_eq_true_eq] at hn
      have hji : j = i := by
        rcases Nat.lt_trichotomy j i with hl | he | hg
        · have e1 := h j
          have hne : j ≠ i := by omega
          simp [sget, hne, low n (i + 1) hn.2 j (by omega)] at e1
          exact absurd e1 hm.1.2
        · exact he
        · have e1 := h i
          have hne : i ≠ j := by omega
          simp [sget, hne, low m (j + 1) hm.2 i (by omega)] at e1
          exact absurd e1.symm hn.1.2
      subst hji
      have hv : v = u := by simpa [sget] using h j
      subst hv
      congr 1
      refine ih n (j + 1) hm.2 hn.2 fun k => ?_
      by_cases hk : k = j
      · subst hk; rw [low m (k + 1) hm.2 k (by omega), low n (k + 1) hn.2 k (by omega)]
      · have := h k
        simpa [sget, hk] using this

end Sys2Proof.Machine
end

