-- ==== Sys2Proof/Laws/State.lean ====
section
/-! SUPPORT. One lemma per field per update of State, reads after writes of its maps, and the registers of a task. -/

namespace Sys2Proof.Machine

/-! Fields under updates -/

@[simp] theorem State.setTask_tick (s : State) (t : BitVec 48) (v : Task) : (s.setTask t v).tick = s.tick := rfl
@[simp] theorem State.setTask_agenda (s : State) (t : BitVec 48) (v : Task) : (s.setTask t v).agenda = s.agenda := rfl
@[simp] theorem State.setTask_cur (s : State) (t : BitVec 48) (v : Task) : (s.setTask t v).cur = s.cur := rfl
@[simp] theorem State.setTask_timebase (s : State) (t : BitVec 48) (v : Task) : (s.setTask t v).timebase = s.timebase := rfl
@[simp] theorem State.setTask_power (s : State) (t : BitVec 48) (v : Task) : (s.setTask t v).power = s.power := rfl
@[simp] theorem State.setTask_chip (s : State) (t : BitVec 48) (v : Task) : (s.setTask t v).chip = s.chip := rfl
@[simp] theorem State.setTask_enabled (s : State) (t : BitVec 48) (v : Task) : (s.setTask t v).enabled = s.enabled := rfl
@[simp] theorem State.setTask_mem (s : State) (t : BitVec 48) (v : Task) : (s.setTask t v).mem = s.mem := rfl
@[simp] theorem State.setTask_tags (s : State) (t : BitVec 48) (v : Task) : (s.setTask t v).tags = s.tags := rfl
@[simp] theorem State.setTask_ue (s : State) (t : BitVec 48) (v : Task) : (s.setTask t v).ue = s.ue := rfl
@[simp] theorem State.setTask_cores (s : State) (t : BitVec 48) (v : Task) : (s.setTask t v).cores = s.cores := rfl
@[simp] theorem State.setTask_clusters (s : State) (t : BitVec 48) (v : Task) : (s.setTask t v).clusters = s.clusters := rfl
@[simp] theorem State.setTask_dies (s : State) (t : BitVec 48) (v : Task) : (s.setTask t v).dies = s.dies := rfl
@[simp] theorem State.setTask_astab (s : State) (t : BitVec 48) (v : Task) : (s.setTask t v).astab = s.astab := rfl
@[simp] theorem State.setTask_spire (s : State) (t : BitVec 48) (v : Task) : (s.setTask t v).spire = s.spire := rfl
@[simp] theorem State.setTask_gov (s : State) (t : BitVec 48) (v : Task) : (s.setTask t v).gov = s.gov := rfl
@[simp] theorem State.setTask_fabric (s : State) (t : BitVec 48) (v : Task) : (s.setTask t v).fabric = s.fabric := rfl
@[simp] theorem State.setTask_host (s : State) (t : BitVec 48) (v : Task) : (s.setTask t v).host = s.host := rfl
@[simp] theorem State.setTask_dbg (s : State) (t : BitVec 48) (v : Task) : (s.setTask t v).dbg = s.dbg := rfl
@[simp] theorem State.setTask_trust (s : State) (t : BitVec 48) (v : Task) : (s.setTask t v).trust = s.trust := rfl
@[simp] theorem State.setTask_net (s : State) (t : BitVec 48) (v : Task) : (s.setTask t v).net = s.net := rfl
@[simp] theorem State.setTask_ships (s : State) (t : BitVec 48) (v : Task) : (s.setTask t v).ships = s.ships := rfl
@[simp] theorem State.setTask_sent (s : State) (t : BitVec 48) (v : Task) : (s.setTask t v).sent = s.sent := rfl

@[simp] theorem State.onTask_tick (s : State) (t : BitVec 48) (f : Task → Task) : (s.onTask t f).tick = s.tick := rfl
@[simp] theorem State.onTask_agenda (s : State) (t : BitVec 48) (f : Task → Task) : (s.onTask t f).agenda = s.agenda := rfl
@[simp] theorem State.onTask_cur (s : State) (t : BitVec 48) (f : Task → Task) : (s.onTask t f).cur = s.cur := rfl
@[simp] theorem State.onTask_timebase (s : State) (t : BitVec 48) (f : Task → Task) : (s.onTask t f).timebase = s.timebase := rfl
@[simp] theorem State.onTask_power (s : State) (t : BitVec 48) (f : Task → Task) : (s.onTask t f).power = s.power := rfl
@[simp] theorem State.onTask_chip (s : State) (t : BitVec 48) (f : Task → Task) : (s.onTask t f).chip = s.chip := rfl
@[simp] theorem State.onTask_enabled (s : State) (t : BitVec 48) (f : Task → Task) : (s.onTask t f).enabled = s.enabled := rfl
@[simp] theorem State.onTask_mem (s : State) (t : BitVec 48) (f : Task → Task) : (s.onTask t f).mem = s.mem := rfl
@[simp] theorem State.onTask_tags (s : State) (t : BitVec 48) (f : Task → Task) : (s.onTask t f).tags = s.tags := rfl
@[simp] theorem State.onTask_ue (s : State) (t : BitVec 48) (f : Task → Task) : (s.onTask t f).ue = s.ue := rfl
@[simp] theorem State.onTask_cores (s : State) (t : BitVec 48) (f : Task → Task) : (s.onTask t f).cores = s.cores := rfl
@[simp] theorem State.onTask_clusters (s : State) (t : BitVec 48) (f : Task → Task) : (s.onTask t f).clusters = s.clusters := rfl
@[simp] theorem State.onTask_dies (s : State) (t : BitVec 48) (f : Task → Task) : (s.onTask t f).dies = s.dies := rfl
@[simp] theorem State.onTask_astab (s : State) (t : BitVec 48) (f : Task → Task) : (s.onTask t f).astab = s.astab := rfl
@[simp] theorem State.onTask_spire (s : State) (t : BitVec 48) (f : Task → Task) : (s.onTask t f).spire = s.spire := rfl
@[simp] theorem State.onTask_gov (s : State) (t : BitVec 48) (f : Task → Task) : (s.onTask t f).gov = s.gov := rfl
@[simp] theorem State.onTask_fabric (s : State) (t : BitVec 48) (f : Task → Task) : (s.onTask t f).fabric = s.fabric := rfl
@[simp] theorem State.onTask_host (s : State) (t : BitVec 48) (f : Task → Task) : (s.onTask t f).host = s.host := rfl
@[simp] theorem State.onTask_dbg (s : State) (t : BitVec 48) (f : Task → Task) : (s.onTask t f).dbg = s.dbg := rfl
@[simp] theorem State.onTask_trust (s : State) (t : BitVec 48) (f : Task → Task) : (s.onTask t f).trust = s.trust := rfl
@[simp] theorem State.onTask_net (s : State) (t : BitVec 48) (f : Task → Task) : (s.onTask t f).net = s.net := rfl
@[simp] theorem State.onTask_ships (s : State) (t : BitVec 48) (f : Task → Task) : (s.onTask t f).ships = s.ships := rfl
@[simp] theorem State.onTask_sent (s : State) (t : BitVec 48) (f : Task → Task) : (s.onTask t f).sent = s.sent := rfl

@[simp] theorem State.onCur_tick (s : State) (f : Task → Task) : (s.onCur f).tick = s.tick := rfl
@[simp] theorem State.onCur_agenda (s : State) (f : Task → Task) : (s.onCur f).agenda = s.agenda := rfl
@[simp] theorem State.onCur_cur (s : State) (f : Task → Task) : (s.onCur f).cur = s.cur := rfl
@[simp] theorem State.onCur_timebase (s : State) (f : Task → Task) : (s.onCur f).timebase = s.timebase := rfl
@[simp] theorem State.onCur_power (s : State) (f : Task → Task) : (s.onCur f).power = s.power := rfl
@[simp] theorem State.onCur_chip (s : State) (f : Task → Task) : (s.onCur f).chip = s.chip := rfl
@[simp] theorem State.onCur_enabled (s : State) (f : Task → Task) : (s.onCur f).enabled = s.enabled := rfl
@[simp] theorem State.onCur_mem (s : State) (f : Task → Task) : (s.onCur f).mem = s.mem := rfl
@[simp] theorem State.onCur_tags (s : State) (f : Task → Task) : (s.onCur f).tags = s.tags := rfl
@[simp] theorem State.onCur_ue (s : State) (f : Task → Task) : (s.onCur f).ue = s.ue := rfl
@[simp] theorem State.onCur_cores (s : State) (f : Task → Task) : (s.onCur f).cores = s.cores := rfl
@[simp] theorem State.onCur_clusters (s : State) (f : Task → Task) : (s.onCur f).clusters = s.clusters := rfl
@[simp] theorem State.onCur_dies (s : State) (f : Task → Task) : (s.onCur f).dies = s.dies := rfl
@[simp] theorem State.onCur_astab (s : State) (f : Task → Task) : (s.onCur f).astab = s.astab := rfl
@[simp] theorem State.onCur_spire (s : State) (f : Task → Task) : (s.onCur f).spire = s.spire := rfl
@[simp] theorem State.onCur_gov (s : State) (f : Task → Task) : (s.onCur f).gov = s.gov := rfl
@[simp] theorem State.onCur_fabric (s : State) (f : Task → Task) : (s.onCur f).fabric = s.fabric := rfl
@[simp] theorem State.onCur_host (s : State) (f : Task → Task) : (s.onCur f).host = s.host := rfl
@[simp] theorem State.onCur_dbg (s : State) (f : Task → Task) : (s.onCur f).dbg = s.dbg := rfl
@[simp] theorem State.onCur_trust (s : State) (f : Task → Task) : (s.onCur f).trust = s.trust := rfl
@[simp] theorem State.onCur_net (s : State) (f : Task → Task) : (s.onCur f).net = s.net := rfl
@[simp] theorem State.onCur_ships (s : State) (f : Task → Task) : (s.onCur f).ships = s.ships := rfl
@[simp] theorem State.onCur_sent (s : State) (f : Task → Task) : (s.onCur f).sent = s.sent := rfl

@[simp] theorem State.setCore_tick (s : State) (k : Nat) (v : Core) : (s.setCore k v).tick = s.tick := rfl
@[simp] theorem State.setCore_agenda (s : State) (k : Nat) (v : Core) : (s.setCore k v).agenda = s.agenda := rfl
@[simp] theorem State.setCore_cur (s : State) (k : Nat) (v : Core) : (s.setCore k v).cur = s.cur := rfl
@[simp] theorem State.setCore_timebase (s : State) (k : Nat) (v : Core) : (s.setCore k v).timebase = s.timebase := rfl
@[simp] theorem State.setCore_power (s : State) (k : Nat) (v : Core) : (s.setCore k v).power = s.power := rfl
@[simp] theorem State.setCore_chip (s : State) (k : Nat) (v : Core) : (s.setCore k v).chip = s.chip := rfl
@[simp] theorem State.setCore_enabled (s : State) (k : Nat) (v : Core) : (s.setCore k v).enabled = s.enabled := rfl
@[simp] theorem State.setCore_mem (s : State) (k : Nat) (v : Core) : (s.setCore k v).mem = s.mem := rfl
@[simp] theorem State.setCore_tags (s : State) (k : Nat) (v : Core) : (s.setCore k v).tags = s.tags := rfl
@[simp] theorem State.setCore_ue (s : State) (k : Nat) (v : Core) : (s.setCore k v).ue = s.ue := rfl
@[simp] theorem State.setCore_tasks (s : State) (k : Nat) (v : Core) : (s.setCore k v).tasks = s.tasks := rfl
@[simp] theorem State.setCore_clusters (s : State) (k : Nat) (v : Core) : (s.setCore k v).clusters = s.clusters := rfl
@[simp] theorem State.setCore_dies (s : State) (k : Nat) (v : Core) : (s.setCore k v).dies = s.dies := rfl
@[simp] theorem State.setCore_astab (s : State) (k : Nat) (v : Core) : (s.setCore k v).astab = s.astab := rfl
@[simp] theorem State.setCore_spire (s : State) (k : Nat) (v : Core) : (s.setCore k v).spire = s.spire := rfl
@[simp] theorem State.setCore_gov (s : State) (k : Nat) (v : Core) : (s.setCore k v).gov = s.gov := rfl
@[simp] theorem State.setCore_fabric (s : State) (k : Nat) (v : Core) : (s.setCore k v).fabric = s.fabric := rfl
@[simp] theorem State.setCore_host (s : State) (k : Nat) (v : Core) : (s.setCore k v).host = s.host := rfl
@[simp] theorem State.setCore_dbg (s : State) (k : Nat) (v : Core) : (s.setCore k v).dbg = s.dbg := rfl
@[simp] theorem State.setCore_trust (s : State) (k : Nat) (v : Core) : (s.setCore k v).trust = s.trust := rfl
@[simp] theorem State.setCore_net (s : State) (k : Nat) (v : Core) : (s.setCore k v).net = s.net := rfl
@[simp] theorem State.setCore_ships (s : State) (k : Nat) (v : Core) : (s.setCore k v).ships = s.ships := rfl
@[simp] theorem State.setCore_sent (s : State) (k : Nat) (v : Core) : (s.setCore k v).sent = s.sent := rfl

@[simp] theorem State.onCore_tick (s : State) (k : Nat) (f : Core → Core) : (s.onCore k f).tick = s.tick := rfl
@[simp] theorem State.onCore_agenda (s : State) (k : Nat) (f : Core → Core) : (s.onCore k f).agenda = s.agenda := rfl
@[simp] theorem State.onCore_cur (s : State) (k : Nat) (f : Core → Core) : (s.onCore k f).cur = s.cur := rfl
@[simp] theorem State.onCore_timebase (s : State) (k : Nat) (f : Core → Core) : (s.onCore k f).timebase = s.timebase := rfl
@[simp] theorem State.onCore_power (s : State) (k : Nat) (f : Core → Core) : (s.onCore k f).power = s.power := rfl
@[simp] theorem State.onCore_chip (s : State) (k : Nat) (f : Core → Core) : (s.onCore k f).chip = s.chip := rfl
@[simp] theorem State.onCore_enabled (s : State) (k : Nat) (f : Core → Core) : (s.onCore k f).enabled = s.enabled := rfl
@[simp] theorem State.onCore_mem (s : State) (k : Nat) (f : Core → Core) : (s.onCore k f).mem = s.mem := rfl
@[simp] theorem State.onCore_tags (s : State) (k : Nat) (f : Core → Core) : (s.onCore k f).tags = s.tags := rfl
@[simp] theorem State.onCore_ue (s : State) (k : Nat) (f : Core → Core) : (s.onCore k f).ue = s.ue := rfl
@[simp] theorem State.onCore_tasks (s : State) (k : Nat) (f : Core → Core) : (s.onCore k f).tasks = s.tasks := rfl
@[simp] theorem State.onCore_clusters (s : State) (k : Nat) (f : Core → Core) : (s.onCore k f).clusters = s.clusters := rfl
@[simp] theorem State.onCore_dies (s : State) (k : Nat) (f : Core → Core) : (s.onCore k f).dies = s.dies := rfl
@[simp] theorem State.onCore_astab (s : State) (k : Nat) (f : Core → Core) : (s.onCore k f).astab = s.astab := rfl
@[simp] theorem State.onCore_spire (s : State) (k : Nat) (f : Core → Core) : (s.onCore k f).spire = s.spire := rfl
@[simp] theorem State.onCore_gov (s : State) (k : Nat) (f : Core → Core) : (s.onCore k f).gov = s.gov := rfl
@[simp] theorem State.onCore_fabric (s : State) (k : Nat) (f : Core → Core) : (s.onCore k f).fabric = s.fabric := rfl
@[simp] theorem State.onCore_host (s : State) (k : Nat) (f : Core → Core) : (s.onCore k f).host = s.host := rfl
@[simp] theorem State.onCore_dbg (s : State) (k : Nat) (f : Core → Core) : (s.onCore k f).dbg = s.dbg := rfl
@[simp] theorem State.onCore_trust (s : State) (k : Nat) (f : Core → Core) : (s.onCore k f).trust = s.trust := rfl
@[simp] theorem State.onCore_net (s : State) (k : Nat) (f : Core → Core) : (s.onCore k f).net = s.net := rfl
@[simp] theorem State.onCore_ships (s : State) (k : Nat) (f : Core → Core) : (s.onCore k f).ships = s.ships := rfl
@[simp] theorem State.onCore_sent (s : State) (k : Nat) (f : Core → Core) : (s.onCore k f).sent = s.sent := rfl

@[simp] theorem State.setCluster_tick (s : State) (c : Nat) (v : Cluster) : (s.setCluster c v).tick = s.tick := rfl
@[simp] theorem State.setCluster_agenda (s : State) (c : Nat) (v : Cluster) : (s.setCluster c v).agenda = s.agenda := rfl
@[simp] theorem State.setCluster_cur (s : State) (c : Nat) (v : Cluster) : (s.setCluster c v).cur = s.cur := rfl
@[simp] theorem State.setCluster_timebase (s : State) (c : Nat) (v : Cluster) : (s.setCluster c v).timebase = s.timebase := rfl
@[simp] theorem State.setCluster_power (s : State) (c : Nat) (v : Cluster) : (s.setCluster c v).power = s.power := rfl
@[simp] theorem State.setCluster_chip (s : State) (c : Nat) (v : Cluster) : (s.setCluster c v).chip = s.chip := rfl
@[simp] theorem State.setCluster_enabled (s : State) (c : Nat) (v : Cluster) : (s.setCluster c v).enabled = s.enabled := rfl
@[simp] theorem State.setCluster_mem (s : State) (c : Nat) (v : Cluster) : (s.setCluster c v).mem = s.mem := rfl
@[simp] theorem State.setCluster_tags (s : State) (c : Nat) (v : Cluster) : (s.setCluster c v).tags = s.tags := rfl
@[simp] theorem State.setCluster_ue (s : State) (c : Nat) (v : Cluster) : (s.setCluster c v).ue = s.ue := rfl
@[simp] theorem State.setCluster_tasks (s : State) (c : Nat) (v : Cluster) : (s.setCluster c v).tasks = s.tasks := rfl
@[simp] theorem State.setCluster_cores (s : State) (c : Nat) (v : Cluster) : (s.setCluster c v).cores = s.cores := rfl
@[simp] theorem State.setCluster_dies (s : State) (c : Nat) (v : Cluster) : (s.setCluster c v).dies = s.dies := rfl
@[simp] theorem State.setCluster_astab (s : State) (c : Nat) (v : Cluster) : (s.setCluster c v).astab = s.astab := rfl
@[simp] theorem State.setCluster_spire (s : State) (c : Nat) (v : Cluster) : (s.setCluster c v).spire = s.spire := rfl
@[simp] theorem State.setCluster_gov (s : State) (c : Nat) (v : Cluster) : (s.setCluster c v).gov = s.gov := rfl
@[simp] theorem State.setCluster_fabric (s : State) (c : Nat) (v : Cluster) : (s.setCluster c v).fabric = s.fabric := rfl
@[simp] theorem State.setCluster_host (s : State) (c : Nat) (v : Cluster) : (s.setCluster c v).host = s.host := rfl
@[simp] theorem State.setCluster_dbg (s : State) (c : Nat) (v : Cluster) : (s.setCluster c v).dbg = s.dbg := rfl
@[simp] theorem State.setCluster_trust (s : State) (c : Nat) (v : Cluster) : (s.setCluster c v).trust = s.trust := rfl
@[simp] theorem State.setCluster_net (s : State) (c : Nat) (v : Cluster) : (s.setCluster c v).net = s.net := rfl
@[simp] theorem State.setCluster_ships (s : State) (c : Nat) (v : Cluster) : (s.setCluster c v).ships = s.ships := rfl
@[simp] theorem State.setCluster_sent (s : State) (c : Nat) (v : Cluster) : (s.setCluster c v).sent = s.sent := rfl

@[simp] theorem State.onCluster_tick (s : State) (c : Nat) (f : Cluster → Cluster) : (s.onCluster c f).tick = s.tick := rfl
@[simp] theorem State.onCluster_agenda (s : State) (c : Nat) (f : Cluster → Cluster) : (s.onCluster c f).agenda = s.agenda := rfl
@[simp] theorem State.onCluster_cur (s : State) (c : Nat) (f : Cluster → Cluster) : (s.onCluster c f).cur = s.cur := rfl
@[simp] theorem State.onCluster_timebase (s : State) (c : Nat) (f : Cluster → Cluster) : (s.onCluster c f).timebase = s.timebase := rfl
@[simp] theorem State.onCluster_power (s : State) (c : Nat) (f : Cluster → Cluster) : (s.onCluster c f).power = s.power := rfl
@[simp] theorem State.onCluster_chip (s : State) (c : Nat) (f : Cluster → Cluster) : (s.onCluster c f).chip = s.chip := rfl
@[simp] theorem State.onCluster_enabled (s : State) (c : Nat) (f : Cluster → Cluster) : (s.onCluster c f).enabled = s.enabled := rfl
@[simp] theorem State.onCluster_mem (s : State) (c : Nat) (f : Cluster → Cluster) : (s.onCluster c f).mem = s.mem := rfl
@[simp] theorem State.onCluster_tags (s : State) (c : Nat) (f : Cluster → Cluster) : (s.onCluster c f).tags = s.tags := rfl
@[simp] theorem State.onCluster_ue (s : State) (c : Nat) (f : Cluster → Cluster) : (s.onCluster c f).ue = s.ue := rfl
@[simp] theorem State.onCluster_tasks (s : State) (c : Nat) (f : Cluster → Cluster) : (s.onCluster c f).tasks = s.tasks := rfl
@[simp] theorem State.onCluster_cores (s : State) (c : Nat) (f : Cluster → Cluster) : (s.onCluster c f).cores = s.cores := rfl
@[simp] theorem State.onCluster_dies (s : State) (c : Nat) (f : Cluster → Cluster) : (s.onCluster c f).dies = s.dies := rfl
@[simp] theorem State.onCluster_astab (s : State) (c : Nat) (f : Cluster → Cluster) : (s.onCluster c f).astab = s.astab := rfl
@[simp] theorem State.onCluster_spire (s : State) (c : Nat) (f : Cluster → Cluster) : (s.onCluster c f).spire = s.spire := rfl
@[simp] theorem State.onCluster_gov (s : State) (c : Nat) (f : Cluster → Cluster) : (s.onCluster c f).gov = s.gov := rfl
@[simp] theorem State.onCluster_fabric (s : State) (c : Nat) (f : Cluster → Cluster) : (s.onCluster c f).fabric = s.fabric := rfl
@[simp] theorem State.onCluster_host (s : State) (c : Nat) (f : Cluster → Cluster) : (s.onCluster c f).host = s.host := rfl
@[simp] theorem State.onCluster_dbg (s : State) (c : Nat) (f : Cluster → Cluster) : (s.onCluster c f).dbg = s.dbg := rfl
@[simp] theorem State.onCluster_trust (s : State) (c : Nat) (f : Cluster → Cluster) : (s.onCluster c f).trust = s.trust := rfl
@[simp] theorem State.onCluster_net (s : State) (c : Nat) (f : Cluster → Cluster) : (s.onCluster c f).net = s.net := rfl
@[simp] theorem State.onCluster_ships (s : State) (c : Nat) (f : Cluster → Cluster) : (s.onCluster c f).ships = s.ships := rfl
@[simp] theorem State.onCluster_sent (s : State) (c : Nat) (f : Cluster → Cluster) : (s.onCluster c f).sent = s.sent := rfl

@[simp] theorem State.setDie_tick (s : State) (d : Nat) (v : Die) : (s.setDie d v).tick = s.tick := rfl
@[simp] theorem State.setDie_agenda (s : State) (d : Nat) (v : Die) : (s.setDie d v).agenda = s.agenda := rfl
@[simp] theorem State.setDie_cur (s : State) (d : Nat) (v : Die) : (s.setDie d v).cur = s.cur := rfl
@[simp] theorem State.setDie_timebase (s : State) (d : Nat) (v : Die) : (s.setDie d v).timebase = s.timebase := rfl
@[simp] theorem State.setDie_power (s : State) (d : Nat) (v : Die) : (s.setDie d v).power = s.power := rfl
@[simp] theorem State.setDie_chip (s : State) (d : Nat) (v : Die) : (s.setDie d v).chip = s.chip := rfl
@[simp] theorem State.setDie_enabled (s : State) (d : Nat) (v : Die) : (s.setDie d v).enabled = s.enabled := rfl
@[simp] theorem State.setDie_mem (s : State) (d : Nat) (v : Die) : (s.setDie d v).mem = s.mem := rfl
@[simp] theorem State.setDie_tags (s : State) (d : Nat) (v : Die) : (s.setDie d v).tags = s.tags := rfl
@[simp] theorem State.setDie_ue (s : State) (d : Nat) (v : Die) : (s.setDie d v).ue = s.ue := rfl
@[simp] theorem State.setDie_tasks (s : State) (d : Nat) (v : Die) : (s.setDie d v).tasks = s.tasks := rfl
@[simp] theorem State.setDie_cores (s : State) (d : Nat) (v : Die) : (s.setDie d v).cores = s.cores := rfl
@[simp] theorem State.setDie_clusters (s : State) (d : Nat) (v : Die) : (s.setDie d v).clusters = s.clusters := rfl
@[simp] theorem State.setDie_astab (s : State) (d : Nat) (v : Die) : (s.setDie d v).astab = s.astab := rfl
@[simp] theorem State.setDie_spire (s : State) (d : Nat) (v : Die) : (s.setDie d v).spire = s.spire := rfl
@[simp] theorem State.setDie_gov (s : State) (d : Nat) (v : Die) : (s.setDie d v).gov = s.gov := rfl
@[simp] theorem State.setDie_fabric (s : State) (d : Nat) (v : Die) : (s.setDie d v).fabric = s.fabric := rfl
@[simp] theorem State.setDie_host (s : State) (d : Nat) (v : Die) : (s.setDie d v).host = s.host := rfl
@[simp] theorem State.setDie_dbg (s : State) (d : Nat) (v : Die) : (s.setDie d v).dbg = s.dbg := rfl
@[simp] theorem State.setDie_trust (s : State) (d : Nat) (v : Die) : (s.setDie d v).trust = s.trust := rfl
@[simp] theorem State.setDie_net (s : State) (d : Nat) (v : Die) : (s.setDie d v).net = s.net := rfl
@[simp] theorem State.setDie_ships (s : State) (d : Nat) (v : Die) : (s.setDie d v).ships = s.ships := rfl
@[simp] theorem State.setDie_sent (s : State) (d : Nat) (v : Die) : (s.setDie d v).sent = s.sent := rfl

@[simp] theorem State.onDie_tick (s : State) (d : Nat) (f : Die → Die) : (s.onDie d f).tick = s.tick := rfl
@[simp] theorem State.onDie_agenda (s : State) (d : Nat) (f : Die → Die) : (s.onDie d f).agenda = s.agenda := rfl
@[simp] theorem State.onDie_cur (s : State) (d : Nat) (f : Die → Die) : (s.onDie d f).cur = s.cur := rfl
@[simp] theorem State.onDie_timebase (s : State) (d : Nat) (f : Die → Die) : (s.onDie d f).timebase = s.timebase := rfl
@[simp] theorem State.onDie_power (s : State) (d : Nat) (f : Die → Die) : (s.onDie d f).power = s.power := rfl
@[simp] theorem State.onDie_chip (s : State) (d : Nat) (f : Die → Die) : (s.onDie d f).chip = s.chip := rfl
@[simp] theorem State.onDie_enabled (s : State) (d : Nat) (f : Die → Die) : (s.onDie d f).enabled = s.enabled := rfl
@[simp] theorem State.onDie_mem (s : State) (d : Nat) (f : Die → Die) : (s.onDie d f).mem = s.mem := rfl
@[simp] theorem State.onDie_tags (s : State) (d : Nat) (f : Die → Die) : (s.onDie d f).tags = s.tags := rfl
@[simp] theorem State.onDie_ue (s : State) (d : Nat) (f : Die → Die) : (s.onDie d f).ue = s.ue := rfl
@[simp] theorem State.onDie_tasks (s : State) (d : Nat) (f : Die → Die) : (s.onDie d f).tasks = s.tasks := rfl
@[simp] theorem State.onDie_cores (s : State) (d : Nat) (f : Die → Die) : (s.onDie d f).cores = s.cores := rfl
@[simp] theorem State.onDie_clusters (s : State) (d : Nat) (f : Die → Die) : (s.onDie d f).clusters = s.clusters := rfl
@[simp] theorem State.onDie_astab (s : State) (d : Nat) (f : Die → Die) : (s.onDie d f).astab = s.astab := rfl
@[simp] theorem State.onDie_spire (s : State) (d : Nat) (f : Die → Die) : (s.onDie d f).spire = s.spire := rfl
@[simp] theorem State.onDie_gov (s : State) (d : Nat) (f : Die → Die) : (s.onDie d f).gov = s.gov := rfl
@[simp] theorem State.onDie_fabric (s : State) (d : Nat) (f : Die → Die) : (s.onDie d f).fabric = s.fabric := rfl
@[simp] theorem State.onDie_host (s : State) (d : Nat) (f : Die → Die) : (s.onDie d f).host = s.host := rfl
@[simp] theorem State.onDie_dbg (s : State) (d : Nat) (f : Die → Die) : (s.onDie d f).dbg = s.dbg := rfl
@[simp] theorem State.onDie_trust (s : State) (d : Nat) (f : Die → Die) : (s.onDie d f).trust = s.trust := rfl
@[simp] theorem State.onDie_net (s : State) (d : Nat) (f : Die → Die) : (s.onDie d f).net = s.net := rfl
@[simp] theorem State.onDie_ships (s : State) (d : Nat) (f : Die → Die) : (s.onDie d f).ships = s.ships := rfl
@[simp] theorem State.onDie_sent (s : State) (d : Nat) (f : Die → Die) : (s.onDie d f).sent = s.sent := rfl

@[simp] theorem State.putByte_tick (s : State) (a : Nat) (b : Byte) : (s.putByte a b).tick = s.tick := rfl
@[simp] theorem State.putByte_agenda (s : State) (a : Nat) (b : Byte) : (s.putByte a b).agenda = s.agenda := rfl
@[simp] theorem State.putByte_cur (s : State) (a : Nat) (b : Byte) : (s.putByte a b).cur = s.cur := rfl
@[simp] theorem State.putByte_timebase (s : State) (a : Nat) (b : Byte) : (s.putByte a b).timebase = s.timebase := rfl
@[simp] theorem State.putByte_power (s : State) (a : Nat) (b : Byte) : (s.putByte a b).power = s.power := rfl
@[simp] theorem State.putByte_chip (s : State) (a : Nat) (b : Byte) : (s.putByte a b).chip = s.chip := rfl
@[simp] theorem State.putByte_enabled (s : State) (a : Nat) (b : Byte) : (s.putByte a b).enabled = s.enabled := rfl
@[simp] theorem State.putByte_tags (s : State) (a : Nat) (b : Byte) : (s.putByte a b).tags = s.tags := rfl
@[simp] theorem State.putByte_ue (s : State) (a : Nat) (b : Byte) : (s.putByte a b).ue = s.ue := rfl
@[simp] theorem State.putByte_tasks (s : State) (a : Nat) (b : Byte) : (s.putByte a b).tasks = s.tasks := rfl
@[simp] theorem State.putByte_cores (s : State) (a : Nat) (b : Byte) : (s.putByte a b).cores = s.cores := rfl
@[simp] theorem State.putByte_clusters (s : State) (a : Nat) (b : Byte) : (s.putByte a b).clusters = s.clusters := rfl
@[simp] theorem State.putByte_dies (s : State) (a : Nat) (b : Byte) : (s.putByte a b).dies = s.dies := rfl
@[simp] theorem State.putByte_astab (s : State) (a : Nat) (b : Byte) : (s.putByte a b).astab = s.astab := rfl
@[simp] theorem State.putByte_spire (s : State) (a : Nat) (b : Byte) : (s.putByte a b).spire = s.spire := rfl
@[simp] theorem State.putByte_gov (s : State) (a : Nat) (b : Byte) : (s.putByte a b).gov = s.gov := rfl
@[simp] theorem State.putByte_fabric (s : State) (a : Nat) (b : Byte) : (s.putByte a b).fabric = s.fabric := rfl
@[simp] theorem State.putByte_host (s : State) (a : Nat) (b : Byte) : (s.putByte a b).host = s.host := rfl
@[simp] theorem State.putByte_dbg (s : State) (a : Nat) (b : Byte) : (s.putByte a b).dbg = s.dbg := rfl
@[simp] theorem State.putByte_trust (s : State) (a : Nat) (b : Byte) : (s.putByte a b).trust = s.trust := rfl
@[simp] theorem State.putByte_net (s : State) (a : Nat) (b : Byte) : (s.putByte a b).net = s.net := rfl
@[simp] theorem State.putByte_ships (s : State) (a : Nat) (b : Byte) : (s.putByte a b).ships = s.ships := rfl
@[simp] theorem State.putByte_sent (s : State) (a : Nat) (b : Byte) : (s.putByte a b).sent = s.sent := rfl

@[simp] theorem State.setTag_tick (s : State) (a : Nat) (g : Tag) : (s.setTag a g).tick = s.tick := rfl
@[simp] theorem State.setTag_agenda (s : State) (a : Nat) (g : Tag) : (s.setTag a g).agenda = s.agenda := rfl
@[simp] theorem State.setTag_cur (s : State) (a : Nat) (g : Tag) : (s.setTag a g).cur = s.cur := rfl
@[simp] theorem State.setTag_timebase (s : State) (a : Nat) (g : Tag) : (s.setTag a g).timebase = s.timebase := rfl
@[simp] theorem State.setTag_power (s : State) (a : Nat) (g : Tag) : (s.setTag a g).power = s.power := rfl
@[simp] theorem State.setTag_chip (s : State) (a : Nat) (g : Tag) : (s.setTag a g).chip = s.chip := rfl
@[simp] theorem State.setTag_enabled (s : State) (a : Nat) (g : Tag) : (s.setTag a g).enabled = s.enabled := rfl
@[simp] theorem State.setTag_mem (s : State) (a : Nat) (g : Tag) : (s.setTag a g).mem = s.mem := rfl
@[simp] theorem State.setTag_ue (s : State) (a : Nat) (g : Tag) : (s.setTag a g).ue = s.ue := rfl
@[simp] theorem State.setTag_tasks (s : State) (a : Nat) (g : Tag) : (s.setTag a g).tasks = s.tasks := rfl
@[simp] theorem State.setTag_cores (s : State) (a : Nat) (g : Tag) : (s.setTag a g).cores = s.cores := rfl
@[simp] theorem State.setTag_clusters (s : State) (a : Nat) (g : Tag) : (s.setTag a g).clusters = s.clusters := rfl
@[simp] theorem State.setTag_dies (s : State) (a : Nat) (g : Tag) : (s.setTag a g).dies = s.dies := rfl
@[simp] theorem State.setTag_astab (s : State) (a : Nat) (g : Tag) : (s.setTag a g).astab = s.astab := rfl
@[simp] theorem State.setTag_spire (s : State) (a : Nat) (g : Tag) : (s.setTag a g).spire = s.spire := rfl
@[simp] theorem State.setTag_gov (s : State) (a : Nat) (g : Tag) : (s.setTag a g).gov = s.gov := rfl
@[simp] theorem State.setTag_fabric (s : State) (a : Nat) (g : Tag) : (s.setTag a g).fabric = s.fabric := rfl
@[simp] theorem State.setTag_host (s : State) (a : Nat) (g : Tag) : (s.setTag a g).host = s.host := rfl
@[simp] theorem State.setTag_dbg (s : State) (a : Nat) (g : Tag) : (s.setTag a g).dbg = s.dbg := rfl
@[simp] theorem State.setTag_trust (s : State) (a : Nat) (g : Tag) : (s.setTag a g).trust = s.trust := rfl
@[simp] theorem State.setTag_net (s : State) (a : Nat) (g : Tag) : (s.setTag a g).net = s.net := rfl
@[simp] theorem State.setTag_ships (s : State) (a : Nat) (g : Tag) : (s.setTag a g).ships = s.ships := rfl
@[simp] theorem State.setTag_sent (s : State) (a : Nat) (g : Tag) : (s.setTag a g).sent = s.sent := rfl

@[simp] theorem State.charge_tick (s : State) (k e : Nat) : (s.charge k e).tick = s.tick := rfl
@[simp] theorem State.charge_agenda (s : State) (k e : Nat) : (s.charge k e).agenda = s.agenda := rfl
@[simp] theorem State.charge_cur (s : State) (k e : Nat) : (s.charge k e).cur = s.cur := rfl
@[simp] theorem State.charge_timebase (s : State) (k e : Nat) : (s.charge k e).timebase = s.timebase := rfl
@[simp] theorem State.charge_power (s : State) (k e : Nat) : (s.charge k e).power = s.power := rfl
@[simp] theorem State.charge_chip (s : State) (k e : Nat) : (s.charge k e).chip = s.chip := rfl
@[simp] theorem State.charge_enabled (s : State) (k e : Nat) : (s.charge k e).enabled = s.enabled := rfl
@[simp] theorem State.charge_mem (s : State) (k e : Nat) : (s.charge k e).mem = s.mem := rfl
@[simp] theorem State.charge_tags (s : State) (k e : Nat) : (s.charge k e).tags = s.tags := rfl
@[simp] theorem State.charge_ue (s : State) (k e : Nat) : (s.charge k e).ue = s.ue := rfl
@[simp] theorem State.charge_tasks (s : State) (k e : Nat) : (s.charge k e).tasks = s.tasks := rfl
@[simp] theorem State.charge_clusters (s : State) (k e : Nat) : (s.charge k e).clusters = s.clusters := rfl
@[simp] theorem State.charge_dies (s : State) (k e : Nat) : (s.charge k e).dies = s.dies := rfl
@[simp] theorem State.charge_astab (s : State) (k e : Nat) : (s.charge k e).astab = s.astab := rfl
@[simp] theorem State.charge_spire (s : State) (k e : Nat) : (s.charge k e).spire = s.spire := rfl
@[simp] theorem State.charge_gov (s : State) (k e : Nat) : (s.charge k e).gov = s.gov := rfl
@[simp] theorem State.charge_fabric (s : State) (k e : Nat) : (s.charge k e).fabric = s.fabric := rfl
@[simp] theorem State.charge_host (s : State) (k e : Nat) : (s.charge k e).host = s.host := rfl
@[simp] theorem State.charge_dbg (s : State) (k e : Nat) : (s.charge k e).dbg = s.dbg := rfl
@[simp] theorem State.charge_trust (s : State) (k e : Nat) : (s.charge k e).trust = s.trust := rfl
@[simp] theorem State.charge_net (s : State) (k e : Nat) : (s.charge k e).net = s.net := rfl
@[simp] theorem State.charge_ships (s : State) (k e : Nat) : (s.charge k e).ships = s.ships := rfl
@[simp] theorem State.charge_sent (s : State) (k e : Nat) : (s.charge k e).sent = s.sent := rfl

@[simp] theorem State.post_tick (s : State) (m : Msg) : (s.post m).tick = s.tick := rfl
@[simp] theorem State.post_agenda (s : State) (m : Msg) : (s.post m).agenda = s.agenda := rfl
@[simp] theorem State.post_cur (s : State) (m : Msg) : (s.post m).cur = s.cur := rfl
@[simp] theorem State.post_timebase (s : State) (m : Msg) : (s.post m).timebase = s.timebase := rfl
@[simp] theorem State.post_power (s : State) (m : Msg) : (s.post m).power = s.power := rfl
@[simp] theorem State.post_chip (s : State) (m : Msg) : (s.post m).chip = s.chip := rfl
@[simp] theorem State.post_enabled (s : State) (m : Msg) : (s.post m).enabled = s.enabled := rfl
@[simp] theorem State.post_mem (s : State) (m : Msg) : (s.post m).mem = s.mem := rfl
@[simp] theorem State.post_tags (s : State) (m : Msg) : (s.post m).tags = s.tags := rfl
@[simp] theorem State.post_ue (s : State) (m : Msg) : (s.post m).ue = s.ue := rfl
@[simp] theorem State.post_tasks (s : State) (m : Msg) : (s.post m).tasks = s.tasks := rfl
@[simp] theorem State.post_cores (s : State) (m : Msg) : (s.post m).cores = s.cores := rfl
@[simp] theorem State.post_clusters (s : State) (m : Msg) : (s.post m).clusters = s.clusters := rfl
@[simp] theorem State.post_dies (s : State) (m : Msg) : (s.post m).dies = s.dies := rfl
@[simp] theorem State.post_astab (s : State) (m : Msg) : (s.post m).astab = s.astab := rfl
@[simp] theorem State.post_spire (s : State) (m : Msg) : (s.post m).spire = s.spire := rfl
@[simp] theorem State.post_gov (s : State) (m : Msg) : (s.post m).gov = s.gov := rfl
@[simp] theorem State.post_fabric (s : State) (m : Msg) : (s.post m).fabric = s.fabric := rfl
@[simp] theorem State.post_host (s : State) (m : Msg) : (s.post m).host = s.host := rfl
@[simp] theorem State.post_dbg (s : State) (m : Msg) : (s.post m).dbg = s.dbg := rfl
@[simp] theorem State.post_trust (s : State) (m : Msg) : (s.post m).trust = s.trust := rfl
@[simp] theorem State.post_ships (s : State) (m : Msg) : (s.post m).ships = s.ships := rfl
@[simp] theorem State.post_sent (s : State) (m : Msg) : (s.post m).sent = s.sent := rfl

@[simp] theorem retire_tick (s : State) (n : Nat) : (retire s n).tick = s.tick := rfl
@[simp] theorem retire_agenda (s : State) (n : Nat) : (retire s n).agenda = s.agenda := rfl
@[simp] theorem retire_cur (s : State) (n : Nat) : (retire s n).cur = s.cur := rfl
@[simp] theorem retire_timebase (s : State) (n : Nat) : (retire s n).timebase = s.timebase := rfl
@[simp] theorem retire_power (s : State) (n : Nat) : (retire s n).power = s.power := rfl
@[simp] theorem retire_chip (s : State) (n : Nat) : (retire s n).chip = s.chip := rfl
@[simp] theorem retire_enabled (s : State) (n : Nat) : (retire s n).enabled = s.enabled := rfl
@[simp] theorem retire_mem (s : State) (n : Nat) : (retire s n).mem = s.mem := rfl
@[simp] theorem retire_tags (s : State) (n : Nat) : (retire s n).tags = s.tags := rfl
@[simp] theorem retire_ue (s : State) (n : Nat) : (retire s n).ue = s.ue := rfl
@[simp] theorem retire_cores (s : State) (n : Nat) : (retire s n).cores = s.cores := rfl
@[simp] theorem retire_clusters (s : State) (n : Nat) : (retire s n).clusters = s.clusters := rfl
@[simp] theorem retire_dies (s : State) (n : Nat) : (retire s n).dies = s.dies := rfl
@[simp] theorem retire_astab (s : State) (n : Nat) : (retire s n).astab = s.astab := rfl
@[simp] theorem retire_spire (s : State) (n : Nat) : (retire s n).spire = s.spire := rfl
@[simp] theorem retire_gov (s : State) (n : Nat) : (retire s n).gov = s.gov := rfl
@[simp] theorem retire_fabric (s : State) (n : Nat) : (retire s n).fabric = s.fabric := rfl
@[simp] theorem retire_host (s : State) (n : Nat) : (retire s n).host = s.host := rfl
@[simp] theorem retire_dbg (s : State) (n : Nat) : (retire s n).dbg = s.dbg := rfl
@[simp] theorem retire_trust (s : State) (n : Nat) : (retire s n).trust = s.trust := rfl
@[simp] theorem retire_net (s : State) (n : Nat) : (retire s n).net = s.net := rfl
@[simp] theorem retire_ships (s : State) (n : Nat) : (retire s n).ships = s.ships := rfl
@[simp] theorem retire_sent (s : State) (n : Nat) : (retire s n).sent = s.sent := rfl

@[simp] theorem retireOf_tick (s : State) (t : BitVec 48) (n : Nat) : (retireOf s t n).tick = s.tick := rfl
@[simp] theorem retireOf_agenda (s : State) (t : BitVec 48) (n : Nat) : (retireOf s t n).agenda = s.agenda := rfl
@[simp] theorem retireOf_cur (s : State) (t : BitVec 48) (n : Nat) : (retireOf s t n).cur = s.cur := rfl
@[simp] theorem retireOf_timebase (s : State) (t : BitVec 48) (n : Nat) : (retireOf s t n).timebase = s.timebase := rfl
@[simp] theorem retireOf_power (s : State) (t : BitVec 48) (n : Nat) : (retireOf s t n).power = s.power := rfl
@[simp] theorem retireOf_chip (s : State) (t : BitVec 48) (n : Nat) : (retireOf s t n).chip = s.chip := rfl
@[simp] theorem retireOf_enabled (s : State) (t : BitVec 48) (n : Nat) : (retireOf s t n).enabled = s.enabled := rfl
@[simp] theorem retireOf_mem (s : State) (t : BitVec 48) (n : Nat) : (retireOf s t n).mem = s.mem := rfl
@[simp] theorem retireOf_tags (s : State) (t : BitVec 48) (n : Nat) : (retireOf s t n).tags = s.tags := rfl
@[simp] theorem retireOf_ue (s : State) (t : BitVec 48) (n : Nat) : (retireOf s t n).ue = s.ue := rfl
@[simp] theorem retireOf_cores (s : State) (t : BitVec 48) (n : Nat) : (retireOf s t n).cores = s.cores := rfl
@[simp] theorem retireOf_clusters (s : State) (t : BitVec 48) (n : Nat) : (retireOf s t n).clusters = s.clusters := rfl
@[simp] theorem retireOf_dies (s : State) (t : BitVec 48) (n : Nat) : (retireOf s t n).dies = s.dies := rfl
@[simp] theorem retireOf_astab (s : State) (t : BitVec 48) (n : Nat) : (retireOf s t n).astab = s.astab := rfl
@[simp] theorem retireOf_spire (s : State) (t : BitVec 48) (n : Nat) : (retireOf s t n).spire = s.spire := rfl
@[simp] theorem retireOf_gov (s : State) (t : BitVec 48) (n : Nat) : (retireOf s t n).gov = s.gov := rfl
@[simp] theorem retireOf_fabric (s : State) (t : BitVec 48) (n : Nat) : (retireOf s t n).fabric = s.fabric := rfl
@[simp] theorem retireOf_host (s : State) (t : BitVec 48) (n : Nat) : (retireOf s t n).host = s.host := rfl
@[simp] theorem retireOf_dbg (s : State) (t : BitVec 48) (n : Nat) : (retireOf s t n).dbg = s.dbg := rfl
@[simp] theorem retireOf_trust (s : State) (t : BitVec 48) (n : Nat) : (retireOf s t n).trust = s.trust := rfl
@[simp] theorem retireOf_net (s : State) (t : BitVec 48) (n : Nat) : (retireOf s t n).net = s.net := rfl
@[simp] theorem retireOf_ships (s : State) (t : BitVec 48) (n : Nat) : (retireOf s t n).ships = s.ships := rfl
@[simp] theorem retireOf_sent (s : State) (t : BitVec 48) (n : Nat) : (retireOf s t n).sent = s.sent := rfl

/-! Maps of the state -/

theorem State.task_setTask (s : State) (t u : BitVec 48) (v : Task) :
    (s.setTask t v).task u = if u = t then v else s.task u := by
  simp [State.task, State.setTask, sget_sset, BitVec.toNat_inj]

@[simp] theorem State.task_setTask_same (s : State) (t : BitVec 48) (v : Task) : (s.setTask t v).task t = v := by
  simp [State.task_setTask]

theorem State.task_onTask (s : State) (t u : BitVec 48) (f : Task → Task) :
    (s.onTask t f).task u = if u = t then f (s.task t) else s.task u := State.task_setTask s t u _

@[simp] theorem State.task_onTask_same (s : State) (t : BitVec 48) (f : Task → Task) :
    (s.onTask t f).task t = f (s.task t) := by simp [State.task_onTask]

theorem State.core_setCore (s : State) (k j : Nat) (v : Core) :
    (s.setCore k v).core j = if j = k then v else s.core j := by
  simp [State.core, State.setCore, sget_sset]

theorem State.core_onCore (s : State) (k j : Nat) (f : Core → Core) :
    (s.onCore k f).core j = if j = k then f (s.core k) else s.core j := State.core_setCore s k j _

@[simp] theorem State.core_onCore_same (s : State) (k : Nat) (f : Core → Core) : (s.onCore k f).core k = f (s.core k) := by
  simp [State.core_onCore]

theorem State.cluster_onCluster (s : State) (c e : Nat) (f : Cluster → Cluster) :
    (s.onCluster c f).cluster e = if e = c then f (s.cluster c) else s.cluster e := by
  simp [State.cluster, State.onCluster, State.setCluster, sget_sset]

@[simp] theorem State.cluster_onCluster_same (s : State) (c : Nat) (f : Cluster → Cluster) :
    (s.onCluster c f).cluster c = f (s.cluster c) := by simp [State.cluster_onCluster]

theorem State.die_onDie (s : State) (d e : Nat) (f : Die → Die) :
    (s.onDie d f).die e = if e = d then f (s.die d) else s.die e := by
  simp [State.die, State.onDie, State.setDie, sget_sset]

@[simp] theorem State.die_onDie_same (s : State) (d : Nat) (f : Die → Die) : (s.onDie d f).die d = f (s.die d) := by
  simp [State.die_onDie]

@[simp] theorem State.core_onTask (s : State) (t : BitVec 48) (f : Task → Task) (k : Nat) : (s.onTask t f).core k = s.core k := rfl
@[simp] theorem State.cluster_onTask (s : State) (t : BitVec 48) (f : Task → Task) (c : Nat) : (s.onTask t f).cluster c = s.cluster c := rfl
@[simp] theorem State.die_onTask (s : State) (t : BitVec 48) (f : Task → Task) (d : Nat) : (s.onTask t f).die d = s.die d := rfl
@[simp] theorem State.byte_onTask (s : State) (t : BitVec 48) (f : Task → Task) (a : Nat) : (s.onTask t f).byte a = s.byte a := rfl
@[simp] theorem State.curTid_onTask (s : State) (t : BitVec 48) (f : Task → Task) : (s.onTask t f).curTid = s.curTid := rfl
@[simp] theorem State.me_onTask (s : State) (t : BitVec 48) (f : Task → Task) : (s.onTask t f).me = s.me := rfl
@[simp] theorem State.task_onCore (s : State) (k : Nat) (f : Core → Core) (t : BitVec 48) : (s.onCore k f).task t = s.task t := rfl
@[simp] theorem State.byte_onCore (s : State) (k : Nat) (f : Core → Core) (a : Nat) : (s.onCore k f).byte a = s.byte a := rfl

/-- The executing task after a change of it. -/
@[simp] theorem State.curTask_onCur (s : State) (f : Task → Task) : (s.onCur f).curTask = f s.curTask := by
  simp [State.curTask, State.onCur]

theorem State.task_onCur (s : State) (f : Task → Task) (t : BitVec 48) :
    (s.onCur f).task t = if t = s.curTid then f s.curTask else s.task t := State.task_onTask s s.curTid t f

/-- A change of the executing task, and one that only reads it first, are one change. -/
theorem State.onTask_onTask (s : State) (t : BitVec 48) (f g : Task → Task) :
    ((s.onTask t f).onTask t g).task t = g (f (s.task t)) := by simp

/-! Memory -/

/-- One byte read after one byte written. -/
theorem State.byte_putByte (s : State) (a b : Nat) (v : Byte) : (s.putByte a v).byte b = if b = a then v else s.byte b := by
  simp [State.byte, State.putByte, sget_sset]

@[simp] theorem State.byte_setTag (s : State) (a b : Nat) (g : Tag) : (s.setTag a g).byte b = s.byte b := rfl
@[simp] theorem State.byte_mend (s : State) (a n b : Nat) : (s.mend a n).byte b = s.byte b := by
  unfold State.mend; split <;> rfl

theorem State.byte_storeByte (s : State) (a b : Nat) (v : Byte) : (s.storeByte a v).byte b = if b = a then v else s.byte b :=
  State.byte_putByte s a b v

/-- A byte outside a stored range is as before. -/
theorem State.byte_storeBytes_outside (s : State) (bs : List Byte) (a b : Nat) (h : b < a ∨ a + bs.length ≤ b) :
    (s.storeBytes a bs).byte b = s.byte b := by
  induction bs generalizing s a with
  | nil => rfl
  | cons v bs ih =>
    simp only [List.length_cons] at h
    have hb : b ≠ a := by omega
    rw [State.storeBytes, ih _ _ (by omega), State.byte_storeByte, if_neg hb]

/-- A byte inside a stored range is the byte stored there. -/
theorem State.byte_storeBytes_inside (s : State) (bs : List Byte) (a i : Nat) (h : i < bs.length) :
    (s.storeBytes a bs).byte (a + i) = bs[i] := by
  induction bs generalizing s a i with
  | nil => simp at h
  | cons v bs ih =>
    rw [State.storeBytes]
    cases i with
    | zero => rw [State.byte_storeBytes_outside _ _ _ _ (by omega), State.byte_storeByte]; simp
    | succ i =>
      have := ih (s.storeByte a v) (a + 1) i (by simpa using h)
      simpa [Nat.add_assoc, Nat.add_comm 1 i] using this

theorem State.byte_write_outside (s : State) (bs : List Byte) (a b : Nat) (h : b < a ∨ a + bs.length ≤ b) :
    (s.write a bs).byte b = s.byte b := by
  simp [State.write, State.byte_storeBytes_outside s bs a b h]

theorem State.byte_write_inside (s : State) (bs : List Byte) (a i : Nat) (h : i < bs.length) :
    (s.write a bs).byte (a + i) = bs[i] := by
  simp [State.write, State.byte_storeBytes_inside s bs a i h]

@[simp] theorem State.readBytes_length (s : State) (a n : Nat) : (s.readBytes a n).length = n := by
  induction n generalizing a with
  | zero => rfl
  | succ n ih => simp [State.readBytes, ih]

/-- Reading back what was written. -/
theorem State.readBytes_write (s : State) (bs : List Byte) (a : Nat) : (s.write a bs).readBytes a bs.length = bs := by
  have key : ∀ (cs : List Byte) (b : Nat), (∀ i (h : i < cs.length), (s.write a bs).byte (b + i) = cs[i]) →
      (s.write a bs).readBytes b cs.length = cs := by
    intro cs
    induction cs with
    | nil => intros; rfl
    | cons c cs ih =>
      intro b h
      have h0 := h 0 (by simp)
      simp only [List.length_cons, State.readBytes]
      rw [ih (b + 1) (fun i hi => by have := h (i + 1) (by simpa using hi); simpa [Nat.add_assoc, Nat.add_comm 1 i] using this)]
      simpa using h0
  exact key bs a fun i h => State.byte_write_inside s bs a i h

/-! What stores leave alone -/

/-- A state with another memory, other tags and other marks of bad codewords. -/
def State.sameButMemory (s t : State) : Prop := t = { s with mem := t.mem, tags := t.tags, ue := t.ue }

theorem State.storeBytes_same (s : State) (bs : List Byte) (a : Nat) : s.sameButMemory (s.storeBytes a bs) := by
  induction bs generalizing s a with
  | nil => rfl
  | cons b bs ih =>
    have := ih (s.storeByte a b) (a + 1)
    simp only [State.sameButMemory, State.storeBytes] at *
    rw [this]
    rfl

/-- A write changes memory, tags and codeword marks only. -/
theorem State.write_same (s : State) (bs : List Byte) (a : Nat) : s.sameButMemory (s.write a bs) := by
  have h := State.storeBytes_same s bs a
  simp only [State.sameButMemory, State.write, State.mend] at *
  split
  · exact h
  · rw [h]

/-! Memory keeps its canonical form (R49; log entry 1) -/

theorem Memory.wf_putByte (s : State) (a : Nat) (b : Byte) (h : Memory.wf s.mem = true) : Memory.wf (s.putByte a b).mem = true :=
  swf_sset 0 s.mem a b h

theorem Memory.wf_storeBytes (s : State) (bs : List Byte) (a : Nat) (h : Memory.wf s.mem = true) :
    Memory.wf (s.storeBytes a bs).mem = true := by
  induction bs generalizing s a with
  | nil => exact h
  | cons b bs ih => exact ih _ _ (Memory.wf_putByte s a b h)

theorem Memory.wf_mend (s : State) (a n : Nat) (h : Memory.wf s.mem = true) : Memory.wf (s.mend a n).mem = true := by
  unfold State.mend; split <;> exact h

theorem Memory.wf_write (s : State) (bs : List Byte) (a : Nat) (h : Memory.wf s.mem = true) : Memory.wf (s.write a bs).mem = true :=
  Memory.wf_mend _ _ _ (Memory.wf_storeBytes s bs a h)

theorem Memory.wf_storeNat (s : State) (a n v : Nat) (h : Memory.wf s.mem = true) : Memory.wf (s.storeNat a n v).mem = true :=
  Memory.wf_storeBytes s _ a h

/-! Registers of a task -/

/-- g0 reads as zero whatever was written (R13). -/
@[simp] theorem Task.reg_zero (x : Task) : x.reg 0 = .zero := rfl
@[simp] theorem Task.setReg_zero (x : Task) (v : GVal) : x.setReg 0 v = x := rfl

/-- A g register after a write. -/
theorem Task.reg_setReg (x : Task) (d r : BitVec 5) (v : GVal) :
    (x.setReg d v).reg r = if r = d ∧ d ≠ 0 then v else x.reg r := by
  by_cases hd : d = 0#5
  · simp [Task.setReg, hd]
  · by_cases hr : r = 0#5
    · have : ¬ (0#5 = d) := fun e => hd e.symm
      simp [Task.setReg, Task.reg, hd, hr, this]
    · simp [Task.setReg, Task.reg, hd, hr, sget_sset, BitVec.toNat_inj]

/-- A write to a g register leaves everything else of the task. -/
theorem Task.setReg_rest (x : Task) (d : BitVec 5) (v : GVal) : x.setReg d v = { x with g := (x.setReg d v).g } := by
  unfold Task.setReg; split <;> rfl

@[simp] theorem Task.pred_zero (x : Task) : x.pred 0 = true := rfl

theorem Task.setPred_rest (x : Task) (p : BitVec 3) (b : Bool) : x.setPred p b = { x with p := (x.setPred p b).p } := by
  unfold Task.setPred; split <;> rfl

theorem oneBit_getLsbD (p q : BitVec 3) : (1#8 <<< p.toNat).getLsbD q.toNat = decide (q = p) := by
  revert p q; decide

/-- A predicate after a write. -/
theorem Task.pred_setPred (x : Task) (p q : BitVec 3) (b : Bool) :
    (x.setPred p b).pred q = if q = p ∧ p ≠ 0 then b else x.pred q := by
  have h8 : q.toNat < 8 := q.isLt
  by_cases hp : p = 0#3
  · simp [Task.setPred, hp]
  · by_cases hq : q = 0#3
    · have : ¬ (0#3 = p) := fun e => hp e.symm
      simp [Task.pred, hq, this]
    · by_cases he : q = p
      · subst he
        have h1 := oneBit_getLsbD q q
        cases b <;> simp [Task.setPred, Task.pred, hp, h1, h8]
      · have h1 := oneBit_getLsbD p q
        have hn : q.toNat ≠ p.toNat := fun e => he (BitVec.eq_of_toNat_eq e)
        cases b <;> simp [Task.setPred, Task.pred, hp, hq, he, h8]
        · intros; omega
        · intros; omega

theorem Task.vec_setVec (x : Task) (d r : BitVec 4) (v : W512) : (x.setVec d v).vec r = if r = d then v else x.vec r := by
  simp [Task.vec, Task.setVec, sget_sset, BitVec.toNat_inj]

theorem Task.mask_setMask (x : Task) (d r : BitVec 2) (v : W64) : (x.setMask d v).mask r = if r = d then v else x.mask r := by
  simp [Task.mask, Task.setMask, sget_sset, BitVec.toNat_inj]

theorem Task.setVec_rest (x : Task) (d : BitVec 4) (v : W512) : x.setVec d v = { x with v := (x.setVec d v).v } := rfl
theorem Task.setMask_rest (x : Task) (d : BitVec 2) (v : W64) : x.setMask d v = { x with m := (x.setMask d v).m } := rfl
theorem Task.addFlags_rest (x : Task) (f : Flags) : x.addFlags f = { x with fflags := x.fflags ||| f } := rfl
theorem Task.setPc_rest (x : Task) (a : W64) : x.setPc a = { x with pcc := moveCursor x.pcc a } := rfl

end Sys2Proof.Machine
end

