-- ==== Sys2Proof/Laws/Memory.lean ====
section
/-! SUPPORT. Memory: what each operation does to bytes and tags, and that each keeps the canonical form. -/

namespace Sys2Proof.Laws

open Sys2Proof Sys2Proof.Machine Sys2Proof.Safety

/-! Tags -/

@[simp] theorem tagAt_putByte (s : State) (a k : Nat) (b : Byte) : (s.putByte a b).tagAt k = s.tagAt k := rfl
@[simp] theorem tagAt_setTag (s : State) (a k : Nat) (t : Tag) :
    (s.setTag a t).tagAt k = if k / 16 = a / 16 then t else s.tagAt k := sget_sset .data s.tags (a / 16) (k / 16) t
@[simp] theorem tagAt_storeByte (s : State) (a k : Nat) (b : Byte) :
    (s.storeByte a b).tagAt k = if k / 16 = a / 16 then .data else s.tagAt k := by
  simp [State.storeByte]

/-- A store of at least one byte clears the tag of every granule it overlaps and of no other (R47). -/
theorem tagAt_storeBytes (bs : List Byte) : ∀ (s : State) (a k : Nat), bs ≠ [] →
    (s.storeBytes a bs).tagAt k = if a / 16 ≤ k / 16 ∧ k / 16 ≤ (a + bs.length - 1) / 16 then .data else s.tagAt k := by
  induction bs with
  | nil => intro _ _ _ h; exact absurd rfl h
  | cons b bs ih =>
    intro s a k _
    rw [State.storeBytes]
    cases bs with
    | nil =>
      have : (k / 16 = a / 16) ↔ (a / 16 ≤ k / 16 ∧ k / 16 ≤ (a + [b].length - 1) / 16) := by simp; omega
      simp [State.storeBytes, if_congr this rfl rfl]
    | cons c cs =>
      rw [ih _ _ _ (by simp), tagAt_storeByte]
      simp only [List.length_cons]
      split
      · rw [if_pos]; omega
      · split
        · rw [if_pos]; omega
        · rw [if_neg]; omega

@[simp] theorem tagAt_mend (s : State) (a n k : Nat) : (s.mend a n).tagAt k = s.tagAt k := by
  unfold State.mend; split <;> rfl
@[simp] theorem mem_mend (s : State) (a n : Nat) : (s.mend a n).mem = s.mem := by
  unfold State.mend; split <;> rfl

/-- What one write does: its bytes are those given and no others change. -/
theorem wrote_write (s : State) (a : Nat) (bs : List Byte) : Wrote s (s.write a bs) a bs :=
  ⟨fun k h => State.byte_write_inside s bs a k h, fun k h => State.byte_write_outside s bs a k h⟩

/-- And its tags: DATA in every granule it overlaps. -/
theorem tagged_write (s : State) (a : Nat) (bs : List Byte) (h : bs ≠ []) : Tagged s (s.write a bs) a bs.length .data :=
  fun k => by simp [State.write, tagAt_storeBytes bs s a k h]

/-! The canonical form -/

theorem swfFrom_filter {α : Type} [DecidableEq α] (d : α) (q : Nat × α → Bool) (m : List (Nat × α)) :
    ∀ lo, swfFrom d lo m = true → swfFrom d lo (m.filter q) = true := by
  induction m with
  | nil => intro lo h; exact h
  | cons e m ih =>
    intro lo h
    obtain ⟨j, v⟩ := e
    simp only [swfFrom, Bool.and_eq_true, decide_eq_true_eq] at h
    rw [List.filter_cons]
    split
    · simp only [swfFrom, Bool.and_eq_true, decide_eq_true_eq]
      exact ⟨h.1, ih _ h.2⟩
    · exact ih lo (swfFrom_mono d m lo (j + 1) (by omega) h.2)

theorem wf_clearRange (s : State) (a n : Nat) (w : MemoryWf s) : MemoryWf (clearRange s a n) := swfFrom_filter 0 _ s.mem 0 w

theorem wf_writeChunks (cs : List Chunk) : ∀ (s : State) (a : Nat), MemoryWf s → MemoryWf (writeChunks s a cs) := by
  induction cs with
  | nil => intro _ _ w; exact w
  | cons c cs ih =>
    intro s a w
    obtain ⟨bs, tg⟩ := c
    unfold writeChunks
    apply ih
    split
    · exact Memory.wf_write s bs a w
    · exact Memory.wf_write s bs a w

theorem wf_copyChunks (r : State) (n : Nat) : ∀ (s : State) (src dst : Nat), MemoryWf s → MemoryWf (copyChunks r s src dst n) := by
  induction n with
  | zero => intro _ _ _ w; exact w
  | succ n ih => intro s src dst w; exact ih _ _ _ (wf_writeChunks _ s dst w)

theorem swf_moveCells {α : Type} [DecidableEq α] (d : α) (was now : Nat) (l : List (Nat × α)) :
    ∀ m, swf d m = true → swf d (moveCells d was now l m) = true := by
  induction l with
  | nil => intro m h; exact h
  | cons p l ih => intro m h; exact ih _ (swf_sset d m _ _ h)

/-! Stores through a loop-back path (R367) -/

theorem under_own {s : State} {a : W64} {b : Nat} (h : s.under a b = true) : (ownOffset s b).isSome = true := by
  unfold State.under at h
  generalize ownOffset s b = o at h
  cases o with
  | none => exact h
  | some o => rfl

theorem not_under {s : State} {a : W64} (h : s.ahead (viaGlobal a) = []) (b : Nat) : s.under a b = false ∧ s.tagUnder a b = false := by
  unfold State.under State.tagUnder
  rw [h]
  generalize ownOffset s b = o
  cases o <;> exact ⟨rfl, rfl⟩

theorem ahead_loopless {s : State} (h : s.loopMine = []) (g : Bool) : s.ahead g = [] := by
  unfold State.ahead; rw [h]; rfl

/-- Where the executing task has no store between its paths, an access finds and sees memory itself. -/
theorem loopless (s : State) (a : W64) : Loopless s a := by
  intro h pa
  have n := not_under (ahead_loopless h (viaGlobal a)) pa
  refine ⟨?_, ?_, ?_, n.1, n.2⟩
  · unfold State.seenByte; rw [h]; generalize ownOffset s pa = o; cases o <;> rfl
  · unfold State.seenTag; rw [h]; generalize ownOffset s pa = o; cases o <;> rfl
  · unfold State.foundByte; rw [ahead_loopless h]; generalize ownOffset s pa = o; cases o <;> rfl

theorem byte_found (s : State) (a : W64) (ps : List Nat) (b : Nat) :
    (s.found a ps).byte b = if b ∈ ps then s.foundByte a b else s.byte b := by
  unfold State.found
  generalize s.foundByte a = F
  generalize s.foundTag a = G
  revert s
  induction ps with
  | nil => intro s; rfl
  | cons p ps ih =>
    intro s
    rw [List.foldl_cons, ih, State.byte_setTag, State.byte_putByte]
    by_cases h : b = p
    · subst h; simp
    · simp [h]

/-- What a store that lies under others takes back: their bytes stand. -/
theorem byte_giveBack (s : State) (a : W64) (b : Nat) (ps : List Nat) (t : State) :
    (s.giveBack a ps t).byte b = if b ∈ ps ∧ s.under a b = true then s.byte b else t.byte b := by
  unfold State.giveBack
  generalize s.under a = U
  generalize s.tagUnder a = V
  generalize s.byte = B
  generalize s.tagAt = G
  revert t
  induction ps with
  | nil => intro t; simp
  | cons p ps ih =>
    intro t
    rw [List.foldl_cons, ih]
    have e : ∀ u : State, (if V p = true then u.setTag p (G p) else u).byte b = u.byte b := by
      intro u; split
      · exact State.byte_setTag ..
      · rfl
    simp only [e]
    by_cases hp : b = p
    · subst hp
      by_cases hu : U b = true
      · simp [hu, State.byte_putByte]
      · simp [hu]
    · have n : (if U p = true then t.putByte p (B p) else t).byte b = t.byte b := by
        split
        · rw [State.byte_putByte, if_neg hp]
        · rfl
      simp only [n, List.mem_cons, hp, false_or]

theorem wf_setTag (s : State) (p : Nat) (g : Tag) (w : MemoryWf s) : MemoryWf (s.setTag p g) := by
  unfold MemoryWf at *
  rw [State.setTag_mem]; exact w

theorem wf_putByte (s : State) (p : Nat) (b : Byte) (w : MemoryWf s) : MemoryWf (s.putByte p b) := by
  unfold MemoryWf at *
  exact Memory.wf_putByte s p b w

theorem wf_found (s : State) (a : W64) (ps : List Nat) (w : MemoryWf s) : MemoryWf (s.found a ps) := by
  unfold State.found
  generalize s.foundByte a = F
  generalize s.foundTag a = G
  revert s
  induction ps with
  | nil => intro s h; exact h
  | cons p ps ih =>
    intro s h
    rw [List.foldl_cons]
    apply ih
    exact wf_setTag _ _ _ (wf_putByte _ _ _ h)

theorem wf_giveBack (s : State) (a : W64) (ps : List Nat) (t : State) (w : MemoryWf t) : MemoryWf (s.giveBack a ps t) := by
  unfold State.giveBack
  generalize s.under a = U
  generalize s.tagUnder a = V
  generalize s.byte = B
  generalize s.tagAt = G
  revert t
  induction ps with
  | nil => intro t h; exact h
  | cons p ps ih =>
    intro t h
    rw [List.foldl_cons]
    apply ih
    have : MemoryWf (if U p = true then t.putByte p (B p) else t) := by
      split
      · exact wf_putByte t p _ h
      · exact h
    generalize (if U p = true then t.putByte p (B p) else t) = u at this
    show MemoryWf (if V p = true then u.setTag p (G p) else u)
    split
    · exact wf_setTag _ _ _ this
    · exact this

/-- A store through a path keeps memory canonical where the store itself does. -/
theorem wf_through (s : State) (a : W64) (pas : List Nat) (f : State → State) (hf : ∀ t, MemoryWf t → MemoryWf (f t)) (w : MemoryWf s) :
    MemoryWf (s.through a pas f) := by
  have base : ∀ ps, MemoryWf (f (if s.me.loop = [] then s else s.found a ps)) := fun ps => hf _ (by
    split
    · exact w
    · exact wf_found s a ps w)
  unfold State.through
  extract_lets ps b c t e es u
  split
  · exact hf s w
  · have : MemoryWf u := by
      show MemoryWf (if es = [] then t else s.giveBack a ps t)
      split
      · exact base ps
      · exact wf_giveBack s a ps t (base ps)
    exact this

theorem wf_store (s : State) (a : W64) (pa : Nat) (bs : List Byte) (w : MemoryWf s) : MemoryWf (s.store a pa bs) :=
  wf_through s a _ _ (fun t h => Memory.wf_write t bs pa h) w

theorem mem_ownCells (s : State) (pa n b : Nat) :
    b ∈ s.ownCells ((List.range n).map (pa + ·)) ↔ (pa ≤ b ∧ b < pa + n) ∧ (ownOffset s b).isSome = true := by
  unfold State.ownCells
  generalize ownOffset s = o
  simp only [List.mem_filter, List.mem_map, List.mem_range]
  constructor
  · rintro ⟨⟨k, hk, rfl⟩, h⟩; exact ⟨⟨by omega, by omega⟩, h⟩
  · rintro ⟨h, h'⟩; exact ⟨⟨b - pa, by omega, by omega⟩, h'⟩

theorem byte_setLoop (s : State) (es : List LoopStore) (b : Nat) : (s.setLoop es).byte b = s.byte b := rfl

/-- The bytes that a store finds changed before it lie within it, and it writes them all. -/
theorem byte_write_found (s t : State) (pa : Nat) (bs : List Byte) (h : ∀ b, b < pa ∨ pa + bs.length ≤ b → t.byte b = s.byte b) (b : Nat) :
    (t.write pa bs).byte b = (s.write pa bs).byte b := by
  by_cases c : b < pa ∨ pa + bs.length ≤ b
  · rw [State.byte_write_outside _ bs pa b c, State.byte_write_outside _ bs pa b c, h b c]
  · obtain ⟨k, hk, rfl⟩ : ∃ k, k < bs.length ∧ b = pa + k := ⟨b - pa, by omega, by omega⟩
    rw [State.byte_write_inside _ bs pa k hk, State.byte_write_inside _ bs pa k hk]

theorem byte_store (s : State) (a : W64) (pa : Nat) (bs : List Byte) (b : Nat) :
    (s.store a pa bs).byte b = if (pa ≤ b ∧ b < pa + bs.length) ∧ s.under a b = true then s.byte b else (s.write pa bs).byte b := by
  have own := mem_ownCells s pa bs.length b
  have base : ∀ b', (State.write (if s.me.loop = [] then s else s.found a (s.ownCells ((List.range bs.length).map (pa + ·)))) pa bs).byte b'
      = (s.write pa bs).byte b' := byte_write_found s _ pa bs (fun c hc => by
    split
    · rfl
    · rw [byte_found, if_neg]
      intro m
      have := ((mem_ownCells s pa bs.length c).1 m).1
      omega)
  unfold State.store State.through
  extract_lets ps c d t e es u
  split
  · rename_i h
    rw [if_neg]
    intro m
    have : b ∈ ps := own.2 ⟨m.1, under_own m.2⟩
    rw [h] at this; cases this
  · rw [byte_setLoop]
    show State.byte (if es = [] then t else s.giveBack a ps t) b = _
    split
    · rename_i h
      rw [if_neg (fun m => by rw [(not_under h b).1] at m; cases m.2)]
      exact base b
    · rw [byte_giveBack, show t.byte b = (s.write pa bs).byte b from base b]
      have : (b ∈ ps ∧ s.under a b = true) ↔ ((pa ≤ b ∧ b < pa + bs.length) ∧ s.under a b = true) :=
        ⟨fun h => ⟨(own.1 h.1).1, h.2⟩, fun h => ⟨own.2 ⟨h.1, under_own h.2⟩, h.2⟩⟩
      simp only [this]

/-- What a store through a path does to bytes: those that lie under no store of the other path become its own, and no others change. -/
theorem wroteVia_store (s : State) (a : W64) (pa : Nat) (bs : List Byte) : WroteVia s (s.store a pa bs) a pa bs := by
  constructor
  · intro k h
    rw [byte_store, State.byte_write_inside s bs pa k h]
    generalize s.under a (pa + k) = u
    cases u <;> simp [h]
  · intro b h
    rw [byte_store, if_neg (by omega), State.byte_write_outside s bs pa b h]

end Sys2Proof.Laws
end

