-- ==== Sys2Proof/Laws/Access.lean ====
section
/-! SUPPORT. What placing an access does (R149, R342 to R344): it moves translation caches, walker roots and two counters of
its task, and nothing else; and what taking an exception does (R270). -/

namespace Sys2Proof.Laws

open Sys2Proof Sys2Proof.Machine Sys2Proof.Safety

/-! `Accessed` -/

theorem accessed_refl (s : State) : Accessed s s := ⟨rfl, fun _ _ => rfl, fun _ => rfl, fun _ => rfl, fun _ => rfl⟩

/-- The executing task stays the executing task. -/
theorem accessed_curTid {s t : State} (h : Accessed s t) : t.curTid = s.curTid := by
  have hc : t.cur = s.cur := by rw [h.1]
  have ha : t.again = s.again := by rw [h.1]
  unfold State.curTid State.me
  rw [hc, ha, h.2.2.1 s.cur]
  rfl

theorem accessed_trans {s t u : State} (h : Accessed s t) (k : Accessed t u) : Accessed s u := by
  refine ⟨?_, fun v hv => ?_, fun c => ?_, fun c => ?_, fun d => ?_⟩
  · rw [k.1, h.1]
  · rw [k.2.1 v (by rw [accessed_curTid h]; exact hv), h.2.1 v hv]
  · rw [k.2.2.1 c, h.2.2.1 c]
  · rw [k.2.2.2.1 c, h.2.2.2.1 c]
  · rw [k.2.2.2.2 d, h.2.2.2.2 d]

/-- A state with other translation caches and roots, and its memory. -/
def CachesOnly (s t : State) : Prop :=
  Accessed s t ∧ t.mem = s.mem ∧ t.tags = s.tags ∧ t.ue = s.ue ∧ t.tasks = s.tasks

theorem cachesOnly_refl (s : State) : CachesOnly s s := ⟨accessed_refl s, rfl, rfl, rfl, rfl⟩

theorem cachesOnly_trans {s t u : State} (h : CachesOnly s t) (k : CachesOnly t u) : CachesOnly s u :=
  ⟨accessed_trans h.1 k.1, k.2.1.trans h.2.1, k.2.2.1.trans h.2.2.1, k.2.2.2.1.trans h.2.2.2.1, k.2.2.2.2.trans h.2.2.2.2⟩

theorem cachesOnly_onDie (s : State) (d : Nat) (f : Die → Die)
    (hf : ∀ x, f x = { x with dtc := (f x).dtc, roots := (f x).roots }) : CachesOnly s (s.onDie d f) := by
  refine ⟨⟨rfl, fun _ _ => rfl, fun _ => rfl, fun _ => rfl, fun e => ?_⟩, rfl, rfl, rfl, rfl⟩
  rw [State.die_onDie]
  split
  · next h => rw [h]; exact hf _
  · rfl

theorem cachesOnly_onCluster (s : State) (c : Nat) (f : Cluster → Cluster)
    (hf : ∀ x, f x = { x with l2 := (f x).l2, roots := (f x).roots, roots1 := (f x).roots1 }) : CachesOnly s (s.onCluster c f) := by
  refine ⟨⟨rfl, fun _ _ => rfl, fun _ => rfl, fun e => ?_, fun _ => rfl⟩, rfl, rfl, rfl, rfl⟩
  rw [State.cluster_onCluster]
  split
  · next h => rw [h]; exact hf _
  · rfl

theorem cachesOnly_onCore (s : State) (k : Nat) (f : Core → Core)
    (hf : ∀ x, f x = { x with itlb := (f x).itlb, dtlb := (f x).dtlb, loop := (f x).loop }) : CachesOnly s (s.onCore k f) := by
  refine ⟨⟨rfl, fun _ _ => rfl, fun j => ?_, fun _ => rfl, fun _ => rfl⟩, rfl, rfl, rfl, rfl⟩
  rw [State.core_onCore]
  split
  · next h =>
    rw [h]
    generalize hx : s.core k = x
    have := hf x
    rw [this]
  · rfl

/-! Translation -/

theorem keepRoot_caches (s : State) (p : Path) (asid : W16) (r : Option Nat) : CachesOnly s (s.keepRoot p asid r) := by
  unfold State.keepRoot
  split
  · exact cachesOnly_onCluster s _ _ fun _ => by split <;> rfl
  · exact cachesOnly_onDie s _ _ fun _ => rfl
  · exact cachesOnly_refl s

theorem fillPath_caches (s : State) (p : Path) (asid : W16) (va level : Nat) (leaf : W64) (walked : Bool) :
    CachesOnly s (s.fillPath p asid va level leaf walked) := by
  unfold State.fillPath
  dsimp only
  have h1 : CachesOnly s (if walked then s.onDie p.die fun d =>
      { d with dtc := tlbFill d.dtc 4096 s.tick ⟨asid, BitVec.ofNat 64 va, level, leaf⟩ } else s) := by
    cases walked
    · exact cachesOnly_refl s
    · exact cachesOnly_onDie s p.die (fun d => { d with dtc := tlbFill d.dtc 4096 s.tick ⟨asid, BitVec.ofNat 64 va, level, leaf⟩ })
        fun _ => rfl
  generalize (if walked then s.onDie p.die fun d =>
      { d with dtc := tlbFill d.dtc 4096 s.tick ⟨asid, BitVec.ofNat 64 va, level, leaf⟩ } else s) = s1 at h1
  refine cachesOnly_trans h1 ?_
  have h2 : CachesOnly s1 (match p.cl with
      | some c => s1.onCluster c fun y => { y with l2 := tlbFill y.l2 2048 s1.tick ⟨asid, BitVec.ofNat 64 va, level, leaf⟩ }
      | none => s1) := by
    cases p.cl with
    | none => exact cachesOnly_refl s1
    | some c => exact cachesOnly_onCluster _ c _ fun _ => rfl
  match p.core with
  | none => exact h2
  | some (k, true) => exact cachesOnly_trans h2 (cachesOnly_onCore _ k _ fun _ => rfl)
  | some (k, false) => exact cachesOnly_trans h2 (cachesOnly_onCore _ k _ fun _ => rfl)

/-- A translation moves caches and roots only (R343, R344). -/
theorem translate_caches (s : State) (p : Path) (asid : W16) (va : Nat) (u : Use) (sup : Bool) :
    CachesOnly s (s.translate p asid va u sup).1 := by
  unfold State.translate
  dsimp only
  split
  · exact cachesOnly_refl s
  · exact cachesOnly_refl s
  · exact keepRoot_caches s _ _ _
  · split
    · split
      · exact cachesOnly_trans (keepRoot_caches s _ _ _) (fillPath_caches _ _ _ _ _ _ _)
      · exact keepRoot_caches s _ _ _
    · exact keepRoot_caches s _ _ _

/-- Memory is as it was, the task has the same state but for two counters, and beside it only caches moved. -/
def Placed (s t : State) : Prop :=
  Accessed s t ∧ t.mem = s.mem ∧ t.tags = s.tags ∧ t.ue = s.ue ∧ Counted s.curTask t.curTask

theorem counted_refl (x : Task) : Counted x x := rfl

theorem placed_refl (s : State) : Placed s s := ⟨accessed_refl s, rfl, rfl, rfl, rfl⟩

theorem placed_of_caches {s t : State} (h : CachesOnly s t) : Placed s t := by
  refine ⟨h.1, h.2.1, h.2.2.1, h.2.2.2.1, ?_⟩
  have : t.curTask = s.curTask := by
    unfold State.curTask State.task
    rw [accessed_curTid h.1, h.2.2.2.2]
  rw [this]
  exact counted_refl _

theorem countLookup_placed (s : State) (l : Lookup) (u : Use) : Placed s (countLookup s l u) := by
  unfold countLookup
  refine ⟨⟨rfl, fun v hv => ?_, fun _ => rfl, fun _ => rfl, fun _ => rfl⟩, rfl, rfl, rfl, ?_⟩
  · rw [State.task_onCur, if_neg hv]
  · rw [State.curTask_onCur]; rfl

theorem placed_trans {s t u : State} (h : Placed s t) (k : Placed t u) : Placed s u :=
  ⟨accessed_trans h.1 k.1, k.2.1.trans h.2.1, k.2.2.1.trans h.2.2.1, k.2.2.2.1.trans h.2.2.2.1, by
    have a := h.2.2.2.2
    have b := k.2.2.2.2
    unfold Counted at *
    rw [b, a]⟩

/-- A placed address at or above 16 MiB: what translation left. -/
theorem translate5_placed {s t : State} {a : W64} {u : Use} {pa : Nat} {sup : Bool}
    (h : translate5 s a u = .ok (t, pa, sup)) : Placed s t := by
  unfold translate5 at h
  split at h
  · cases h
  · dsimp only at h
    have hp := placed_trans
      (placed_of_caches (translate_caches s ⟨some (s.cur, u = .fetch), some (clusterOf s.cur), dieOf s.cur⟩ s.curTask.asid a.toNat u
        s.curTask.sup.priv))
      (countLookup_placed _
        (s.translate ⟨some (s.cur, u = .fetch), some (clusterOf s.cur), dieOf s.cur⟩ s.curTask.asid a.toNat u s.curTask.sup.priv).2.1 u)
    split at h
    · cases h
    · cases h
    · cases h
    · split at h
      · cases h
      · cases h; exact hp

/-- Checks 5 and 6 (R149). -/
theorem place_placed {s t : State} {a : W64} {n : Nat} {u : Use} {g : Target} (h : place s a n u = .ok (t, g)) : Placed s t := by
  unfold place at h
  split at h
  · cases h; exact placed_refl s
  · split at h
    · next s1 pa sup he =>
      unfold target6 at h
      split at h
      · cases h; exact translate5_placed he
      · cases h
    · cases h

/-- An access in the private alias goes to the scratchpad of the executing core (R151). -/
theorem place_alias (s : State) (a : W64) (n : Nat) (u : Use) (h : a.toNat < 0x1000000) :
    place s a n u = .ok (s, .mem (spadPa s.cur + a.toNat % 0x100000)) := if_pos h

/-- All checks of R149: an access that passes them was placed. -/
theorem resolve_placed {s t : State} {c : GVal} {perm : Byte} {a : W64} {n al : Nat} {u : Use} {e : Bool} {g : Target}
    (h : resolve s c perm a n al u e = .ok (t, g)) : Placed s t := by
  unfold resolve at h
  simp only [bind, Except.bind] at h
  repeat (split at h; · cases h)
  exact place_placed h

theorem resolve_place {s t : State} {c : GVal} {perm : Byte} {a : W64} {n al : Nat} {u : Use} {e : Bool} {g : Target}
    (h : resolve s c perm a n al u e = .ok (t, g)) : place s a n u = .ok (t, g) := by
  unfold resolve at h
  simp only [bind, Except.bind] at h
  repeat (split at h; · cases h)
  exact h

/-! Taking an exception (R270, R272, R32) -/

/-- A trap of the task's own set enters its handler. -/
theorem takeTrap_task (s : State) (t : BitVec 48) (code : Byte) (info : W64) (async : Bool)
    (h : (routedToTask code && !(s.task t).tr.inTrap && (s.task t).tr.tvec ≠ 0) = true) :
    takeTrap s t code info async = s.onTask t fun x => x.trapTask code info async := if_pos h

/-- Any other enters the supervisor's, unless one is in progress. -/
theorem takeTrap_sup (s : State) (t : BitVec 48) (code : Byte) (info : W64) (async : Bool)
    (h : (routedToTask code && !(s.task t).tr.inTrap && (s.task t).tr.tvec ≠ 0) = false) (hs : (s.task t).sup.inStrap = false) :
    takeTrap s t code info async =
      s.onTask t fun x => x.trapSup (s.core (s.task t).core).stvec code info (routedToTask code) async := by
  simp only [takeTrap, h, hs, Bool.false_eq_true, if_false]
  rfl

/-- What the entry of a supervisor trap saves, and where the pc goes. -/
theorem trapSup_fields (x : Task) (v : W64) (code : Byte) (info : W64) (nested async : Bool) :
    (x.trapSup v code info nested async).sup.sepc = x.pc ∧ (x.trapSup v code info nested async).sup.sinfo = info
    ∧ (x.trapSup v code info nested async).sup.prevPriv = x.sup.priv ∧ (x.trapSup v code info nested async).sup.priv = true
    ∧ (x.trapSup v code info nested async).sup.inStrap = true
    ∧ (x.trapSup v code info nested async).pcc = supervisorPcc v ∧ (x.trapSup v code info nested async).g = x.g :=
  ⟨rfl, rfl, rfl, rfl, rfl, rfl, rfl⟩

/-- What the entry of a task trap saves, and where the pc goes. -/
theorem trapTask_fields (x : Task) (code : Byte) (info : W64) (async : Bool) :
    (x.trapTask code info async).tr.tepc = x.pc ∧ (x.trapTask code info async).tr.tinfo = info
    ∧ (x.trapTask code info async).tr.inTrap = true ∧ (x.trapTask code info async).tr.tvec = x.tr.tvec
    ∧ (x.trapTask code info async).pcc = moveCursor x.pcc x.tr.tvec ∧ (x.trapTask code info async).sup = x.sup
    ∧ (x.trapTask code info async).g = x.g := ⟨rfl, rfl, rfl, rfl, rfl, rfl, rfl⟩

end Sys2Proof.Laws
end

