-- ==== Sys2Proof/Laws/Ops.lean ====
section
/-! SUPPORT. What the shared operations can do: retirement, guarded execution, a stop. -/

namespace Sys2Proof.Machine

open Sys2Proof.Safety

/-! Retirement (R139, R140) -/

/-- Everything of a task but its pc, registers, loops and acknowledgement is the same. -/
def Task.alike (x y : Task) : Prop :=
  y = { x with
    pcc := y.pcc, g := y.g, l0 := y.l0, l1 := y.l1, rvAck := y.rvAck }

theorem Task.alike_refl (x : Task) : x.alike x := rfl

theorem Task.alike_trans {x y z : Task} (h : x.alike y) (k : y.alike z) : x.alike z := by
  unfold Task.alike at *
  rw [k, h]

@[simp] theorem Task.pcc_setPc (x : Task) (a : W64) : (x.setPc a).pcc = moveCursor x.pcc a := rfl
@[simp] theorem Task.l0_setPc (x : Task) (a : W64) : (x.setPc a).l0 = x.l0 := rfl
@[simp] theorem Task.l1_setPc (x : Task) (a : W64) : (x.setPc a).l1 = x.l1 := rfl

theorem Task.setPc_alike (x : Task) (a : W64) : x.alike (x.setPc a) := rfl
theorem Task.setReg_alike (x : Task) (d : BitVec 5) (v : GVal) : x.alike (x.setReg d v) := by
  unfold Task.alike; rw [Task.setReg_rest]

theorem Task.settle_alike (x : Task) : x.alike x.settle := rfl

theorem Task.settle_fields (x : Task) : x.settle.g = x.g ∧ x.settle.pcc = x.pcc ∧ x.settle.l0 = x.l0 ∧ x.settle.l1 = x.l1 :=
  ⟨rfl, rfl, rfl, rfl⟩

theorem Task.bump_alike (x : Task) (l : LoopRegs) : x.alike (x.bump l) := by
  unfold Task.bump Task.setR64
  split
  · exact Task.setReg_alike _ _ _
  · rfl

theorem Task.bump_fields (x : Task) (l : LoopRegs) : (x.bump l).pcc = x.pcc ∧ (x.bump l).l0 = x.l0 ∧ (x.bump l).l1 = x.l1 := by
  unfold Task.bump Task.setR64
  split
  · rw [Task.setReg_rest]; exact ⟨rfl, rfl, rfl⟩
  · exact ⟨rfl, rfl, rfl⟩

/-- A LOOPI index is the only register that a loop end writes. -/
theorem Task.reg_bump (x : Task) (l : LoopRegs) (r : BitVec 5) (h : (l.isIdx && decide (r = l.idx)) = false) :
    (x.bump l).reg r = x.reg r := by
  unfold Task.bump Task.setR64
  split
  · rename_i hi
    simp only [hi, Bool.true_and, decide_eq_false_iff_not] at h
    rw [Task.reg_setReg]; simp [h]
  · rfl

/-- What retirement leaves of a task. -/
def Task.quiet (x y : Task) : Prop := x.alike y ∧ ∀ r, loopIndex x r = false → y.reg r = x.reg r

theorem Task.quiet_settle (x : Task) : x.quiet x.settle := ⟨Task.settle_alike x, fun _ _ => rfl⟩

theorem Task.quiet_setPc {x y : Task} (h : x.quiet y) (a : W64) : x.quiet (y.setPc a) :=
  ⟨Task.alike_trans h.1 rfl, fun r hr => h.2 r hr⟩

theorem Task.quiet_withL1 {x y : Task} (h : x.quiet y) (l : LoopRegs) : x.quiet { y with l1 := l } :=
  ⟨Task.alike_trans h.1 rfl, fun r hr => h.2 r hr⟩

theorem Task.quiet_withL0 {x y : Task} (h : x.quiet y) (l : LoopRegs) : x.quiet { y with l0 := l } :=
  ⟨Task.alike_trans h.1 rfl, fun r hr => h.2 r hr⟩

theorem Task.quiet_bump1 {x y : Task} (h : x.quiet y) (hl : y.l1 = x.l1) (he : x.l1.atEnd x.pc = true) : x.quiet (y.bump y.l1) := by
  refine ⟨Task.alike_trans h.1 (Task.bump_alike y _), fun r hi => ?_⟩
  rw [Task.reg_bump _ _ _ ?_, h.2 r hi]
  simp only [loopIndex, he, Bool.or_eq_false_iff, Bool.and_true] at hi
  rw [hl]; exact hi.1

theorem Task.quiet_bump0 {x y : Task} (h : x.quiet y) (hl : y.l0 = x.l0) (he : x.l0.atEnd x.pc = true) : x.quiet (y.bump y.l0) := by
  refine ⟨Task.alike_trans h.1 (Task.bump_alike y _), fun r hi => ?_⟩
  rw [Task.reg_bump _ _ _ ?_, h.2 r hi]
  simp only [loopIndex, he, Bool.or_eq_false_iff, Bool.and_true] at hi
  rw [hl]; exact hi.2

theorem Task.quiet_leave1 {x y : Task} (h : x.quiet y) (hl : y.l1 = x.l1) (he : x.l1.atEnd x.pc = true) : x.quiet y.leave1 := by
  unfold Task.leave1
  exact Task.quiet_withL1 (Task.quiet_bump1 h hl he) _

theorem Task.quiet_leave0 {x y : Task} (h : x.quiet y) (hl : y.l0 = x.l0) (he : x.l0.atEnd x.pc = true) : x.quiet y.leave0 := by
  unfold Task.leave0
  exact Task.quiet_withL0 (Task.quiet_bump0 h hl he) _

theorem Task.quiet_turn1 {x y : Task} (h : x.quiet y) (hl : y.l1 = x.l1) (he : x.l1.atEnd x.pc = true) : x.quiet y.turn1 := by
  unfold Task.turn1
  exact Task.quiet_setPc (Task.quiet_withL1 (Task.quiet_bump1 h hl he) _) _

theorem Task.quiet_turn0 {x y : Task} (h : x.quiet y) (hl : y.l0 = x.l0) (he : x.l0.atEnd x.pc = true) : x.quiet y.turn0 := by
  unfold Task.turn0
  exact Task.quiet_setPc (Task.quiet_withL0 (Task.quiet_bump0 h hl he) _) _

theorem Task.leave1_l0 (x : Task) : x.leave1.l0 = x.l0 := (Task.bump_fields x x.l1).2.1

/-- Retirement leaves everything that a frame names. -/
theorem Task.quiet_advance (x : Task) (len : Nat) : x.quiet (x.advance len) := by
  have hs := Task.quiet_settle x
  obtain ⟨-, -, h0, h1⟩ := Task.settle_fields x
  unfold Task.advance
  dsimp only
  generalize x.settle = y at *
  split
  · rename_i he
    simp only [Bool.and_eq_true] at he
    exact Task.quiet_turn1 hs h1 he.1
  · have hv : x.quiet (if x.l1.atEnd x.pc then y.leave1 else y) ∧ (if x.l1.atEnd x.pc then y.leave1 else y).l0 = x.l0 := by
      split
      · rename_i he
        exact ⟨Task.quiet_leave1 hs h1 he, (Task.leave1_l0 y).trans h0⟩
      · exact ⟨hs, h0⟩
    generalize (if x.l1.atEnd x.pc then y.leave1 else y) = v at *
    split
    · rename_i he
      simp only [Bool.and_eq_true] at he
      exact Task.quiet_turn0 hv.1 hv.2 he.1
    · refine Task.quiet_setPc ?_ _
      split
      · rename_i he
        exact Task.quiet_leave0 hv.1 hv.2 he
      · exact hv.1

/-- Away from a loop end, retirement goes to the next instruction (R139). -/
theorem Task.advance_next (x : Task) (len : Nat) (h : atLoopEnd x = false) :
    (x.advance len).pcc = moveCursor x.pcc (x.pc + BitVec.ofNat 64 len) ∧ (x.advance len).l0 = x.l0 ∧ (x.advance len).l1 = x.l1 := by
  simp only [atLoopEnd, Bool.or_eq_false_iff] at h
  obtain ⟨-, hp, h0, h1⟩ := Task.settle_fields x
  unfold Task.advance
  dsimp only
  generalize x.settle = y at *
  simp only [h.1, h.2, Bool.false_and, Bool.false_eq_true, if_false, Task.pcc_setPc, Task.l0_setPc, Task.l1_setPc]
  exact ⟨by rw [hp], h0, h1⟩

/-- Retirement of an instruction that transfers no control (R139, R140). -/
theorem Task.advance_retired (x : Task) (len : Nat) : Retired len x (x.advance len) :=
  ⟨(Task.quiet_advance x len).1, (Task.quiet_advance x len).2, Task.advance_next x len⟩

/-! Guarded execution (R114) -/

theorem onlyTask_onCur (s : State) (f : Task → Task) : OnlyTask s (s.onCur f) :=
  ⟨rfl, fun u hu => by rw [State.task_onCur, if_neg hu]⟩

/-- A task-only instruction whose guard holds. -/
theorem alu_completes {i : Instr} {g : Guard} {len : Nat} {s : State} {f : Task → Task} (h : exec i s = alu g len s f)
    (hg : s.curTask.guardOk g = true) : Completes i len s f := by
  refine ⟨s.onCur fun x => if x.guardOk g then (f x).advance len else x.advance len, h, onlyTask_onCur s _, ?_⟩
  rw [State.task_onCur, if_pos rfl, if_pos hg]
  exact Task.advance_retired _ _

/-- A task-only instruction whose guard does not hold. -/
theorem alu_off {g : Guard} {len : Nat} {s : State} {f : Task → Task} (hg : s.curTask.guardOk g = false) :
    alu g len s f = .next (s.onCur fun x => x.advance len) := by
  unfold alu State.onCur State.onTask
  have : (s.task s.curTid).guardOk g = false := hg
  simp [this]

theorem guarded_on {g : Guard} {len : Nat} {s : State} {f : State → Eff State} (hg : s.curTask.guardOk g = true) :
    guarded g len s f = finish s (f s) := by simp [guarded, hg]

theorem guarded_off {g : Guard} {len : Nat} {s : State} {f : State → Eff State} (hg : s.curTask.guardOk g = false) :
    guarded g len s f = .next (s.onCur fun x => x.advance len) := by simp [guarded, hg]

/-- An instruction whose effect changes its task alone and then retires it. -/
theorem guarded_completes {i : Instr} {g : Guard} {len : Nat} {s : State} {f : Task → Task} {e : State → Eff State}
    (h : exec i s = guarded g len s e) (hg : s.curTask.guardOk g = true) (he : e s = .ok (retire (s.onCur f) len)) :
    Completes i len s f := by
  refine ⟨retire (s.onCur f) len, ?_, ⟨rfl, fun u hu => ?_⟩, ?_⟩
  · rw [h, guarded_on hg, he]; rfl
  · unfold retire retireOf
    rw [State.task_onTask, if_neg (by simpa [State.onCur] using hu), State.task_onCur, if_neg hu]
  · have : (retire (s.onCur f) len).task s.curTid = (f s.curTask).advance len := by
      unfold retire retireOf
      simp [State.onCur, State.curTask]
    rw [this]
    exact Task.advance_retired _ _

theorem alu_next (g : Guard) (len : Nat) (s : State) (f : Task → Task) : ∃ t, alu g len s f = .next t := ⟨_, rfl⟩

theorem finish_next (s : State) (r : Eff State) : ∃ t, finish s r = .next t := by
  cases r <;> exact ⟨_, rfl⟩

/-- A guarded instruction always answers a next state. -/
theorem guarded_next (g : Guard) (len : Nat) (s : State) (f : State → Eff State) : ∃ t, guarded g len s f = .next t := by
  unfold guarded
  split
  · exact finish_next _ _
  · exact ⟨_, rfl⟩

/-! Stops -/

@[simp] theorem finish_ok (s t : State) : finish s (.ok t) = .next t := rfl
@[simp] theorem finish_error (s : State) (st : Stop) : finish s (.error st) = .next (applyStop s st) := rfl
@[simp] theorem applyStop_trap (s : State) (c : Cause) (w : W64) : applyStop s (.trap c w) = raise s s.curTid c w false := rfl
@[simp] theorem applyStop_stall (s : State) : applyStop s .stall = s := rfl

end Sys2Proof.Machine
end

