-- ==== Sys2Proof/Laws/PerInstr.lean ====
section
/-! SUPPORT. A fact about every instruction as syntax: how many words its encoding has (R92). -/

namespace Sys2Proof.Laws.Words

open Sys2Proof

/-- A list of words as the code stream holds them: none for an event row; otherwise one word, and one more exactly if the first
word's major opcode takes a literal word. -/
def Shape : List W32 → Prop
  | [] => True
  | w :: rest => rest.length = if hasLiteral w then 1 else 0

/-- R92: the encoding of an instruction has the number of words that its first word says. -/
def Statement (i : Instr) : Prop := Shape (encode i)

theorem low_seven (x : BitVec 25) (m : BitVec 7) : (x ++ m : BitVec (25 + 7)).extractLsb' 0 7 = m := by
  ext k hk
  rw [BitVec.getElem_extractLsb', Nat.zero_add, BitVec.getLsbD_append, if_pos hk, BitVec.getLsbD_eq_getElem hk]

theorem hasLiteral_append (x : BitVec 25) (m : BitVec 7) : hasLiteral (x ++ m) = hasLiteral (m.setWidth 32) := by
  have h : (m.setWidth 32).extractLsb' 0 7 = m := by
    apply BitVec.eq_of_toNat_eq
    have := m.isLt
    simp
    omega
  unfold hasLiteral
  rw [h]
  exact congrArg (fun y : BitVec 7 => match y.toNat with
    | 0x0C | 0x0D | 0x3B | 0x3C | 0x3D | 0x47 | 0x4E | 0x51 => true
    | _ => false) (low_seven x m)

theorem shape_one (x : BitVec 25) (m : BitVec 7) (h : hasLiteral (m.setWidth 32) = false) : Shape [x ++ m] := by
  simp [Shape, hasLiteral_append, h]

theorem shape_two (x : BitVec 25) (m : BitVec 7) (l : W32) (h : hasLiteral (m.setWidth 32) = true) : Shape [x ++ m, l] := by
  simp [Shape, hasLiteral_append, h]

theorem add (g : Guard) (d a b : BitVec 5) : Statement (.add g d a b) := shape_one _ _ rfl
theorem sub (g : Guard) (d a b : BitVec 5) : Statement (.sub g d a b) := shape_one _ _ rfl
theorem mul (g : Guard) (d a b : BitVec 5) : Statement (.mul g d a b) := shape_one _ _ rfl
theorem mulh (g : Guard) (d a b : BitVec 5) : Statement (.mulh g d a b) := shape_one _ _ rfl
theorem mulhu (g : Guard) (d a b : BitVec 5) : Statement (.mulhu g d a b) := shape_one _ _ rfl
theorem div (g : Guard) (d a b : BitVec 5) : Statement (.div g d a b) := shape_one _ _ rfl
theorem divu (g : Guard) (d a b : BitVec 5) : Statement (.divu g d a b) := shape_one _ _ rfl
theorem rem (g : Guard) (d a b : BitVec 5) : Statement (.rem g d a b) := shape_one _ _ rfl
theorem remu (g : Guard) (d a b : BitVec 5) : Statement (.remu g d a b) := shape_one _ _ rfl
theorem and (g : Guard) (d a b : BitVec 5) : Statement (.and g d a b) := shape_one _ _ rfl
theorem or (g : Guard) (d a b : BitVec 5) : Statement (.or g d a b) := shape_one _ _ rfl
theorem xor (g : Guard) (d a b : BitVec 5) : Statement (.xor g d a b) := shape_one _ _ rfl
theorem andn (g : Guard) (d a b : BitVec 5) : Statement (.andn g d a b) := shape_one _ _ rfl
theorem shl (g : Guard) (d a b : BitVec 5) : Statement (.shl g d a b) := shape_one _ _ rfl
theorem shr (g : Guard) (d a b : BitVec 5) : Statement (.shr g d a b) := shape_one _ _ rfl
theorem sar (g : Guard) (d a b : BitVec 5) : Statement (.sar g d a b) := shape_one _ _ rfl
theorem min (g : Guard) (d a b : BitVec 5) : Statement (.min g d a b) := shape_one _ _ rfl
theorem max (g : Guard) (d a b : BitVec 5) : Statement (.max g d a b) := shape_one _ _ rfl
theorem minu (g : Guard) (d a b : BitVec 5) : Statement (.minu g d a b) := shape_one _ _ rfl
theorem maxu (g : Guard) (d a b : BitVec 5) : Statement (.maxu g d a b) := shape_one _ _ rfl
theorem clz (g : Guard) (d a : BitVec 5) : Statement (.clz g d a) := shape_one _ _ rfl
theorem ctz (g : Guard) (d a : BitVec 5) : Statement (.ctz g d a) := shape_one _ _ rfl
theorem popc (g : Guard) (d a : BitVec 5) : Statement (.popc g d a) := shape_one _ _ rfl
theorem brev (g : Guard) (d a : BitVec 5) : Statement (.brev g d a) := shape_one _ _ rfl
theorem sext (g : Guard) (d a : BitVec 5) (w : BitVec 2) : Statement (.sext g d a w) := shape_one _ _ rfl
theorem zext (g : Guard) (d a : BitVec 5) (w : BitVec 2) : Statement (.zext g d a w) := shape_one _ _ rfl
theorem addi (g : Guard) (d a : BitVec 5) (i : BitVec 11) : Statement (.addi g d a i) := shape_one _ _ rfl
theorem andi (g : Guard) (d a : BitVec 5) (i : BitVec 11) : Statement (.andi g d a i) := shape_one _ _ rfl
theorem ori (g : Guard) (d a : BitVec 5) (i : BitVec 11) : Statement (.ori g d a i) := shape_one _ _ rfl
theorem xori (g : Guard) (d a : BitVec 5) (i : BitVec 11) : Statement (.xori g d a i) := shape_one _ _ rfl
theorem shli (g : Guard) (d a : BitVec 5) (n : BitVec 7) : Statement (.shli g d a n) := shape_one _ _ rfl
theorem shri (g : Guard) (d a : BitVec 5) (n : BitVec 7) : Statement (.shri g d a n) := shape_one _ _ rfl
theorem sari (g : Guard) (d a : BitVec 5) (n : BitVec 7) : Statement (.sari g d a n) := shape_one _ _ rfl
theorem lit (g : Guard) (d : BitVec 5) (lit : BitVec 32) : Statement (.lit g d lit) := shape_two _ _ _ rfl
theorem lith (g : Guard) (d : BitVec 5) (q : BitVec 2) (lit : BitVec 32) : Statement (.lith g d q lit) := shape_two _ _ _ rfl
theorem cmp (g : Guard) (p : BitVec 3) (a b : BitVec 5) (c : BitVec 3) : Statement (.cmp g p a b c) := shape_one _ _ rfl
theorem cmpiEq (g : Guard) (p : BitVec 3) (a : BitVec 5) (i : BitVec 11) : Statement (.cmpiEq g p a i) := shape_one _ _ rfl
theorem cmpiNe (g : Guard) (p : BitVec 3) (a : BitVec 5) (i : BitVec 11) : Statement (.cmpiNe g p a i) := shape_one _ _ rfl
theorem cmpiLt (g : Guard) (p : BitVec 3) (a : BitVec 5) (i : BitVec 11) : Statement (.cmpiLt g p a i) := shape_one _ _ rfl
theorem cmpiLe (g : Guard) (p : BitVec 3) (a : BitVec 5) (i : BitVec 11) : Statement (.cmpiLe g p a i) := shape_one _ _ rfl
theorem cmpiLtu (g : Guard) (p : BitVec 3) (a : BitVec 5) (i : BitVec 11) : Statement (.cmpiLtu g p a i) := shape_one _ _ rfl
theorem cmpiLeu (g : Guard) (p : BitVec 3) (a : BitVec 5) (i : BitVec 11) : Statement (.cmpiLeu g p a i) := shape_one _ _ rfl
theorem pand (g : Guard) (p q r : BitVec 3) : Statement (.pand g p q r) := shape_one _ _ rfl
theorem por (g : Guard) (p q r : BitVec 3) : Statement (.por g p q r) := shape_one _ _ rfl
theorem pxor (g : Guard) (p q r : BitVec 3) : Statement (.pxor g p q r) := shape_one _ _ rfl
theorem pnot (g : Guard) (p q : BitVec 3) : Statement (.pnot g p q) := shape_one _ _ rfl
theorem pset (g : Guard) (p : BitVec 3) (b : BitVec 1) : Statement (.pset g p b) := shape_one _ _ rfl
theorem mov (g : Guard) (d a : BitVec 5) : Statement (.mov g d a) := shape_one _ _ rfl
theorem sel (g : Guard) (d a b : BitVec 5) (c : BitVec 3) : Statement (.sel g d a b c) := shape_one _ _ rfl
theorem csetb (g : Guard) (d a b : BitVec 5) : Statement (.csetb g d a b) := shape_one _ _ rfl
theorem crestr (g : Guard) (d a b : BitVec 5) : Statement (.crestr g d a b) := shape_one _ _ rfl
theorem cadd (g : Guard) (d a b : BitVec 5) : Statement (.cadd g d a b) := shape_one _ _ rfl
theorem cget (g : Guard) (d a f : BitVec 5) : Statement (.cget g d a f) := shape_one _ _ rfl
theorem cclr (g : Guard) (d a : BitVec 5) : Statement (.cclr g d a) := shape_one _ _ rfl
theorem cseal (g : Guard) (d a : BitVec 5) (k : BitVec 2) : Statement (.cseal g d a k) := shape_one _ _ rfl
theorem ctest (g : Guard) (p : BitVec 3) (a b : BitVec 5) : Statement (.ctest g p a b) := shape_one _ _ rfl
theorem ld (g : Guard) (d a : BitVec 5) (o : BitVec 8) (z : BitVec 3) : Statement (.ld g d a o z) := shape_one _ _ rfl
theorem st (g : Guard) (d a : BitVec 5) (o : BitVec 8) (z : BitVec 3) : Statement (.st g d a o z) := shape_one _ _ rfl
theorem ldc (g : Guard) (d a : BitVec 5) (i : BitVec 11) : Statement (.ldc g d a i) := shape_one _ _ rfl
theorem stc (g : Guard) (d a : BitVec 5) (i : BitVec 11) : Statement (.stc g d a i) := shape_one _ _ rfl
theorem lda (g : Guard) (d a : BitVec 5) (o : BitVec 8) (z : BitVec 3) : Statement (.lda g d a o z) := shape_one _ _ rfl
theorem stl (g : Guard) (d a : BitVec 5) (o : BitVec 8) (z : BitVec 3) : Statement (.stl g d a o z) := shape_one _ _ rfl
theorem pf (g : Guard) (h : BitVec 2) (a : BitVec 5) (i : BitVec 11) : Statement (.pf g h a i) := shape_one _ _ rfl
theorem fence (g : Guard) (s : BitVec 5) : Statement (.fence g s) := shape_one _ _ rfl
theorem fenceLb (g : Guard) : Statement (.fenceLb g) := shape_one _ _ rfl
theorem amo (g : Guard) (d a b : BitVec 5) (w : BitVec 2) (o : BitVec 4) : Statement (.amo g d a b w o) := shape_one _ _ rfl
theorem cas (g : Guard) (d a b : BitVec 5) (w : BitVec 2) : Statement (.cas g d a b w) := shape_one _ _ rfl
theorem stm (g : Guard) (d a b : BitVec 5) (z : BitVec 3) : Statement (.stm g d a b z) := shape_one _ _ rfl
theorem stred (g : Guard) (d a b : BitVec 5) (o z : BitVec 3) : Statement (.stred g d a b o z) := shape_one _ _ rfl
theorem barArr (g : Guard) (n : BitVec 4) : Statement (.barArr g n) := shape_one _ _ rfl
theorem barWait (g : Guard) (n : BitVec 4) : Statement (.barWait g n) := shape_one _ _ rfl
theorem barSync (g : Guard) (n : BitVec 4) : Statement (.barSync g n) := shape_one _ _ rfl
theorem cntSet (g : Guard) (a : BitVec 5) (n : BitVec 4) : Statement (.cntSet g a n) := shape_one _ _ rfl
theorem cntAdd (g : Guard) (a : BitVec 5) (n : BitVec 4) : Statement (.cntAdd g a n) := shape_one _ _ rfl
theorem cntWait (g : Guard) (a : BitVec 5) (n : BitVec 4) : Statement (.cntWait g a n) := shape_one _ _ rfl
theorem br (g : Guard) (x : BitVec 21) : Statement (.br g x) := shape_one _ _ rfl
theorem call (g : Guard) (x : BitVec 21) : Statement (.call g x) := shape_one _ _ rfl
theorem jr (g : Guard) (d a : BitVec 5) : Statement (.jr g d a) := shape_one _ _ rfl
theorem endTask (g : Guard) : Statement (.endTask g) := shape_one _ _ rfl
theorem yield (g : Guard) : Statement (.yield g) := shape_one _ _ rfl
theorem nop (g : Guard) : Statement (.nop g) := shape_one _ _ rfl
theorem loop (g : Guard) (a : BitVec 5) (n : BitVec 1) (dist : BitVec 20) : Statement (.loop g a n dist) := shape_two _ _ _ rfl
theorem loopi (g : Guard) (d a : BitVec 5) (step : BitVec 11) (n : BitVec 1) (dist : BitVec 20) : Statement (.loopi g d a step n dist) := shape_two _ _ _ rfl
theorem safept (g : Guard) (vmap : BitVec 16) (amap : BitVec 4) (gmap : BitVec 32) : Statement (.safept g vmap amap gmap) := shape_two _ _ _ rfl
theorem vadd (g : Guard) (d a b : BitVec 4) (m : BitVec 2) (t : BitVec 3) : Statement (.vadd g d a b m t) := shape_one _ _ rfl
theorem vsub (g : Guard) (d a b : BitVec 4) (m : BitVec 2) (t : BitVec 3) : Statement (.vsub g d a b m t) := shape_one _ _ rfl
theorem vmul (g : Guard) (d a b : BitVec 4) (m : BitVec 2) (t : BitVec 3) : Statement (.vmul g d a b m t) := shape_one _ _ rfl
theorem vfma (g : Guard) (d a b : BitVec 4) (m : BitVec 2) (t : BitVec 3) : Statement (.vfma g d a b m t) := shape_one _ _ rfl
theorem vmax (g : Guard) (d a b : BitVec 4) (m : BitVec 2) (t : BitVec 3) : Statement (.vmax g d a b m t) := shape_one _ _ rfl
theorem vmin (g : Guard) (d a b : BitVec 4) (m : BitVec 2) (t : BitVec 3) : Statement (.vmin g d a b m t) := shape_one _ _ rfl
theorem vabs (g : Guard) (d a : BitVec 4) (m : BitVec 2) (t : BitVec 3) : Statement (.vabs g d a m t) := shape_one _ _ rfl
theorem vneg (g : Guard) (d a : BitVec 4) (m : BitVec 2) (t : BitVec 3) : Statement (.vneg g d a m t) := shape_one _ _ rfl
theorem vexp2 (g : Guard) (d a : BitVec 4) (m : BitVec 2) (t : BitVec 3) : Statement (.vexp2 g d a m t) := shape_one _ _ rfl
theorem vlog2 (g : Guard) (d a : BitVec 4) (m : BitVec 2) (t : BitVec 3) : Statement (.vlog2 g d a m t) := shape_one _ _ rfl
theorem vrcp (g : Guard) (d a : BitVec 4) (m : BitVec 2) (t : BitVec 3) : Statement (.vrcp g d a m t) := shape_one _ _ rfl
theorem vrsq (g : Guard) (d a : BitVec 4) (m : BitVec 2) (t : BitVec 3) : Statement (.vrsq g d a m t) := shape_one _ _ rfl
theorem vcvt (g : Guard) (d a : BitVec 4) (s : BitVec 3) (m : BitVec 2) (t : BitVec 3) : Statement (.vcvt g d a s m t) := shape_one _ _ rfl
theorem vsel (g : Guard) (d a b : BitVec 4) (m : BitVec 2) (t : BitVec 3) : Statement (.vsel g d a b m t) := shape_one _ _ rfl
theorem vshf (g : Guard) (d a b : BitVec 4) (m : BitVec 2) (t : BitVec 3) : Statement (.vshf g d a b m t) := shape_one _ _ rfl
theorem viota (g : Guard) (d : BitVec 4) (m : BitVec 2) (t : BitVec 3) : Statement (.viota g d m t) := shape_one _ _ rfl
theorem mand (g : Guard) (d a b : BitVec 2) : Statement (.mand g d a b) := shape_one _ _ rfl
theorem mor (g : Guard) (d a b : BitVec 2) : Statement (.mor g d a b) := shape_one _ _ rfl
theorem mnot (g : Guard) (d a : BitVec 2) : Statement (.mnot g d a) := shape_one _ _ rfl
theorem vld (g : Guard) (d : BitVec 4) (a x : BitVec 5) (m : BitVec 2) (f : BitVec 4) : Statement (.vld g d a x m f) := shape_one _ _ rfl
theorem vst (g : Guard) (d : BitVec 4) (a x : BitVec 5) (m : BitVec 2) (f : BitVec 4) (s : BitVec 1) : Statement (.vst g d a x m f s) := shape_one _ _ rfl
theorem vstSeed (g : Guard) (d : BitVec 4) (a x : BitVec 5) (m : BitVec 2) (f : BitVec 4) (s : BitVec 1) (seed : BitVec 16) : Statement (.vstSeed g d a x m f s seed) := shape_two _ _ _ rfl
theorem vlds (g : Guard) (d : BitVec 4) (a x : BitVec 5) (m : BitVec 2) (f : BitVec 4) : Statement (.vlds g d a x m f) := shape_one _ _ rfl
theorem vgath (g : Guard) (d : BitVec 4) (a : BitVec 5) (v : BitVec 4) (m : BitVec 2) (f : BitVec 4) : Statement (.vgath g d a v m f) := shape_one _ _ rfl
theorem vscat (g : Guard) (d : BitVec 4) (a : BitVec 5) (v : BitVec 4) (m : BitVec 2) (f : BitVec 4) (s : BitVec 1) : Statement (.vscat g d a v m f s) := shape_one _ _ rfl
theorem vscatSeed (g : Guard) (d : BitVec 4) (a : BitVec 5) (v : BitVec 4) (m : BitVec 2) (f : BitVec 4) (s : BitVec 1) (seed : BitVec 16) : Statement (.vscatSeed g d a v m f s seed) := shape_two _ _ _ rfl
theorem vbcst (g : Guard) (d a : BitVec 5) (m : BitVec 2) (t : BitVec 3) : Statement (.vbcst g d a m t) := shape_one _ _ rfl
theorem vins (g : Guard) (d a b : BitVec 5) (t : BitVec 3) : Statement (.vins g d a b t) := shape_one _ _ rfl
theorem vext (g : Guard) (d a b : BitVec 5) (t : BitVec 3) : Statement (.vext g d a b t) := shape_one _ _ rfl
theorem vreds (g : Guard) (d a : BitVec 5) (m : BitVec 2) (t : BitVec 3) : Statement (.vreds g d a m t) := shape_one _ _ rfl
theorem vredm (g : Guard) (d a : BitVec 5) (m : BitVec 2) (t : BitVec 3) : Statement (.vredm g d a m t) := shape_one _ _ rfl
theorem vcmp (g : Guard) (d : BitVec 2) (a b : BitVec 4) (m : BitVec 2) (t : BitVec 3) (c : BitVec 4) : Statement (.vcmp g d a b m t c) := shape_one _ _ rfl
theorem vectorLoadUe (core : Nat) : Statement (.vectorLoadUe core) := trivial
theorem mxZero (g : Guard) (c : BitVec 2) : Statement (.mxZero g c) := shape_one _ _ rfl
theorem mxMma (g : Guard) (c : BitVec 2) (q : BitVec 1) (a b d : BitVec 5) : Statement (.mxMma g c q a b d) := shape_one _ _ rfl
theorem mxRag (g : Guard) (c : BitVec 2) (q : BitVec 1) (a b d : BitVec 5) : Statement (.mxRag g c q a b d) := shape_one _ _ rfl
theorem mxLda (g : Guard) (c : BitVec 2) (a d : BitVec 5) : Statement (.mxLda g c a d) := shape_one _ _ rfl
theorem mxSta (g : Guard) (c : BitVec 2) (a d : BitVec 5) : Statement (.mxSta g c a d) := shape_one _ _ rfl
theorem mxStaSeed (g : Guard) (c : BitVec 2) (a d : BitVec 5) (seed : BitVec 16) : Statement (.mxStaSeed g c a d seed) := shape_two _ _ _ rfl
theorem mxWait (g : Guard) (c : BitVec 2) (q : BitVec 1) : Statement (.mxWait g c q) := shape_one _ _ rfl
theorem mxStat (g : Guard) (q : BitVec 1) (a : BitVec 5) : Statement (.mxStat g q a) := shape_one _ _ rfl
theorem matrixOpStart (core : Nat) : Statement (.matrixOpStart core) := trivial
theorem matrixTripleBoundary (core : Nat) : Statement (.matrixTripleBoundary core) := trivial
theorem matrixOpRetire (core : Nat) : Statement (.matrixOpRetire core) := trivial
theorem matrixOperandUe (core : Nat) : Statement (.matrixOperandUe core) := trivial
theorem laClr (g : Guard) (a : BitVec 5) : Statement (.laClr g a) := shape_one _ _ rfl
theorem laAdd (g : Guard) (f a b : BitVec 5) : Statement (.laAdd g f a b) := shape_one _ _ rfl
theorem laAddv (g : Guard) (f a : BitVec 5) (v : BitVec 4) : Statement (.laAddv g f a v) := shape_one _ _ rfl
theorem laMrg (g : Guard) (a b : BitVec 5) : Statement (.laMrg g a b) := shape_one _ _ rfl
theorem laRnd (g : Guard) (d a f : BitVec 5) : Statement (.laRnd g d a f) := shape_one _ _ rfl
theorem chNew (g : Guard) (d a b : BitVec 5) : Statement (.chNew g d a b) := shape_one _ _ rfl
theorem chConn (g : Guard) (a b : BitVec 5) : Statement (.chConn g a b) := shape_one _ _ rfl
theorem chSend (g : Guard) (a b : BitVec 5) : Statement (.chSend g a b) := shape_one _ _ rfl
theorem chRecv (g : Guard) (d a : BitVec 5) : Statement (.chRecv g d a) := shape_one _ _ rfl
theorem chOffer (g : Guard) (d a : BitVec 5) : Statement (.chOffer g d a) := shape_one _ _ rfl
theorem chSelect (g : Guard) (a b : BitVec 5) : Statement (.chSelect g a b) := shape_one _ _ rfl
theorem chDeleg (g : Guard) (a b : BitVec 5) : Statement (.chDeleg g a b) := shape_one _ _ rfl
theorem chAccept (g : Guard) (d a : BitVec 5) : Statement (.chAccept g d a) := shape_one _ _ rfl
theorem chClose (g : Guard) (a : BitVec 5) : Statement (.chClose g a) := shape_one _ _ rfl
theorem chStat (g : Guard) (d a : BitVec 5) : Statement (.chStat g d a) := shape_one _ _ rfl
theorem chSync (g : Guard) (a : BitVec 5) : Statement (.chSync g a) := shape_one _ _ rfl
theorem chFree (g : Guard) (a : BitVec 5) : Statement (.chFree g a) := shape_one _ _ rfl
theorem spawn (g : Guard) (a b : BitVec 5) : Statement (.spawn g a b) := shape_one _ _ rfl
theorem bind (g : Guard) (d a b : BitVec 5) : Statement (.bind g d a b) := shape_one _ _ rfl
theorem unbind (g : Guard) (a : BitVec 5) : Statement (.unbind g a) := shape_one _ _ rfl
theorem launch (g : Guard) (d a : BitVec 5) : Statement (.launch g d a) := shape_one _ _ rfl
theorem jobq (g : Guard) (d a : BitVec 5) : Statement (.jobq g d a) := shape_one _ _ rfl
theorem ipGive (g : Guard) (a b : BitVec 5) : Statement (.ipGive g a b) := shape_one _ _ rfl
theorem ipTake (g : Guard) (d a : BitVec 5) : Statement (.ipTake g d a) := shape_one _ _ rfl
theorem am (g : Guard) (d a b : BitVec 5) (n : BitVec 3) : Statement (.am g d a b n) := shape_one _ _ rfl
theorem engW (g : Guard) (d e : BitVec 5) (i : BitVec 11) : Statement (.engW g d e i) := shape_one _ _ rfl
theorem engR (g : Guard) (d e : BitVec 5) (i : BitVec 11) : Statement (.engR g d e i) := shape_one _ _ rfl
theorem engGo (g : Guard) (e : BitVec 5) : Statement (.engGo g e) := shape_one _ _ rfl
theorem engWait (g : Guard) (e : BitVec 5) : Statement (.engWait g e) := shape_one _ _ rfl
theorem engineSwap (e : EngId) : Statement (.engineSwap e) := trivial
theorem engineCompletion (e : EngId) : Statement (.engineCompletion e) := trivial
theorem engineFault (e : EngId) : Statement (.engineFault e) := trivial
theorem engineBusError (e : EngId) : Statement (.engineBusError e) := trivial
theorem engineUe (e : EngId) : Statement (.engineUe e) := trivial
theorem exchangeJoin (die : Nat) (arrived : List ExPeer) : Statement (.exchangeJoin die arrived) := trivial
theorem exchangeNote (die : Nat) (rank : Nat) : Statement (.exchangeNote die rank) := trivial
theorem tret (g : Guard) : Statement (.tret g) := shape_one _ _ rfl
theorem sret (g : Guard) : Statement (.sret g) := shape_one _ _ rfl
theorem brk (g : Guard) : Statement (.brk g) := shape_one _ _ rfl
theorem tlbi (g : Guard) (a k : BitVec 5) : Statement (.tlbi g a k) := shape_one _ _ rfl
theorem compose (g : Guard) (p : BitVec 3) (a b : BitVec 5) : Statement (.compose g p a b) := shape_one _ _ rfl
theorem towerForm (core : Nat) : Statement (.towerForm core) := trivial
theorem composeTimeout (core : Nat) : Statement (.composeTimeout core) := trivial
theorem release (g : Guard) : Statement (.release g) := shape_one _ _ rfl
theorem govPin (g : Guard) : Statement (.govPin g) := shape_one _ _ rfl
theorem govUnpin (g : Guard) : Statement (.govUnpin g) := shape_one _ _ rfl
theorem trap (g : Guard) (i : BitVec 11) : Statement (.trap g i) := shape_one _ _ rfl
theorem mfs (g : Guard) (d : BitVec 5) (s : BitVec 12) : Statement (.mfs g d s) := shape_one _ _ rfl
theorem mts (g : Guard) (a : BitVec 5) (s : BitVec 12) : Statement (.mts g a s) := shape_one _ _ rfl
theorem trcMark (g : Guard) (a : BitVec 5) (i : BitVec 11) : Statement (.trcMark g a i) := shape_one _ _ rfl
theorem asyncTrapEntry (core : Nat) : Statement (.asyncTrapEntry core) := trivial
theorem handlerBudget (core : Nat) : Statement (.handlerBudget core) := trivial
theorem postedAtomicUe (core : Nat) : Statement (.postedAtomicUe core) := trivial
theorem pageFaultPark (task : Nat) : Statement (.pageFaultPark task) := trivial
theorem fbStatWrite (cluster : Nat) (value : W64) : Statement (.fbStatWrite cluster value) := trivial
theorem replayAll (cluster : Nat) : Statement (.replayAll cluster) := trivial
theorem replayRerun (cluster : Nat) : Statement (.replayRerun cluster) := trivial
theorem migrationShip (task : Nat) : Statement (.migrationShip task) := trivial
theorem migrationArrival (k : Nat) : Statement (.migrationArrival k) := trivial
theorem taskMessageArrival (k : Nat) : Statement (.taskMessageArrival k) := trivial
theorem taskAdmission (core : Nat) : Statement (.taskAdmission core) := trivial
theorem quantumExpiry (core : Nat) : Statement (.quantumExpiry core) := trivial
theorem spireLaunchRequest : Statement (.spireLaunchRequest) := trivial
theorem jobDealStart : Statement (.jobDealStart) := trivial
theorem groupDelivery (job : W32) (core : Nat) : Statement (.groupDelivery job core) := trivial
theorem freeCountReport (die : Nat) : Statement (.freeCountReport die) := trivial
theorem lqTailWrite (value : W64) : Statement (.lqTailWrite value) := trivial
theorem hostLaunchRecord : Statement (.hostLaunchRecord) := trivial
theorem jobCtlNone (job : W32) : Statement (.jobCtlNone job) := trivial
theorem jobPreempt (job : W32) : Statement (.jobPreempt job) := trivial
theorem jobResume (job : W32) : Statement (.jobResume job) := trivial
theorem jobKill (job : W32) : Statement (.jobKill job) := trivial
theorem preemptArrival (job : W32) (core : Nat) : Statement (.preemptArrival job core) := trivial
theorem preemptDeadline (task : Nat) : Statement (.preemptDeadline task) := trivial
theorem sendQueueInject (core : Nat) : Statement (.sendQueueInject core) := trivial
theorem slotReturnSend (core : Nat) (ep : Nat) : Statement (.slotReturnSend core ep) := trivial
theorem channelMessageArrival (k : Nat) : Statement (.channelMessageArrival k) := trivial
theorem connectArrival (k : Nat) : Statement (.connectArrival k) := trivial
theorem connectAnswer (k : Nat) : Statement (.connectAnswer k) := trivial
theorem slotReturn (k : Nat) : Statement (.slotReturn k) := trivial
theorem resyncWord (k : Nat) : Statement (.resyncWord k) := trivial
theorem resyncTimeout (core : Nat) (ep : Nat) : Statement (.resyncTimeout core ep) := trivial
theorem closeMessageArrival (k : Nat) : Statement (.closeMessageArrival k) := trivial
theorem closeAckArrival (k : Nat) : Statement (.closeAckArrival k) := trivial
theorem failureNotification (k : Nat) : Statement (.failureNotification k) := trivial
theorem movedArrival (k : Nat) : Statement (.movedArrival k) := trivial
theorem markArrivalOld (k : Nat) : Statement (.markArrivalOld k) := trivial
theorem markArrivalNew (k : Nat) : Statement (.markArrivalNew k) := trivial
theorem replySinkRelease (k : Nat) : Statement (.replySinkRelease k) := trivial
theorem podPortDiscard (k : Nat) : Statement (.podPortDiscard k) := trivial
theorem podErrorReply (k : Nat) : Statement (.podErrorReply k) := trivial
theorem podArrival (fibre : BitVec 4) (m : Msg) : Statement (.podArrival fibre m) := trivial
theorem linkReplay (fibre : BitVec 4) : Statement (.linkReplay fibre) := trivial
theorem linkDown (fibre : BitVec 4) : Statement (.linkDown fibre) := trivial
theorem alogEnable (value : W64) : Statement (.alogEnable value) := trivial
theorem alogReplayStart (value : W64) : Statement (.alogReplayStart value) := trivial
theorem replayReinject : Statement (.replayReinject) := trivial
theorem ctEntryWrite (e : BitVec 9) (value : W64) : Statement (.ctEntryWrite e value) := trivial
theorem circuitUp (e : BitVec 9) : Statement (.circuitUp e) := trivial
theorem twAdopt (cluster : Nat) (value : W64) : Statement (.twAdopt cluster value) := trivial
theorem tilePeerRequest (core : Nat) (ep : Nat) : Statement (.tilePeerRequest core ep) := trivial
theorem tilePeerSend (core : Nat) (ep : Nat) : Statement (.tilePeerSend core ep) := trivial
theorem tilePeerWrite (core : Nat) (ep : Nat) : Statement (.tilePeerWrite core ep) := trivial
theorem rdmaWrite (r : RdmaReq) : Statement (.rdmaWrite r) := trivial
theorem rdmaRead (r : RdmaReq) : Statement (.rdmaRead r) := trivial
theorem rdmaUnsupported (r : RdmaReq) : Statement (.rdmaUnsupported r) := trivial
theorem pfcPause (port : Nat) (prio : BitVec 3) (quanta : W16) : Statement (.pfcPause port prio quanta) := trivial
theorem qpContextWrite (port : BitVec 2) (q : BitVec 9) (word : BitVec 3) (value : W64) : Statement (.qpContextWrite port q word value) := trivial
theorem dbgCmdNone (gtid : BitVec 48) : Statement (.dbgCmdNone gtid) := trivial
theorem dbgStop (gtid : BitVec 48) : Statement (.dbgStop gtid) := trivial
theorem dbgResume (gtid : BitVec 48) : Statement (.dbgResume gtid) := trivial
theorem dbgStep (gtid : BitVec 48) : Statement (.dbgStep gtid) := trivial
theorem slogEnable (core : Nat) : Statement (.slogEnable core) := trivial
theorem slogDisable (core : Nat) : Statement (.slogDisable core) := trivial
theorem rampSlotBoundary : Statement (.rampSlotBoundary) := trivial
theorem powerOnReset : Statement (.powerOnReset) := trivial
theorem bootPhaseAdvance (die : Nat) : Statement (.bootPhaseAdvance die) := trivial
theorem hbmTrainingDone : Statement (.hbmTrainingDone) := trivial
theorem fullServiceStart : Statement (.fullServiceStart) := trivial
theorem recoveryImage (image : List Byte) : Statement (.recoveryImage image) := trivial
theorem attestIdentityRequest (datagram : List Byte) : Statement (.attestIdentityRequest datagram) := trivial
theorem attestReportRequest (datagrams : List (List Byte)) : Statement (.attestReportRequest datagrams) := trivial
theorem thermalThrottle (die : Nat) : Statement (.thermalThrottle die) := trivial
theorem thermalRestore : Statement (.thermalRestore) := trivial
theorem thermalClockStop (die : Nat) : Statement (.thermalClockStop die) := trivial
theorem controlRegisterWrite (mgmt : Bool) (die : Nat) (off : Nat) (size : Nat) (value : W64) : Statement (.controlRegisterWrite mgmt die off size value) := trivial
theorem vectorQueueExecute (core : Nat) : Statement (.vectorQueueExecute core) := trivial
theorem writeAcknowledgement (task : Nat) : Statement (.writeAcknowledgement task) := trivial
theorem ethernetLinkChange (port : Nat) (up : Bool) : Statement (.ethernetLinkChange port up) := trivial
theorem pfcPauseExpiry (port : Nat) : Statement (.pfcPauseExpiry port) := trivial
theorem powerLoss : Statement (.powerLoss) := trivial
theorem packageReset : Statement (.packageReset) := trivial

end Sys2Proof.Laws.Words
end

