-- ==== Sys2Proof/Tests/Slice0.lean ====
section
/-! SUPPORT. Tests of the model on small states: ill-formed terms refused, words of the spec's encodings decoded, single
steps, and for each obligation with hypotheses states that meet them (`witness_<obligation>`), with what happens there. -/

namespace Sys2Proof.Tests

open Sys2Proof Sys2Proof.Machine Sys2Proof.Safety

set_option Elab.async false

/-! Ill-formed instructions are refused: one term for each check of `Instr.wf` -/

/-- The guard that always holds. -/
def always : Guard := ⟨false, 0⟩

theorem wf_refuses_conditions : [Instr.cmp always 0 0 0 6, .cget always 0 0 6, .fence always 6, .vcmp always 0 0 0 0 0 6,
    .cas always 0 0 0 3, .tlbi always 0 4].any Instr.wf = false := by decide

theorem wf_refuses_sizes : [Instr.st always 0 0 0 1, .st always 0 0 0 3, .st always 0 0 0 5, .lda always 0 0 0 5, .stl always 0 0 0 0,
    .stm always 0 0 0 1, .stred always 0 0 0 0 7, .stred always 0 0 0 6 4, .stred always 0 0 0 1 6].any Instr.wf = false := by decide

theorem wf_refuses_atomics : [Instr.amo always 0 0 0 0 11, .amo always 0 0 0 1 9, .amo always 0 0 0 2 0].any Instr.wf = false := by
  decide

theorem wf_refuses_types : [Instr.vexp2 always 0 0 0 3, .vlog2 always 0 0 0 4, .vrcp always 0 0 0 3, .vrsq always 0 0 0 7,
    .viota always 0 0 3].any Instr.wf = false := by decide

theorem wf_refuses_formats : [Instr.vld always 0 0 0 0 15, .vst always 0 0 0 0 15 0, .vstSeed always 0 0 0 0 15 0 0,
    .vlds always 0 0 0 0 0, .vgath always 0 0 0 0 0, .vscat always 0 0 0 0 0 0, .vscatSeed always 0 0 0 0 15 0 0,
    .laAdd always 3 0 0, .laAddv always 2 0 0, .laRnd always 0 0 2].any Instr.wf = false := by decide

theorem wf_refuses_messages : [Instr.am always 0 0 0 7, .am always 1 0 0 0, .am always 30 0 0 3].any Instr.wf = false := by decide

theorem wf_refuses_engines : [Instr.engW always 0 2 0, .engW always 0 0 5, .engW always 0 1 6, .engR always 0 2 0,
    .engR always 0 0 4, .engGo always 2, .engWait always 31].any Instr.wf = false := by decide

theorem wf_refuses_registers : [Instr.mfs always 0 5, .mfs always 0 0x107, .mfs always 0 0x401, .mts always 0 0x506, .mts always 0 0x5FF,
    .mts always 0 0x614].any Instr.wf = false := by decide

theorem wf_refuses_cores : [Instr.vectorLoadUe 2560, .matrixOpStart 2560, .matrixTripleBoundary 2560, .matrixOpRetire 2560,
    .matrixOperandUe 2560, .towerForm 2560, .composeTimeout 2560, .asyncTrapEntry 2560, .handlerBudget 2560, .postedAtomicUe 2560,
    .taskAdmission 2560, .quantumExpiry 2560, .groupDelivery 0 2560, .preemptArrival 0 2560, .sendQueueInject 2560,
    .slogEnable 2560, .slogDisable 2560, .vectorQueueExecute 2560].any Instr.wf = false := by decide

theorem wf_refuses_endpoints : [Instr.slotReturnSend 2560 0, .slotReturnSend 0 64, .resyncTimeout 2560 0, .resyncTimeout 0 64,
    .tilePeerRequest 2560 0, .tilePeerRequest 0 64, .tilePeerSend 2560 0, .tilePeerSend 0 64, .tilePeerWrite 2560 0,
    .tilePeerWrite 0 64].any Instr.wf = false := by decide

theorem wf_refuses_units : [Instr.fbStatWrite 640 0, .replayAll 640, .replayRerun 640, .twAdopt 640 0, .freeCountReport 8,
    .exchangeJoin 8 [], .exchangeNote 8 0, .bootPhaseAdvance 8, .thermalThrottle 8, .thermalClockStop 8,
    .controlRegisterWrite false 8 0 8 0, .pfcPause 4 0 0, .pfcPauseExpiry 4, .ethernetLinkChange 4 true].any Instr.wf = false := by
  decide

/-! Words of the spec's encodings (R86 to R102) -/

/-- R94: the worked examples of ADDI, with and without the negate bit, and of BR. -/
theorem decode_examples_of_r94 : decode 0x328FFE02 0 = .ok (.addi ⟨false, 3⟩ 5 3 0x7FC) ∧ decode 0xB28FFE02 0 = .ok (.addi ⟨true, 3⟩ 5 3 0x7FC)
    ∧ decode 0x0FFFE038 0 = .ok (.br always 0x1FFFC0) ∧ decodeBytes [0x02, 0xFE, 0x8F, 0x32] = .ok (.addi ⟨false, 3⟩ 5 3 0x7FC, []) :=
  ⟨rfl, rfl, rfl, rfl⟩

/-- R108: the kernel `bump`, NOP and LOOP. -/
theorem decode_examples_of_r108 : decode 0x01840720 0 = .ok (.ld always 3 1 1 6) ∧ decode 0x018FFE02 0 = .ok (.addi always 3 3 0x7FC)
    ∧ decode 0x01840721 0 = .ok (.st always 3 1 1 6) ∧ decode 0x000000BA 0 = .ok (.endTask always)
    ∧ decode 0x000001BA 0 = .ok (.nop always) ∧ decode 0x0010003B 0x80000003 = .ok (.loop always 4 1 3)
    ∧ decode 0x000000B8 0 = .ok (.br always 1) := ⟨rfl, rfl, rfl, rfl, rfl, rfl, rfl⟩

/-- R96: integer RR, a shift count, SEXT, LITH, CMP, PAND, PSET, SEL, CMPI. -/
theorem decode_integer : decode 0b0000_00111_00010_00101_000001_0000001#32 0 = .ok (.sub always 7 2 5)
    ∧ decode 0b0000_00111_00010_0000_1111111_0000110#32 0 = .ok (.shli always 7 2 127)
    ∧ decode 0b0000_00111_00010_00010_101100_0000001#32 0 = .ok (.sext always 7 2 2)
    ∧ decode 0b0000_00111_00000_00000000011_0001101#32 9 = .ok (.lith always 7 3 9)
    ∧ decode 0b0000_00111_00010_00101_000101_0010000#32 0 = .ok (.cmp always 7 2 5 5)
    ∧ decode 0b0000_00001_00010_00011_001000_0010000#32 0 = .ok (.pand always 1 2 3)
    ∧ decode 0b0000_00001_00000_00001_001100_0010000#32 0 = .ok (.pset always 1 1)
    ∧ decode 0b0000_00111_00010_00101_011110_0010000#32 0 = .ok (.sel always 7 2 5 6)
    ∧ decode 0b0000_00111_00010_10000000000_0010110#32 0 = .ok (.cmpiLeu always 7 2 0x400) :=
  ⟨rfl, rfl, rfl, rfl, rfl, rfl, rfl, rfl, rfl⟩

/-- R97: CSEAL, LDC, PF, FENCE, AMO, CAS, STM, STRED, CNT.ADD. -/
theorem decode_memory : decode 0b0000_00111_00010_00011_000101_0011000#32 0 = .ok (.cseal always 7 2 3)
    ∧ decode 0b0000_00111_00010_11111111110_0100010#32 0 = .ok (.ldc always 7 2 0x7FE)
    ∧ decode 0b0000_00011_00010_00000000100_0100110#32 0 = .ok (.pf always 3 2 4)
    ∧ decode 0b0000_00000_00000_00100_000000_0100111#32 0 = .ok (.fence always 4)
    ∧ decode 0b0000_00111_00010_00101_01_0111_0110000#32 0 = .ok (.amo always 7 2 5 1 7)
    ∧ decode 0b0000_00111_00010_00101_000010_0110001#32 0 = .ok (.cas always 7 2 5 2)
    ∧ decode 0b0000_00111_00010_00101_000_110_0110010#32 0 = .ok (.stm always 7 2 5 6)
    ∧ decode 0b0000_00111_00010_00101_001_100_0110011#32 0 = .ok (.stred always 7 2 5 1 4)
    ∧ decode 0b0000_00000_00010_0_1001_000100_0110100#32 0 = .ok (.cntAdd always 2 9) :=
  ⟨rfl, rfl, rfl, rfl, rfl, rfl, rfl, rfl, rfl⟩

/-- R98: JR, LOOPI with its literal word, SAFEPT with its literal word. -/
theorem decode_control : decode 0b0000_00111_00010_00000_000000_0111010#32 0 = .ok (.jr always 7 2)
    ∧ decode 0b0000_00111_00010_11111111111_0111100#32 0x80000011 = .ok (.loopi always 7 2 0x7FF 1 0x11)
    ∧ decode 0b0000_1000000000000001_0101_0_0111101#32 0xFFFFFFFE = .ok (.safept always 0x8001 5 0xFFFFFFFE) := ⟨rfl, rfl, rfl⟩

/-- R99: VX, VG and VM words. -/
theorem decode_vector : decode 0b0000_0010_0000_0001_01_001_0011_1000000#32 0 = .ok (.vfma always 2 0 1 1 1)
    ∧ decode 0b0000_0010_0001_0_100_01_110_0000_1000001#32 0 = .ok (.vcvt always 2 1 4 1 6)
    ∧ decode 0b0000_0010_0001_0011_00_000_0100_1000001#32 0 = .ok (.mand always 2 1 3)
    ∧ decode 0b0000_0011_00100_00000_00_0011_0_1000010#32 0 = .ok (.vld always 3 4 0 0 3)
    ∧ decode 0b0000_0011_00100_00110_10_0011_1_1000111#32 0xBEEF = .ok (.vstSeed always 3 4 6 2 3 1 0xBEEF)
    ∧ decode 0b0000_00011_00100_01001_00_101_0_1001001#32 0 = .ok (.vins always 3 4 9 5)
    ∧ decode 0b0000_00111_00010_00000_11_000_0_1001011#32 0 = .ok (.vreds always 7 2 3 0)
    ∧ decode 0b0000_0011_0001_0010_01_110_0100_1001101#32 0 = .ok (.vcmp always 3 1 2 1 6 4) :=
  ⟨rfl, rfl, rfl, rfl, rfl, rfl, rfl, rfl⟩

/-- R100: MX.MMA, MX.STAT, MX.STA with its seed, LA.ADDV. -/
theorem decode_matrix : decode 0b0000_10_1_00111_00010_00101_001_1010000#32 0 = .ok (.mxMma always 2 1 7 2 5)
    ∧ decode 0b0000_00_1_00111_00000_00000_110_1010000#32 0 = .ok (.mxStat always 1 7)
    ∧ decode 0b0000_11_0_00111_00000_00101_100_1010001#32 0x1234 = .ok (.mxStaSeed always 3 7 5 0x1234)
    ∧ decode 0b0000_01010_00111_0_1111_000010_1010010#32 0 = .ok (.laAddv always 0xA 7 15) := ⟨rfl, rfl, rfl, rfl⟩

/-- R101: CH.SEND, CH.ACCEPT, BIND, AM with six arguments. -/
theorem decode_channels : decode 0b0000_00000_00111_00010_000010_1011000#32 0 = .ok (.chSend always 7 2)
    ∧ decode 0b0000_00111_00010_00000_000111_1011000#32 0 = .ok (.chAccept always 7 2)
    ∧ decode 0b0000_00111_00010_00101_000001_1011001#32 0 = .ok (.bind always 7 2 5)
    ∧ decode 0b0000_11010_00010_00101_000110_1011010#32 0 = .ok (.am always 26 2 5 6) := ⟨rfl, rfl, rfl, rfl⟩

/-- R102: ENG.W, ENG.WAIT, TLBI, TRAP, MFS, TRC.MARK. -/
theorem decode_system : decode 0b0000_00111_00001_00000000101_1101000#32 0 = .ok (.engW always 7 1 5)
    ∧ decode 0b0000_00000_00001_00000_000001_1101010#32 0 = .ok (.engWait always 1)
    ∧ decode 0b0000_00000_00111_00011_000011_1110000#32 0 = .ok (.tlbi always 7 3)
    ∧ decode 0b0000_00000_00000_11111111111_1110001#32 0 = .ok (.trap always 0x7FF)
    ∧ decode 0b0000_00111_0000_001000000000_1110010#32 0 = .ok (.mfs always 7 0x200)
    ∧ decode 0b0000_00000_00111_11111111111_1110100#32 0 = .ok (.trcMark always 7 0x7FF) := ⟨rfl, rfl, rfl, rfl, rfl, rfl⟩

/-- R86, R88, R95: strict decoding: an unassigned major, a fixed field, a size outside its set, a reserved literal bit, a lone word
of a literal form. -/
theorem decode_is_strict : decode 0x00000009 0 = .error .major ∧ decode 0x0000203A 0 = .error .reserved
    ∧ (∃ e, decode 0b0000_00011_00001_00000000_001_0100001#32 0 = .error e)
    ∧ decode 0x0010003B 0x80100003 = .error .literal ∧ decodeBytes [0x3B, 0x00, 0x10, 0x00] = .error .truncated :=
  ⟨rfl, rfl, ⟨_, rfl⟩, rfl, rfl⟩

/-! States -/

/-- Full service on die 0, with the loaded task on core 0, and an empty flash. -/
def base : State := { State.reset.withFetchWord 32 0 with cur := 0, trust := ⟨none, 0, none⟩ }

/-- A next state of which p holds. -/
def after (o : Host.Outcome State Fault Refusal) (p : State → Bool) : Bool := match o with | .next t => p t | _ => false

/-- The next state is this one. -/
def answers (o : Host.Outcome State Fault Refusal) (u : State) : Bool := after o fun t => decide (t = u)

/-- The instruction traps in place. -/
def traps (i : Instr) (s : State) (c : Cause) (info : W64) : Bool := answers (exec i s) (raise s s.curTid c info false)

/-- The executing task with g registers. -/
def withG (l : List (BitVec 5 × GVal)) (s : State) : State := s.onCur fun x => l.foldl (fun x p => x.setReg p.1 p.2) x

/-- The executing task with 64-bit values in g registers. -/
def regs (l : List (BitVec 5 × W64)) : State := withG (l.map fun p => (p.1, data64 p.2)) base

theorem after_next {o : Host.Outcome State Fault Refusal} {p : State → Bool} (h : after o p = true) : ∃ t, o = .next t ∧ p t = true := by
  cases o with
  | next t => exact ⟨t, rfl, h⟩
  | _ => cases h

theorem sget_all {α : Type} (p : α → Bool) {d : α} (z : p d = true) (m : List (Nat × α)) (h : m.all (fun q => p q.2) = true) (n : Nat) :
    p (sget d m n) = true := by
  induction m with
  | nil => exact z
  | cons e m ih =>
    simp only [List.all_cons, Bool.and_eq_true] at h
    unfold sget
    split
    · exact h.1
    · exact ih h.2

/-- What holds of a core that nothing is listed for, and of every listed one, holds of every core. -/
theorem all_cores {s : State} (p : Core → Bool) (h : s.cores.all (fun q => p q.2) = true) (z : p Core.zero = true) (k : Nat) :
    p (s.core k) = true := by
  unfold State.core
  exact sget_all p z _ h k

/-! Integers and predicates -/

/-- The value of g[3] after an instruction on g[1] = a, g[2] = b, as 64 bits. -/
def r3 (i : Instr) (a b v : W64) : Bool := after (exec i (regs [(1, a), (2, b)])) fun t => t.curTask.r64 3 = v

theorem witness_IntegerDivisionAndShiftResults : (regs []).curTask.guardOk always = true ∧ ((regs []).curTask.guardOk ⟨true, 1⟩ = true) := by
  decide

theorem test_add_wraps : r3 (.add always 3 1 2) (-1) 2 1 = true := by decide
theorem test_sub : r3 (.sub always 3 1 2) 1 2 (-1) = true := by decide
theorem test_mulh_signs : r3 (.mulh always 3 1 2) (-1) 2 (-1) = true ∧ r3 (.mulhu always 3 1 2) (-1) 2 1 = true := by decide
theorem test_div_corners : r3 (.div always 3 1 2) 7 0 (-1) = true ∧ r3 (.div always 3 1 2) (1 <<< 63) (-1) (1 <<< 63) = true
    ∧ r3 (.div always 3 1 2) (-7) 2 (-3) = true ∧ r3 (.rem always 3 1 2) (-7) 2 (-1) = true := by decide
theorem test_divu_corners : r3 (.divu always 3 1 2) 7 0 (-1) = true ∧ r3 (.remu always 3 1 2) 7 0 7 = true := by decide
theorem test_div_zero_flag : after (exec (.div always 3 1 2) (regs [(1, 7)])) (fun t => t.curTask.fflags = flDivzero) = true := by decide
theorem test_min_signed : r3 (.min always 3 1 2) (-1) 1 (-1) = true ∧ r3 (.minu always 3 1 2) (-1) 1 1 = true := by decide
theorem test_shift_counts : r3 (.shl always 3 1 2) 1 64 0 = true ∧ r3 (.sar always 3 1 2) (-8) 200 (-1) = true
    ∧ r3 (.shri always 3 1 4) 0xF0 0 0xF = true ∧ r3 (.sari always 3 1 1) (-8) 0 (-4) = true := by decide

theorem witness_WideLogicBitCountsAndExtensions : base.curTask.guardOk always = true := by decide

theorem test_wide_logic : after (exec (.andi always 3 1 0x7FE) (withG [(1, ⟨BitVec.allOnes 128, .mem⟩)] base))
    (fun t => t.curTask.reg 3 = ⟨BitVec.allOnes 128 - 1, .data⟩) = true := by decide
theorem test_lit_signed : after (exec (.lit always 3 0x80000000) base)
    (fun t => t.curTask.reg 3 = ⟨BitVec.ofInt 128 (-2147483648), .data⟩) = true := by decide
theorem test_lith_quarter : after (exec (.lith always 3 2 0xABCD) (withG [(3, ⟨BitVec.allOnes 128, .mem⟩)] base))
    (fun t => t.curTask.reg 3 = ⟨0xFFFFFFFF_0000ABCD_FFFFFFFF_FFFFFFFF, .data⟩) = true := by decide
theorem test_counts : r3 (.clz always 3 1) 1 0 63 = true ∧ r3 (.ctz always 3 1) 0 0 64 = true ∧ r3 (.popc always 3 1) 0xF1 0 5 = true
    ∧ r3 (.brev always 3 1) 1 0 (1 <<< 63) = true := by decide +kernel
theorem test_extensions : r3 (.sext always 3 1 0) 0x180 0 (-128) = true ∧ r3 (.zext always 3 1 0) 0x180 0 0x80 = true := by decide
theorem test_g0_discards : after (exec (.addi always 0 0 5) base) (fun t => t.curTask.reg 0 = .zero) = true := by decide
theorem test_guarded_off : after (exec (.addi ⟨true, 0⟩ 3 0 5) (regs [(3, 9)]))
    (fun t => t.curTask.r64 3 = 9 && t.curTask.pc = base.curTask.pc + 4) = true := by decide

theorem witness_ComparesAndPredicates : base.curTask.guardOk always = true := by decide

theorem test_cmp : after (exec (.cmp always 2 1 2 2) (regs [(1, -1), (2, 1)])) (fun t => t.curTask.pred 2 = true) = true
    ∧ after (exec (.cmp always 2 1 2 4) (regs [(1, -1), (2, 1)])) (fun t => t.curTask.pred 2 = false) = true := by decide
theorem test_cmpi : after (exec (.cmpiLe always 2 1 0x7FF) (regs [(1, -1)])) (fun t => t.curTask.pred 2 = true) = true := by decide
theorem test_p0_stays : after (exec (.pset always 0 0) base) (fun t => t.curTask.pred 0 = true) = true := by decide
theorem test_pnot : after (exec (.pnot always 3 0) base) (fun t => t.curTask.pred 3 = false) = true := by decide
theorem test_mov_keeps_tag : after (exec (.mov always 3 1) base) (fun t => (t.curTask.reg 3).tag = .mem) = true := by decide
theorem test_sel : after (exec (.sel always 3 1 2 0) (regs [(1, 4), (2, 5)])) (fun t => t.curTask.r64 3 = 4) = true := by decide

/-! Capabilities -/

/-- g1 of the loaded task with a cursor. -/
def cap (a : W64) : GVal := moveCursor (base.curTask.reg 1) a

/-- A capability of every permission over the low half of the scratchpad, with a cursor. -/
def all (a : W64) : GVal := exactCap 0x7F 0 0x80000 a

/-- An entry at 0x40. -/
def sealed : GVal := ⟨capBits (permEx ||| permGlobal) 0 0 0x80000 0x40, .entry⟩

theorem witness_CapabilityMovesReadsAndTests : base.curTask.guardOk always = true ∧ (base.curTask.reg 1).tag = .mem
    ∧ capExp (base.curTask.reg 1).bits < 38 := by decide

theorem test_cadd : after (exec (.cadd always 3 1 2) (withG [(2, data64 16)] base)) (fun t => t.curTask.reg 3 = cap 16) = true
    ∧ after (exec (.cadd always 3 1 2) (withG [(2, data64 (1 <<< 60))] base)) (fun t => (t.curTask.reg 3).tag = .data) = true := by decide
theorem test_cget_len : after (exec (.cget always 3 1 3) base) (fun t => t.curTask.r64 3 = 507904) = true
    ∧ after (exec (.cget always 3 1 5) base) (fun t => t.curTask.r64 3 = 1) = true := by decide
theorem test_cclr : after (exec (.cclr always 3 1) base) (fun t => (t.curTask.reg 3).tag = .data) = true := by decide
theorem test_ctest : after (exec (.ctest always 2 1 3) (withG [(3, data64 507904)] base)) (fun t => t.curTask.pred 2 = true) = true
    ∧ after (exec (.ctest always 2 1 3) (withG [(3, data64 507905)] base)) (fun t => t.curTask.pred 2 = false) = true := by decide

/-- CSETB within and beyond its source, CSEAL at each of its checks. -/
theorem witness_BoundsPermissionsAndSeals : base.curTask.guardOk always = true ∧ (cap 64).tag = .mem ∧ sealed.tag = .entry
    ∧ traps (.csetb always 3 4 2) (withG [(4, cap 64), (2, data64 0x7BFFF)] base) .capBounds 64 = true
    ∧ traps (.csetb always 3 2 2) (withG [(2, data64 5)] base) .capTag 5 = true
    ∧ after (exec (.crestr always 3 4 0) (withG [(4, sealed)] base)) (fun t => t.curTask.reg 3 = ⟨sealed.bits, .data⟩) = true := by decide

theorem test_csetb : after (exec (.csetb always 3 4 2) (withG [(4, cap 64), (2, data64 128)] base))
    (fun t => memBounds (t.curTask.reg 3).bits = (64, 192) && (t.curTask.reg 3).tag = .mem) = true := by decide
theorem test_crestr : after (exec (.crestr always 3 1 2) (withG [(2, data64 permLd.toNat)] base))
    (fun t => capPerm (t.curTask.reg 3).bits = permLd) = true := by decide
theorem test_cseal : after (exec (.cseal always 3 4 1) (withG [(4, all 0x40)] base))
    (fun t => (t.curTask.reg 3).tag = .entry && entryHl (t.curTask.reg 3).bits && !entrySv (t.curTask.reg 3).bits) = true := by decide
theorem test_cseal_checks : traps (.cseal always 3 2 0) base .capTag 0 = true
    ∧ traps (.cseal always 3 1 0) base .capPerm 0 = true
    ∧ traps (.cseal always 3 4 0) (withG [(4, all 0x44)] base) .align 0x44 = true
    ∧ traps (.cseal always 3 4 0) (withG [(4, all 0)] base) .capBounds 0 = true
    ∧ traps (.cseal always 3 4 2) (withG [(4, all 0x40)] (base.onCur fun x => { x with sup := { x.sup with priv := false } })) .priv
        (wordInfo (.cseal always 3 4 2)) = true := by decide

/-! Memory -/

/-- An access resolves to memory at pa. -/
def atMem (r : Eff (State × Target)) (pa : Nat) : Bool := match r with | .ok (_, .mem p) => decide (p = pa) | _ => false

theorem atMem_ok {r : Eff (State × Target)} {pa : Nat} (h : atMem r pa = true) : ∃ s1, r = .ok (s1, .mem pa) := by
  unfold atMem at h
  split at h
  · next s1 p => exact ⟨s1, by rw [of_decide_eq_true h]⟩
  · cases h

/-- A check passes with a state and a value. -/
def isOk {α : Type} (r : Eff (State × α)) : Bool := match r with | .ok _ => true | .error _ => false

theorem isOk_ok {α : Type} {r : Eff (State × α)} (h : isOk r = true) : ∃ s1 v, r = .ok (s1, v) := by
  unfold isOk at h
  split at h
  · next p => exact ⟨p.1, p.2, rfl⟩
  · cases h

theorem isErr_error {α : Type} {r : Eff (State × α)} (h : isOk r = false) : ∃ st, r = .error st := by
  unfold isOk at h
  split at h
  · cases h
  · next e => exact ⟨e, rfl⟩

/-- The loaded task with bytes at offset 64 of its scratchpad, and registers. -/
def mem (bs : List Byte) (l : List (BitVec 5 × GVal)) : State := (withG l base).write (spadPa 0 + 64) bs

theorem witness_AccessChecksAndThePrivateAlias : planeWin 64 = none
    ∧ traps (.ld always 3 2 0 6) base .capTag 0 = true
    ∧ traps (.ld always 3 4 0 6) (withG [(4, cap 507897)] base) .capBounds 507897 = true
    ∧ traps (.st always 3 4 0 6) (withG [(4, exactCap permLd 0 64 0)] base) .capPerm 0 = true
    ∧ planeWin 0xC00000 = none ∧ traps (.ld always 3 4 0 6) (withG [(4, cap 0xC00000)] base) .window 0xC00000 = true
    ∧ traps (.ld always 3 4 0 6) (withG [(4, exactCap permLd 0 0x90000 0x7FFFC)] base) .window 0x7FFFC = true
    ∧ traps (.lda always 3 4 0 6) (withG [(4, cap 4)] base) .align 4 = true
    ∧ traps (.stl always 3 4 0 4) (withG [(4, cap 2)] base) .align 2 = true
    ∧ traps (.ldc always 3 4 0) (withG [(4, cap 8)] base) .align 8 = true
    ∧ (base.curTask.reg 0).tag = .data ∧ traps (.stc always 0 4 0) (withG [(4, cap 8)] base) .align 8 = true := by decide

theorem witness_AccessChecksAndThePrivateAlias_alias : (base.me.locks = [] ∧ base.me.eps = [] ∧ base.dbg.bp = [])
    ∧ atMem (resolve base (base.curTask.reg 1) permLd 507896 8 8 .load false) (spadPa 0 + 507896) = true := by decide

theorem witness_LoadsExtendWhatMemoryHolds : planeWin 64 = none ∧ (∀ k < 2, (mem [0xFE, 0xFF] []).badByte (spadPa 0 + 64 + k) = false)
    ∧ ∃ s1, resolve (mem [0xFE, 0xFF] [(4, cap 64)]) (cap 64) permLd 64 2 2 .load (elemSize 3) = .ok (s1, .mem (spadPa 0 + 64)) :=
  ⟨by decide, by decide, atMem_ok (by decide)⟩

theorem test_ld_signed : after (exec (.ld always 3 4 0 3) (mem [0xFE, 0xFF] [(4, cap 64)]))
    (fun t => t.curTask.reg 3 = data64 (-2)) = true := by decide
theorem test_ld_zero_extends : after (exec (.ld always 3 4 0 2) (mem [0xFE, 0xFF] [(4, cap 64)]))
    (fun t => t.curTask.reg 3 = data64 0xFFFE) = true := by decide
theorem test_lda : after (exec (.lda always 3 4 1 4) (mem [0, 0, 0, 0, 1, 2, 3, 4] [(4, cap 64)]))
    (fun t => t.curTask.reg 3 = data64 0x04030201) = true := by decide

theorem witness_StoresWriteTheLowBytes : planeWin 64 = none ∧ base.curTask.acked false = true ∧ base.sendsGone = true
    ∧ (∃ s1, resolve (mem [] [(4, cap 64)]) (cap 64) permSt 64 4 4 .store (elemSize 4) = .ok (s1, .mem (spadPa 0 + 64)))
    ∧ ∃ s1, resolve (mem [] [(4, cap 64)]) (cap 64) permSt 64 4 4 .store false = .ok (s1, .mem (spadPa 0 + 64)) :=
  ⟨by decide, by decide, by decide, atMem_ok (by decide), atMem_ok (by decide)⟩

theorem test_st_little_endian : after (exec (.st always 3 4 0 4) (withG [(4, cap 64), (3, data64 0x0102030405060708)] base)) (fun t =>
    t.readBytes (spadPa 0 + 63) 6 = [0, 8, 7, 6, 5, 0] && t.curTask.unacked = [⟨4⟩]) = true := by decide
theorem test_st_clears_tag : after (exec (.st always 0 4 0 0) ((withG [(4, cap 64)] base).setTag (spadPa 0 + 64) .mem)) (fun t =>
    t.tagAt (spadPa 0 + 64) = .data) = true := by decide
theorem test_stl : after (exec (.stl always 3 4 0 6) (withG [(4, cap 64), (3, data64 5)] base)) (fun t =>
    t.readNat (spadPa 0 + 64) 8 = 5) = true := by decide

theorem witness_CapabilitiesInMemoryKeepTheirTag : (∀ k < 16, (mem [1] []).badByte (spadPa 0 + 64 + k) = false)
    ∧ (∃ s1, resolve (mem [1] [(4, cap 64)]) (cap 64) permLd 64 16 16 .load false = .ok (s1, .mem (spadPa 0 + 64)))
    ∧ (∃ s1, resolve (mem [1] [(4, cap 64)]) (cap 64) permSt 64 16 16 .store false = .ok (s1, .mem (spadPa 0 + 64)))
    ∧ capPerm (cap 64).bits &&& permStcap ≠ 0 ∧ (64 : Nat) < 0x1000000
    ∧ (capCheck (exactCap permSt 0 64 0) permSt 0 16 = none ∧ planeWin 0 = none ∧ (cap 64).tag ≠ .data)
    ∧ traps (.stc always 1 4 0) (withG [(4, exactCap permSt 0 64 0)] base) .capPerm 0 = true :=
  ⟨by decide, atMem_ok (by decide), atMem_ok (by decide), by decide, by decide, by decide, by decide⟩

theorem test_stc_writes_tag : after (exec (.stc always 1 4 0) (withG [(4, cap 64)] base)) (fun t =>
    t.tagAt (spadPa 0 + 64) = .mem && t.tagAt (spadPa 0 + 80) = .data) = true := by decide
theorem test_ldc_needs_ldcap : after (exec (.ldc always 3 4 0) ((withG [(4, exactCap permLd 64 64 64)] base).setTag (spadPa 0 + 64) .mem)) (fun t =>
    (t.curTask.reg 3).tag = .data) = true := by decide

/-- AMO and CAS on a word, STM and STRED on one and three destinations. -/
theorem witness_AtomicsAndMultiDestinationStores :
    (∀ k < 4, (mem [7] []).badByte (spadPa 0 + 64 + k) = false)
    ∧ (∃ s1, resolve (mem [7] [(4, cap 64)]) (cap 64) permAtom 64 4 4 .atomic false = .ok (s1, .mem (spadPa 0 + 64)))
    ∧ destinations 64 (2 + 16 * 2 ^ 16) = [64, 80, 96]
    ∧ (∃ s1 pas, checkMulti (mem [7] [(4, cap 64)]) (cap 64) permSt 8 .store [64, 80, 96] = .ok (s1, pas))
    ∧ (∃ s1 pas, checkMulti (mem [7] [(4, cap 64)]) (cap 64) permAtom 8 .atomic [64, 80, 96] = .ok (s1, pas))
    ∧ ∃ st, checkMulti (mem [7] [(4, cap 64)]) (cap 64) permSt 8 .store [64, 68] = .error st :=
  ⟨by decide, atMem_ok (by decide), by decide, isOk_ok (by decide), isOk_ok (by decide), isErr_error (by decide)⟩

theorem test_stm : after (exec (.stm always 3 4 5 6) (withG [(4, cap 64), (3, data64 9), (5, data64 (2 + 16 * 2 ^ 16))] base)) (fun t =>
    t.readNat (spadPa 0 + 64) 8 = 9 && t.readNat (spadPa 0 + 72) 8 = 0 && t.readNat (spadPa 0 + 96) 8 = 9
    && t.curTask.unacked.length = 3) = true := by decide
theorem test_stm_checks_first : after (exec (.stm always 3 4 5 6) (withG [(4, cap 64), (3, data64 9), (5, data64 (1 + 4 * 2 ^ 16))] base)) (fun t =>
    t.readNat (spadPa 0 + 64) 8 = 0 && t.curTask.sup.scause = BitVec.ofNat 64 (7 + 256) && t.curTask.sup.sinfo = 68) = true := by decide
theorem test_stred_max : after (exec (.stred always 3 4 0 3 4) (mem [0xFF, 0xFF, 0xFF, 0xFF] [(4, cap 64), (3, data64 1)])) (fun t =>
    t.readNat (spadPa 0 + 64) 4 = 1) = true := by decide

theorem test_amo_returns_old : after (exec (.amo always 3 4 5 0 4) (mem [0xFF, 0xFF, 0xFF, 0xFF] [(4, cap 64), (5, data64 1)])) (fun t =>
    t.curTask.reg 3 = data64 0xFFFFFFFF && t.readNat (spadPa 0 + 64) 4 = 0xFFFFFFFF) = true := by decide
theorem test_amo_add_wraps : after (exec (.amo always 3 4 5 0 0) (mem [0xFF, 0xFF, 0xFF, 0xFF] [(4, cap 64), (5, data64 2)])) (fun t =>
    t.readNat (spadPa 0 + 64) 4 = 1) = true := by decide
theorem test_amo_fadd : after (exec (.amo always 3 4 5 0 9) (mem [0, 0, 0x80, 0x3F] [(4, cap 64), (5, data64 0x3F800000)])) (fun t =>
    t.readNat (spadPa 0 + 64) 4 = 0x40000000) = true := by decide
theorem test_cas_compares : after (exec (.cas always 3 4 5 0) (mem [7] [(4, cap 64), (5, data64 9), (3, data64 0x100000007)])) (fun t =>
    t.readNat (spadPa 0 + 64) 4 = 9 && t.curTask.reg 3 = data64 7) = true
    ∧ after (exec (.cas always 3 4 5 0) (mem [7] [(4, cap 64), (5, data64 9), (3, data64 8)])) (fun t =>
    t.readNat (spadPa 0 + 64) 4 = 7) = true := by decide

/-- A task that owes an acknowledgement of package scope. -/
def owes : State := base.onCur owing

theorem witness_FencesWaitAndPrefetchNeverTraps : base.curTask.acked (decide ((4 : BitVec 5) = 5)) = true ∧ base.sendsGone = true
    ∧ ¬ (owes.curTask.acked (decide ((4 : BitVec 5) = 5)) = true)
    ∧ answers (exec (.fence always 4) owes) owes = true
    ∧ after (exec (.fence always 0) owes) (fun t => t.curTask.pc = owes.curTask.pc + 4) = true := by decide

theorem test_fence_lb : after (exec (.fenceLb always) owes) (fun t => t.curTask.pc = owes.curTask.pc + 4) = true := by decide
theorem test_pf_never_traps : after (exec (.pf always 0 2 0x7FF) base) (fun t => t.curTask.pc = base.curTask.pc + 4
    && t.curTask.sup.scause = 0) = true := by decide

/-! Counter slots (R168 to R172) -/

/-- The loaded task with a count, a target and a phase in counter slot 15. -/
def slot (v t : W32) (ph : Bool) (l : List (BitVec 5 × W64)) : State :=
  (regs l).onCounter 0 15 fun c => { c with count := v, target := t, phase := ph }

/-- The task declares fewer slots. -/
def few : State := base.onCur fun x => { x with khdr := x.khdr &&& ~~~(0x1F#64 <<< 10) }

theorem witness_CounterSlotsAndBarriers : (15 : Nat) < base.curTask.barriers ∧ physSlot base.me base.curTask.job 15 = some 15
    ∧ (base.me.counter 15).trig = none ∧ base.sendsGone = true ∧ (base.me.counter 15).target = 0
    ∧ (∀ p ∈ base.tasks, p.2.wait ≠ some (.counter 15)) := by decide

theorem witness_CounterSlotsAndBarriers_undeclared : few.curTask.barriers ≤ 0 ∧ traps (.cntAdd always 1 0) few .barrierId 0 = true
    ∧ traps (.barArr always 0) few .barrierId 0 = true := by decide

theorem test_cnt_add_restarts : after (exec (.cntAdd always 1 15) (slot 3 5 false [(1, 2)])) (fun t =>
    (t.me.counter 15).count = 0 && (t.me.counter 15).phase) = true := by decide
theorem test_cnt_add_below : after (exec (.cntAdd always 1 15) (slot 3 6 false [(1, 2)])) (fun t =>
    (t.me.counter 15).count = 5 && !(t.me.counter 15).phase) = true := by decide
theorem test_cnt_set : after (exec (.cntSet always 1 15) (slot 3 6 false [(1, 0x0000000700000002)])) (fun t =>
    (t.me.counter 15).count = 2 && (t.me.counter 15).target = 7) = true := by decide
theorem test_cnt_wait_passes : after (exec (.cntWait always 1 15) (slot 0 0 false [(1, 0)])) (fun t =>
    t.curTask.pc = base.curTask.pc + 4) = true := by decide
theorem test_cnt_wait_blocks : after (exec (.cntWait always 1 15) (slot 0 0 false [(1, 1)])) (fun t =>
    (t.task 1).status = .waitMsg && (t.task 1).pc = base.curTask.pc && t.me.slotBase = none) = true := by decide

/-- A task that has arrived at slot 0 in the phase false. -/
def arrived (ph : Bool) : State :=
  (base.onCur fun x => { x with arrived := 1 }).onCounter 0 0 fun c => { c with phase := ph }

theorem witness_CounterSlotsAndBarriers_barriers : (arrived true).curTask.arrived.getLsbD 0 = true
    ∧ (arrived true).curTask.rec_.getLsbD 0 ≠ ((arrived true).me.counter 0).phase
    ∧ (arrived false).curTask.rec_.getLsbD 0 = ((arrived false).me.counter 0).phase ∧ (arrived false).curTask.barWait = false := by decide

theorem test_bar_arr : after (exec (.barArr always 0) base) (fun t => (t.me.counter 0).count = 1 && t.curTask.arrived = 1) = true := by
  decide
theorem test_bar_wait : after (exec (.barWait always 0) (arrived true)) (fun t => t.curTask.arrived = 0
    && t.curTask.pc = base.curTask.pc + 4) = true
    ∧ after (exec (.barWait always 0) (arrived false)) (fun t => (t.task 1).status = .waitMsg) = true := by decide
theorem test_bar_sync_arrives : after (exec (.barSync always 0) base) (fun t => (t.me.counter 0).count = 1
    && (t.task 1).status = .waitMsg) = true := by decide

/-! Control -/

/-- A second base-level task that is ready. -/
def two : State := (base.setTask 2 { loadedTask with gtid := 2, status := .ready }).onCore 0 fun c => { c with readyBase := [2] }

/-- A task with a pre-emption pending. -/
def preempted (s : State) : State := s.onCur fun x => { x with preempt := some 100 }

theorem witness_GuardsEndYieldAndSafepoint : encode (.nop ⟨true, 0⟩) = [0x800001BA#32] ∧ base.curTask.guardOk (guardOf 0x800001BA) = false
    ∧ base.curTask.guardOk always = true ∧ drained owes 1 = false ∧ drained base 1 = true ∧ endExcess base 1 = 0
    ∧ (base.curTask.tower = [] ∧ base.curTask.binder = none ∧ base.curTask.replyTo = none ∧ slotsOf (base.core 0) 1 = []
      ∧ ∀ p ∈ base.tasks, p.2.status ≠ .waitMsg) ∧ base.me.readyBase = [] := by decide

theorem witness_GuardsEndYieldAndSafepoint_switch : two.curTask.high = false ∧ two.curTask.tower = [] ∧ two.curTask.core = two.cur
    ∧ two.me.slotHigh = none ∧ two.me.readyHigh = [] ∧ two.me.towerOf = none ∧ two.me.slotBase = some two.curTid
    ∧ two.me.readyBase = [2] ∧ two.curTid ∉ [(2 : BitVec 48)] := by decide

theorem witness_GuardsEndYieldAndSafepoint_preempted : (preempted base).curTask.preempt ≠ none ∧ drained (preempted base) 1 = true
    ∧ drained (preempted owes) 1 = false ∧ holdsSlot (preempted base) 1 = false
    ∧ holdsSlot (preempted (base.onCore 0 fun c => { c with eps := [(0, { Endp.zero with owner := some 1, status := .bound })] })) 1 = true := by
  decide

theorem test_end_waits : answers (exec (.endTask always) owes) owes = true := by decide
theorem test_end : after (exec (.endTask always) base) (fun t => t.task 1 = Task.none && t.me.slotBase = none) = true := by decide +kernel
theorem test_yield : after (exec (.yield always) two) (fun t => t.me.slotBase = some 2 && t.me.readyBase = [1]
    && (t.task 1).pc = base.curTask.pc + 4) = true := by decide
theorem test_safept_nop : after (exec (.safept always 0 0 0) base) (fun t => t.curTask.pc = base.curTask.pc + 8) = true := by decide
theorem test_safept_stops_in_place : after (exec (.safept always 0 0 0) (preempted base)) (fun t => (t.task 1).status = .stopped
    && (t.task 1).inPlace && t.me.slotBase = none) = true := by decide +kernel
theorem test_safept_saves : after (exec (.safept always 0 0 2)
    { preempted base with spire := { Spire.zero with jobArea := BitVec.ofNat 64 (spadPa 0), jobAreaLen := 4096 } }) (fun t =>
    (t.task 1).status = .ended && (t.job 0).saved.length = 1) = true := by decide +kernel

/-- A capability that may execute. -/
def code (a : W64) : GVal := exactCap permEx 0 0x80000 a

theorem witness_BranchesCallsAndLoops : (code 0x40).tag = .mem ∧ capPerm (code 0x40).bits &&& permEx ≠ 0 ∧ (cursor (code 0x40).bits).toNat % 4 = 0
    ∧ traps (.jr always 0 2) (regs [(2, 0x40)]) .capTag 0x40 = true
    ∧ traps (.jr always 0 1) base .capPerm 0 = true
    ∧ traps (.jr always 0 2) (withG [(2, code 0x42)] base) .align 0x42 = true
    ∧ (base.curTask.r64 2).setWidth 32 = (0 : W32) ∧ ((regs [(2, 1)]).curTask.r64 2).setWidth 32 ≠ (0 : W32) := by decide

theorem test_br : after (exec (.br always 0x1FFFC0) base) (fun t => t.curTask.pc = base.curTask.pc - 0x100) = true := by decide
theorem test_call_links : after (exec (.call always 1) base) (fun t => t.curTask.r64 31 = base.curTask.pc + 4
    && t.curTask.pc = base.curTask.pc + 4) = true := by decide
theorem test_jr : after (exec (.jr always 3 2) (withG [(2, code 0x40)] base)) (fun t => t.curTask.pcc = code 0x40
    && t.curTask.r64 3 = base.curTask.pc + 4) = true := by decide
theorem test_loop_arms : after (exec (.loop always 2 1 3) (regs [(2, 2)])) (fun t =>
    t.curTask.l1 = ⟨2, base.curTask.pc + 8, base.curTask.pc + 20, false, 0, 0⟩) = true := by decide
theorem test_loop_zero_skips : after (exec (.loop always 2 0 3) base) (fun t => t.curTask.pc = base.curTask.pc + 24
    && t.curTask.l0.lc = 0) = true := by decide

/-- The pc at the end of both loops. -/
def loops (n1 n0 : W32) : State := base.onCur fun x =>
  { x with l1 := ⟨n1, 0x100, x.pc, true, 2, 3⟩, l0 := ⟨n0, 0x200, x.pc, false, 0, 0⟩ }

theorem test_loop_end_inner : after (exec (.nop always) (loops 2 2)) (fun t => t.curTask.pc = 0x100 && t.curTask.l1.lc = 1
    && t.curTask.l0.lc = 2 && t.curTask.r64 2 = 3) = true := by decide
theorem test_loop_end_outer : after (exec (.nop ⟨true, 0⟩) (loops 1 2)) (fun t => t.curTask.pc = 0x200 && t.curTask.l1.lc = 0
    && t.curTask.l0.lc = 1 && t.curTask.r64 2 = 3) = true := by decide
theorem test_loop_end_falls_through : after (exec (.nop always) (loops 1 1)) (fun t => t.curTask.pc = base.curTask.pc + 4
    && t.curTask.l0.lc = 0) = true := by decide

/-! Traps, system registers, towers -/

/-- The task with a handler, at task level. -/
def handler : State := base.onCur fun x => { x with tr := { x.tr with tvec := 0x80 }, sup := { x.sup with priv := false } }

/-- The task with 64 bytes of scratchpad and no accumulator. -/
def small : State := base.onCur fun x => { x with spadSize := 64, tiles := [], khdr := x.khdr &&& ~~~(7#64 <<< 7) }

theorem witness_TrapEntryReturnAndBreakpoint : (causeCode .capTag).toNat ∈ [0x04, 0x05] ∧ (handler.curTask.tr.inTrap = false ∧ handler.curTask.tr.tvec ≠ 0)
    ∧ (causeCode .syscall).toNat = 0x17 ∧ base.curTask.sup.inStrap = false
    ∧ (base.onCur fun x => { x with sup := { x.sup with inStrap := true } }).curTask.sup.inStrap = true
    ∧ (base.die (dieOf base.curTask.core)).elogNotify.getLsbD 16 = false
    ∧ base.curTask.sup.priv = true ∧ base.curTask.held = [] ∧ base.curTask.status = .running ∧ (0x18 : Byte) ≠ 0x13
    ∧ routedToTask 0x15 = true ∧ routedToTask 0x18 = false ∧ base.me.debugEn = false := by decide

theorem test_trap_to_handler : after (exec (.ld always 3 2 0 6) handler) (fun t =>
    t.curTask.tr = ⟨true, 0x80, base.curTask.pc, 4, 0⟩ && t.curTask.pc = 0x80 && !t.curTask.sup.priv) = true := by decide
theorem test_trap_syscall : after (exec (.trap always 7) (handler.onCore 0 fun c => { c with stvec := 0x1000 })) (fun t =>
    t.curTask.pc = 0x1000 && t.curTask.sup.scause = 0x17 && t.curTask.sup.sinfo = 7 && t.curTask.sup.priv && t.curTask.sup.inStrap
    && t.curTask.sup.sepc = base.curTask.pc) = true := by decide
theorem test_tret : after (exec (.tret always) (base.onCur fun x => { x with tr := ⟨true, 0, 0x44, 0, 0⟩ })) (fun t =>
    t.curTask.pc = 0x44 && !t.curTask.tr.inTrap) = true := by decide
theorem test_sret : after (exec (.sret always) (base.onCur fun x => { x with sup := { x.sup with sepc := 0x48, inStrap := true } })) (fun t =>
    t.curTask.pc = 0x48 && !t.curTask.sup.priv && !t.curTask.sup.inStrap) = true := by decide
theorem test_double_fault_stops : after (exec (.trap always 7) (base.onCur fun x => { x with sup := { x.sup with inStrap := true } })) (fun t =>
    (t.task 1).status = .stopped) = true := by decide
theorem test_brk : traps (.brk always) base .illegalInstr (wordInfo (.brk always)) = true
    ∧ after (exec (.brk always) (small.onCore 0 fun c => { c with debugEn := true })) (fun t => (t.task 1).status = .stopped) = true := by
  decide +kernel

theorem witness_PrivilegedInstructionsTrapAtTaskLevel : handler.curTask.sup.priv = false ∧ encode (.sret always) = [0x000000F0#32]
    ∧ encode (.mfs always 3 0x100) = [0x01808072#32] ∧ encode (.mts always 3 0x601) = [0x01830_0F3#32] ∧ encode (.tlbi always 1 0) = [0x000401F0#32] := by
  decide

theorem test_priv : traps (.sret always) handler .priv 0xF0 = true ∧ traps (.mfs always 3 0x100) handler .priv 0x01808072 = true := by decide

theorem witness_SystemRegistersReadAndWrite : base.curTask.guardOk always = true ∧ base.me.vecq = [] ∧ base.curTask.sup.priv = true
    ∧ (enqueued base 0 none).me.vecq ≠ [] := by decide

theorem test_mfs_trapctl : after (exec (.mfs always 3 0) (base.onCur fun x => { x with pinned := true, tr := ⟨true, 0, 0, 0, 0⟩ })) (fun t =>
    t.curTask.r64 3 = 9) = true := by decide
theorem test_mfs_coreid : after (exec (.mfs always 3 0xA) { base with chip := 5 }) (fun t => t.curTask.r64 3 = 5) = true := by decide
theorem test_mts_fflags_clears : after (exec (.mts always 2 0x11) ((regs [(2, 3)]).onCur fun x => { x with fflags := 0x1E })) (fun t =>
    t.curTask.fflags = 0x1C) = true := by decide
theorem test_mts_tvec : after (exec (.mts always 2 1) (regs [(2, 0x83)])) (fun t => t.curTask.tr.tvec = 0x80) = true := by decide
theorem test_mts_counter : after (exec (.mts always 2 0x20F) (regs [(2, 0x0000000700000002)])) (fun t =>
    (t.me.counter 15).count = 2 && (t.me.counter 15).target = 7) = true := by decide

/-- Translations of two address spaces in three structures. -/
def tlbs : State :=
  ((base.onCore 5 fun c => { c with dtlb := [⟨0, 0x10000, 0, 0⟩, ⟨1, 0x10000, 0, 0⟩] }).onCluster 2 fun c =>
    { c with l2 := [⟨0, 0x20000, 0, 0⟩], roots := [(0, 0)] }).onDie 1 fun d => { d with dtc := [⟨1, 0, 3, 0⟩] }

theorem witness_TlbiClearsEveryTranslationStructure : tlbs.curTask.guardOk always = true ∧ tlbs.curTask.sup.priv = true ∧ (3 : BitVec 5).toNat ≤ 3 := by
  decide

theorem test_tlbi_page : after (exec (.tlbi always 2 0) (withG [(2, data64 0x1FFFF)] tlbs)) (fun t =>
    (t.core 5).dtlb = [⟨1, 0x10000, 0, 0⟩] && (t.cluster 2).l2.length = 1 && (t.cluster 2).roots.length = 1) = true := by decide
theorem test_tlbi_all : after (exec (.tlbi always 2 3) tlbs) (fun t => (t.core 5).dtlb = [] && (t.cluster 2).l2 = []
    && (t.cluster 2).roots = [] && (t.die 1).dtc = []) = true := by decide

/-! Towers -/

/-- Core 0 composes with its neighbour. -/
def pair : State := withG [(2, data64 3), (3, data64 100)] base

/-- After COMPOSE: the task waits on core 0 for both members. -/
def forming : State := match exec (.compose always 2 2 3) pair with | .next t => t | _ => pair

theorem witness_TowersFormTimeOutAndDissolve : (memberCores 0 3).length = 2 ∧ 0 ∈ memberCores 0 3 ∧ (∀ k ∈ memberCores 0 3, pair.harvested k = false)
    ∧ pair.curTask.tower = [] ∧ pair.curTask.high = false ∧ pair.curTask.pinned = false ∧ pair.curTask.composeTill = none
    ∧ (memberCores 0 1).length < 2 ∧ traps (.compose always 2 4 3) (withG [(4, data64 1)] base) .compose 1 = true
    ∧ (forming.task 1).status = .waitMsg ∧ (composing forming 0).map (·.gtid) = some 1 ∧ (forming.task 1).composeTill = some 100
    ∧ (∀ k ∈ memberCores 0 3, memberDrained forming 1 k = true) ∧ (forming.task 1).drainedAt = some 0 := by decide

/-- The same, with a member that has not drained. -/
def draining : State := forming.onTask 1 fun x => { x with drainedAt := none }

theorem witness_TowersFormTimeOutAndDissolve_draining : (draining.task 1).drainedAt = none ∧ (composing draining 0).map (·.gtid) = some 1
    ∧ composeExcess draining (draining.task 1) (draining.task 1).composeSet = 0 := by decide

theorem test_tower_forms : after (exec (.towerForm 0) (({ forming with timebase := 16 }.onCore 0 fun c => { c with gov := { c.gov with kind := .active } }).onCore 1
    fun c => { c with gov := { c.gov with kind := .active } })) (fun t => (t.task 1).tower = memberCores 0 3 && (t.task 1).answer = some 1)
    = true := by decide
theorem test_compose_timeout : after (exec (.composeTimeout 0) { draining with timebase := 101 }) (fun t =>
    (t.task 1).answer = some 0 && (t.core 0).towerOf = none) = true := by decide
theorem test_release : after (exec (.release always) ((base.onCur fun x => { x with tower := [0, 1] }).onCore 1 fun c => { c with towerOf := some 1 }))
    (fun t => t.curTask.tower = [] && (t.core 1).towerOf = none) = true := by decide

/-! Pinning, marks, held traps -/

/-- A trap held for the task. -/
def heldTrap : State := base.onCur fun x => { x with held := [⟨0x18, 5⟩] }

theorem witness_PinsMarksAndHeldTraps : base.curTask.guardOk always = true ∧ base.me.trc.ctl.getLsbD 3 = false
    ∧ (asyncTask heldTrap 0 = some 1 ∧ heldTrap.curTask.takeable ⟨0x18, 5⟩ = true ∧ (0x18 : Byte) ≠ 0x13) ∧ asyncTask base 0 = none
    ∧ base.backed (spadPa 0) 32 = true := by decide

/-- A handler that has run for its budget. -/
def longHandler : State := ({ base with timebase := 20000 }.onCur fun x => { x with high := true, firstIssue := some 3616 })

theorem witness_PinsMarksAndHeldTraps_budget : longHandler.curTask ∈ longHandler.tasksOn 0 ∧ longHandler.curTask.gtid = 1 ∧ longHandler.curTask.high = true
    ∧ longHandler.curTask.budgetDone = false ∧ 16384 ≤ (longHandler.timebase - 3616).toNat := by decide

theorem test_async_trap : ((takeTrap heldTrap 1 0x18 5 true).task 1).sup.scause = 0x218
    ∧ ((takeTrap heldTrap 1 0x18 5 true).task 1).sup.sinfo = 5 := by decide +kernel
theorem test_handler_budget : after (exec (.handlerBudget 0) longHandler) (fun t => (t.task 1).held = [⟨0x14, 1⟩]) = true := by decide
theorem test_posted_ue : after (exec (.postedAtomicUe 0) (base.onCore 0 fun c => { c with postedUe := [(1, 64)] })) (fun t =>
    (t.task 1).held = [⟨0x15, 64⟩] && (t.core 0).postedUe = []) = true := by decide
theorem test_acknowledgement : after (exec (.writeAcknowledgement 1) owes) (fun t => (t.task 1).unacked = []) = true := by decide
theorem test_gov_pin : after (exec (.govPin always) base) (fun t => t.curTask.pinned) = true
    ∧ after (exec (.govUnpin always) (base.onCur fun x => { x with pinned := true })) (fun t => !t.curTask.pinned) = true := by decide
theorem test_trc_mark : after (exec (.trcMark always 2 3) ((regs [(2, 9)]).onCore 0 fun c =>
    { c with trc := { Ring.zero with ctl := 9, base := BitVec.ofNat 64 (spadPa 0), len := 64 } })) (fun t =>
    t.readNat (spadPa 0 + 16) 8 = 9 && t.readNat (spadPa 0 + 24) 8 = base.curTask.pc.toNat && t.me.trc.wr = 32) = true := by decide +kernel

/-! The vector unit -/

/-- v registers and the low eight lanes active in m0. -/
def vecs (l : List (BitVec 4 × W512)) (m : W64) : State := base.onCur fun x => (l.foldl (fun x p => x.setVec p.1 p.2) x).setMask 0 m

/-- A full vector queue. -/
def fullQueue : State := base.onCore 0 fun c => { c with vecq := List.replicate 16 ⟨1, 0, none, .none⟩ }

theorem witness_VectorArithmeticAndFunctions : base.curTask.guardOk always = true ∧ base.me.vecq.length < 16 ∧ base.domeOnly = false
    ∧ laneFmt 0 = some fp32 ∧ laneFmt 1 = some bf16 ∧ laneFmt 2 = some fp16 ∧ laneFmt 3 = some fp64 ∧ 4 ≤ (7 : BitVec 3).toNat := by decide +kernel

theorem test_vadd_i8_wraps : after (exec (.vadd always 2 0 1 0 4) (vecs [(0, 0xFF7F), (1, 0x0101), (2, 0x550000)] 3)) (fun t =>
    t.curTask.vec 2 = 0x550080) = true := by decide +kernel
theorem test_vfma_fp32 : after (exec (.vfma always 2 0 1 0 0) (vecs [(0, 0x40000000), (1, 0x40400000), (2, 0x3F800000)] 1)) (fun t =>
    t.curTask.vec 2 = 0x40E00000 && t.me.vecq = [⟨1, 0, none, .none⟩]) = true := by decide +kernel
theorem test_vmul_inexact : after (exec (.vmul always 2 0 0 0 1) (vecs [(0, 0x3F81)] 1)) (fun t =>
    t.curTask.vec 2 = 0x3F82 && t.me.vecq = [⟨1, 0x10, none, .none⟩]) = true := by decide +kernel
theorem test_vmin_nan : after (exec (.vmin always 2 0 1 0 0) (vecs [(0, 0x7FC00000), (1, 0x3F800000)] 1)) (fun t =>
    t.curTask.vec 2 = 0x3F800000) = true := by decide +kernel
theorem test_vsub_zero : after (exec (.vsub always 2 0 0 0 2) (vecs [(0, 0x3C00)] 1)) (fun t => t.curTask.vec 2 = 0) = true := by decide +kernel
theorem test_vabs_min : after (exec (.vabs always 2 0 0 5) (vecs [(0, 0x8000)] 1)) (fun t => t.curTask.vec 2 = 0x8000) = true := by decide +kernel
theorem test_vneg_fp : after (exec (.vneg always 2 0 0 1) (vecs [(0, 0x3F80)] 1)) (fun t => t.curTask.vec 2 = 0xBF80) = true := by decide +kernel
theorem test_vmax_signed : after (exec (.vmax always 2 0 1 0 6) (vecs [(0, 0xFFFFFFFF), (1, 1)] 1)) (fun t => t.curTask.vec 2 = 1) = true := by decide +kernel
theorem test_vrcp_zero : after (exec (.vrcp always 2 0 0 0) (vecs [] 1)) (fun t => t.curTask.vec 2 = 0x7F800000
    && t.me.vecq = [⟨1, flDivzero, none, .none⟩]) = true := by decide +kernel
theorem test_vrsq_four : after (exec (.vrsq always 2 0 0 0) (vecs [(0, 0x40800000)] 1)) (fun t => t.curTask.vec 2 = 0x3F000000) = true := by
  decide +kernel
theorem test_vexp2_zero : after (exec (.vexp2 always 2 0 0 0) (vecs [] 1)) (fun t => t.curTask.vec 2 = 0x3F800000) = true := by decide +kernel
theorem test_vlog2_negative : after (exec (.vlog2 always 2 0 0 0) (vecs [(0, 0xBF800000)] 1)) (fun t => t.curTask.vec 2 = 0x7FC00000
    && t.me.vecq = [⟨1, flInvalid, none, .none⟩]) = true := by decide +kernel

theorem witness_VectorSelectionMasksAndMoves : base.curTask.guardOk always = true ∧ base.me.vecq.length < 16
    ∧ ¬ (((3 : BitVec 3) = 3) ∧ base.domeOnly = true) := by decide +kernel

theorem test_vcvt_narrows : after (exec (.vcvt always 2 0 0 0 4) ((vecs [(0, 0x43960000)] 1).onCur fun x => { x with sat := true })) (fun t =>
    t.curTask.vec 2 = 0x7F) = true := by decide +kernel
theorem test_vsel : after (exec (.vsel always 2 0 1 0 4) (vecs [(0, 0x1111), (1, 0x2222)] 1)) (fun t => t.curTask.vec 2 = 0x2211) = true := by
  decide +kernel
theorem test_vshf : after (exec (.vshf always 2 0 1 0 4) (vecs [(0, 0x030201), (1, 0x0002)] 3)) (fun t => t.curTask.vec 2 = 0x0103) = true := by
  decide +kernel
theorem test_viota : after (exec (.viota always 2 0 4) (vecs [] 5)) (fun t => (t.curTask.vec 2).extractLsb' 0 32 = 0x02010100#32) = true := by decide +kernel
theorem test_mnot : after (exec (.mnot always 1 0) base) (fun t => t.curTask.mask 1 = 0) = true := by decide +kernel
theorem test_mand : after (exec (.mand always 1 0 2) (base.onCur fun x => x.setMask 2 6)) (fun t => t.curTask.mask 1 = 6) = true := by decide +kernel
theorem test_vbcst : after (exec (.vbcst always 2 1 0 5) ((vecs [] 2).onCur fun x => x.setR64 1 0x12345)) (fun t =>
    t.curTask.vec 2 = 0x23450000) = true := by decide +kernel
theorem test_vins_wraps_index : after (exec (.vins always 2 1 3 7) ((vecs [] 0).onCur fun x => (x.setR64 1 5).setR64 3 8)) (fun t =>
    t.curTask.vec 2 = 5) = true := by decide +kernel
theorem test_vext_signed : after (exec (.vext always 4 0 3 4) (vecs [(0, 0x80)] 0)) (fun t => t.curTask.reg 4 = data64 (-128)) = true := by
  decide +kernel
theorem test_vcmp : after (exec (.vcmp always 1 0 1 0 4 2) ((vecs [(0, 0x00FF), (1, 0x0000)] 1).onCur fun x => x.setMask 1 (1 <<< 63))) (fun t =>
    t.curTask.mask 1 = 1) = true := by decide +kernel

theorem witness_VectorReductionsRoundOnce_compares : (0 < 8 ∧ 0xFF < 2 ^ 8 ∧ 0 < 2 ^ 8) ∧ vcmpInt 2 8 0xFF 0 = true ∧ vcmpInt 4 8 0xFF 0 = false
    ∧ ((List.range 16).filter fun k => ((vecs [] 0).curTask.mask 0).getLsbD k) = []
    ∧ ((List.range 16).filter fun k => ((vecs [] 5).curTask.mask 0).getLsbD k) = [0, 2] := by decide +kernel

theorem test_vreds : after (exec (.vreds always 4 0 0 4) (vecs [(0, 0x807F01)] 7)) (fun t => t.curTask.reg 4 = data64 0) = true := by decide +kernel
theorem test_vreds_fp_rounds_once : after (exec (.vreds always 4 0 0 0) (vecs [(0, 0xCB800000_3F800000_4B800000)] 7)) (fun t =>
    t.curTask.reg 4 = data64 0x3F800000) = true := by decide +kernel
theorem test_vredm_empty : after (exec (.vredm always 4 0 0 0) (vecs [] 0)) (fun t => t.curTask.reg 4 = data64 0xFF800000) = true
    ∧ after (exec (.vredm always 4 0 0 4) (vecs [] 0)) (fun t => t.curTask.reg 4 = data64 (-128)) = true := by decide +kernel

/-- Two lanes of INT8 elements at 64. -/
def vmem : State := ((vecs [(2, 0x5555), (3, 0x00000003_00000004)] 3).onCur fun x => x.setReg 4 (cap 64)).write (spadPa 0 + 64) [0x11, 0x22, 0x33]

theorem witness_VectorLoadsAndStores : vmem.curTask.guardOk always = true ∧ vmem.me.vecq.length < 16
    ∧ (∃ s1 ps, resolveLanes vmem (cap 64) permLd 8 .load (vldLanes 0 8 0 vmem.curTask (cap 64)) = .ok (s1, ps))
    ∧ (∃ s1 ps, resolveLanes vmem (cap 64) permLd 8 .load (vgathLanes 0 8 3 vmem.curTask (cap 64)) = .ok (s1, ps))
    ∧ (∃ s1 ps, resolveLanes vmem (cap 64) permSt 8 .store (vldLanes 0 8 0 vmem.curTask (cap 64)) = .ok (s1, ps))
    ∧ (∃ st, resolveLanes vmem (cap 507903) permSt 8 .store (vldLanes 0 8 0 vmem.curTask (cap 507903)) = .error st)
    ∧ 8 ≤ rawBits 8 ∧ rawBits 14 = 4 ∧ planeWin 64 = none :=
  ⟨by decide +kernel, by decide +kernel, isOk_ok (by decide +kernel), isOk_ok (by decide +kernel), isOk_ok (by decide +kernel), isErr_error (by decide +kernel), by decide +kernel, by decide +kernel,
    by decide +kernel⟩

theorem test_vld : after (exec (.vld always 2 4 0 0 8) vmem) (fun t => (t.curTask.vec 2).extractLsb' 0 64 = 0x0000002200000011#64) = true := by
  decide +kernel
theorem test_vst_active_lanes : after (exec (.vst always 3 4 0 0 8 0) vmem) (fun t => t.readNat (spadPa 0 + 64) 3 = 0x330304) = true := by
  decide +kernel
theorem test_vst_checks_first : after (exec (.vst always 3 4 0 0 8 0) (withG [(4, cap 507903)] vmem)) (fun t =>
    t.readNat (spadPa 0 + 507903) 1 = 0 && t.curTask.sup.sinfo = 507904) = true := by decide +kernel
theorem test_vgath : after (exec (.vgath always 2 4 3 0 8) ((vecs [(3, 0x00000002_00000000)] 3).onCur (fun x => x.setReg 4 (cap 64))
    |>.write (spadPa 0 + 64) [0x11, 0x22, 0x33])) (fun t => (t.curTask.vec 2).extractLsb' 0 64 = 0x0000003300000011#64) = true := by
  decide +kernel
theorem test_vlds : after (exec (.vlds always 2 4 5 0 8) (withG [(5, data64 2)] vmem)) (fun t =>
    (t.curTask.vec 2).extractLsb' 0 64 = 0x0000003300000011#64) = true := by decide +kernel
theorem test_vscat : after (exec (.vscat always 3 4 2 0 8 0) (vmem.onCur fun x => (x.setVec 2 0x00000002_00000000).setVec 3 0x00000007_00000006))
    (fun t => t.readNat (spadPa 0 + 64) 3 = 0x072206) = true := by decide +kernel

theorem witness_VectorQueueExecutesInOrder : fullQueue.curTask.guardOk always = true ∧ 16 ≤ fullQueue.me.vecq.length
    ∧ answers (exec (.vadd always 0 0 0 0 0) fullQueue) (block fullQueue .vecq) = true
    ∧ (fullQueue.core 0).vecq = ⟨1, 0, none, .none⟩ :: List.replicate 15 ⟨1, 0, none, .none⟩ ∧ (fullQueue.task 1).status ≠ .ended
    ∧ answers (exec (.vectorQueueExecute 0) base) base = true := by decide +kernel

theorem test_vector_queue : after (exec (.vectorQueueExecute 0) (enqueued base flDivzero none)) (fun t =>
    t.me.vecq = [] && t.curTask.fflags = flDivzero) = true := by decide +kernel
theorem test_vector_load_ue : after (exec (.vectorLoadUe 0) (enqueued base 0 (some 64))) (fun t =>
    (t.task 1).held = [⟨0x15, 64⟩] && (t.core 0).vecq = []) = true := by decide +kernel

/-! The matrix unit and long accumulators -/

/-- Elements of a plane window, as FP32 codes. -/
def planes (w : Nat) (l : List (W64 × Nat)) (s : State) : State := l.foldl (fun s p => (storeElem s false .rne w p.1 p.2).1) s

/-- The second worked example of R208: its operands and registers. -/
def example208 : State :=
  withG [(4, cap 0x100000), (5, cap 0x100800), (6, data64 0x0000100000130000)]
    (planes 1 [(0x100000, 0x4B800000), (0x100004, 0x3F800000), (0x100008, 0xCB800000), (0x100400, 0x3F800000),
      (0x100800, 0x3F800000), (0x100804, 0x3F800000), (0x100808, 0x3F800000), (0x100C00, 0x33800000)] base)

/-- The state that an instruction or an event answers. -/
def run (i : Instr) (s : State) : State := match exec i s with | .next t => t | _ => s

def issued208 : State := run (.mxMma always 0 0 4 5 6) example208
def started208 : State := run (.matrixOpStart 0) issued208

theorem witness_MatrixInstructionsCheckAndEnterTheirQueue : base.curTask.guardOk always = true
    ∧ (planeWin 0x100000 = some 1 ∧ planeWin 0 = none)
    ∧ traps (.mxLda always 0 2 6) base .capTag 0 = true
    ∧ traps (.mxLda always 0 4 6) (withG [(4, cap 507904)] base) .capBounds 507904 = true
    ∧ traps (.mxLda always 0 4 6) (withG [(4, exactCap permSt 0 64 0)] base) .capPerm 0 = true
    ∧ traps (.mxLda always 0 4 6) (withG [(4, cap 0)] base) .window 0 = true
    ∧ traps (.mxLda always 0 4 6) (withG [(4, cap 0x100004)] base) .align 0x100004 = true := by decide +kernel

theorem witness_MatrixInstructionsCheckAndEnterTheirQueue_enter : (example208.me.locks = [] ∧ example208.me.eps = [] ∧ example208.dbg.bp = [])
    ∧ (mxCheck13 [⟨cap 0x100000, permLd, 1, 2, 2⟩, ⟨cap 0x100800, permLd, 1, 2, 2⟩] = .ok ())
    ∧ (mxCheck13 [⟨cap 0x100000, permSt, 1, 1, 1⟩] = .ok ())
    ∧ winClass 1 = winClass 1 ∧ (coreQueue example208.me 0).length < 8
    ∧ (0 : Nat) < example208.curTask.barriers ∧ physSlot example208.me example208.curTask.job 0 = some 0 ∧ (example208.me.counter 0).target = 0 :=
  ⟨by decide +kernel, by rfl, by rfl, by decide +kernel, by decide +kernel, by decide +kernel, by decide +kernel, by decide +kernel⟩

theorem test_mx_mma_enters : issued208.me.mx0.length = 1 ∧ issued208.me.locks.length = 2 ∧ issued208.curTask.pc = base.curTask.pc + 4 := by
  decide +kernel
theorem test_mx_wait : answers (exec (.mxWait always 0 0) issued208) (block issued208 (.matrix 0 0)) = true
    ∧ after (exec (.mxWait always 1 0) issued208) (fun t => t.curTask.pc = issued208.curTask.pc + 4) = true := by decide +kernel
theorem test_mx_stat : after (exec (.mxStat always 0 3) issued208) (fun t => t.curTask.r64 3 &&& 0xF = 1) = true := by decide +kernel
theorem test_mx_full : answers (exec (.mxZero always 0) (base.onCore 0 fun c => { c with mx0 := List.replicate 8 (newMxOp base .zero 0 0) }))
    (block (base.onCore 0 fun c => { c with mx0 := List.replicate 8 (newMxOp base .zero 0 0) }) .mxq) = true := by decide +kernel

/-- The one operation of queue 0 of a core is what its unit starts, or performs. -/
def chosen (c : Core) (unit : Bool) : Bool :=
  match coreQueue c 0, mxChoice c with
  | [o], .start q p => !unit && decide (q = 0) && decide (p = o) && decide ((coreQueue c 0).filter (fun e => e.id = o.id) = [o])
  | [o], .unit q p => unit && decide (q = 0) && decide (p = o) && decide ((coreQueue c 0).filter (fun e => e.id = o.id) = [o])
      && decide (o.kind = .mma)
  | _, _ => false

theorem witness_MatrixUnitPerformsOneUnitAtATime : chosen (issued208.core 0) false = true ∧ chosen (started208.core 0) true = true
    ∧ ((started208.core 0).mx0.map fun o => unitBad started208 0 o) = [none]
    ∧ ((started208.core 0).mx0.map fun o => unitBad { started208 with ue := [spadPa 0] } 0 o) = [some 0x100000]
    ∧ (started208.task 1).status ≠ .ended := by decide +kernel

/-- R208: the first granule sums to 1, the second rounds to even: C(0, 0) = 0x3F80_0000. -/
theorem test_mx_example_of_r208 : tileWord ((run (.matrixTripleBoundary 0) started208).core 0) 0 0 = 0x3F800000
    ∧ tileWord ((run (.matrixTripleBoundary 0) (run (.matrixTripleBoundary 0) started208)).core 0) 0 0 = 0x3F800000 := by decide +kernel
theorem test_mx_retires : after (exec (.matrixOpRetire 0) (run (.matrixTripleBoundary 0) (run (.matrixTripleBoundary 0) started208))) (fun t =>
    t.me.mx0 = [] && t.me.locks = [] && t.curTask.retired0 = 1 && t.curTask.fflags = flInexact) = true := by decide +kernel
theorem test_mx_operand_ue : after (exec (.matrixOperandUe 0) { started208 with ue := [spadPa 0] }) (fun t =>
    t.me.mx0 = [] && t.curTask.held.length = 1) = true := by decide +kernel
theorem test_mx_zero : after (exec (.matrixTripleBoundary 0) (run (.matrixOpStart 0) (run (.mxZero always 0)
    (base.onCore 0 fun c => { c with tiles := [(5, 7), (16384, 7)] })))) (fun t => t.me.tiles = [(16384, 7)]) = true := by decide +kernel
theorem test_mx_lda_sta : after (exec (.matrixTripleBoundary 0) (run (.matrixOpStart 0) (run (.mxLda always 0 4 2) example208))) (fun t =>
    tileWord t.me 0 0 = 0x4B800000) = true := by decide +kernel

/-! Long accumulators -/

/-- An accumulator at 64 with a value, and an addend in g5. -/
def acc (n : Nat) (v : W64) : State := (withG [(4, cap 64), (5, data64 v)] base).write (spadPa 0 + 64) (leBytes 80 n)

theorem witness_LongAccumulatorsAddExactly : (acc 0 0).curTask.guardOk always = true ∧ ((acc 0 0).me.locks = [] ∧ (acc 0 0).me.eps = []
    ∧ (acc 0 0).dbg.bp = []) ∧ (cap 64).tag = .mem ∧ capPerm (cap 64).bits &&& (permLd ||| permSt) = permLd ||| permSt
    ∧ (memBounds (cap 64).bits).1 ≤ foldAddr (memBounds (cap 64).bits).2 64 ∧ foldAddr (memBounds (cap 64).bits).2 64 + 80 ≤ (memBounds (cap 64).bits).2
    ∧ (64 + 80 ≤ 0x80000 ∧ 64 % 16 = 0) ∧ ∀ k < 80, (acc 0 0).badByte (spadPa 0 + 64 + k) = false := by decide +kernel

theorem test_la_add_one : after (exec (.laAdd always 10 4 5) (acc 0 0x3F800000)) (fun t => t.readNat (spadPa 0 + 64) 80 = 2 ^ 320) = true := by
  decide +kernel
theorem test_la_add_nan : after (exec (.laAdd always 10 4 5) (acc 5 0x7FC00000)) (fun t => t.readNat (spadPa 0 + 64) 80 = 5
    && t.curTask.fflags = flInvalid) = true := by decide +kernel
theorem test_la_clr : after (exec (.laClr always 4) (acc 5 0)) (fun t => t.readNat (spadPa 0 + 64) 80 = 0) = true := by decide +kernel
theorem test_la_rnd : after (exec (.laRnd always 3 4 10) (acc (3 * 2 ^ 319) 0)) (fun t => t.curTask.r64 3 = 0x3FC00000) = true := by decide +kernel
theorem test_la_mrg : after (exec (.laMrg always 4 4) (acc (2 ^ 639) 0)) (fun t => t.readNat (spadPa 0 + 64) 80 = 0) = true := by decide +kernel
theorem test_la_addv : after (exec (.laAddv always 10 4 0) ((acc 0 0).onCur fun x => x.setVec 0 0x3F800000_3F800000)) (fun t =>
    t.readNat (spadPa 0 + 64) 80 = 2 ^ 321) = true := by decide +kernel

/-! Channels -/

/-- A transition word (R223): direction, kind, type, next state. -/
def tr (dir kind type next : Nat) : W32 := BitVec.ofNat 32 (1 + 2 * dir + 4 * kind + 16 * type + 2 ^ 14 * next)

/-- An image of two states with look-ahead 2: the transitions of state 0, then a close. -/
def image (ws : List W32) : Image := ⟨2, [⟨ws, [65]⟩, ⟨[0x0000000D], [66]⟩]⟩

def here : EpLoc := ⟨⟨0, 0⟩, 0, 0⟩
def there : EpLoc := ⟨⟨0, 4⟩, 3, 0⟩

/-- A CONNECTED endpoint slot of the loaded task. -/
def open_ (ws : List W32) : Endp :=
  { Endp.zero with status := .connected, image := image ws, peer := some there, peerL := 2, owner := some 1 }

/-- The loaded task with an endpoint slot 0, its capability in g4. -/
def ch (e : Endp) (l : List (BitVec 5 × GVal)) : State := withG ((4, endpCap true true true true here) :: l) (base.onEp 0 0 fun _ => e)

/-- The checks of a channel instruction, each at the slot that fails it first. -/
theorem witness_EndpointChecksInOrder : base.curTask.guardOk always = true
    ∧ (endpCap true true true true here).tag = .endp ∧ endpValid (endpCap true true true true here).bits = true
    ∧ endpLoc (endpCap true true true true here).bits = here
    ∧ traps (.chSend always 2 3) base .capTag 0 = true
    ∧ traps (.chSend always 4 3) (ch (open_ []) [(4, endpCap true true true true there)]) .capPerm
        ((endpCap true true true true there).bits.extractLsb' 0 64) = true
    ∧ traps (.chRecv always 3 4) ((ch { open_ [] with owner := some 9 } []).onCur fun x => { x with sup := { x.sup with priv := false } }) .capPerm
        ((endpCap true true true true here).bits.extractLsb' 0 64) = true
    ∧ traps (.chRecv always 3 4) (ch Endp.zero []) .chClosed 0xE0 = true
    ∧ traps (.chSend always 4 3) (ch (open_ []) [(4, endpCap true true true false here)]) .capPerm
        ((endpCap true true true false here).bits.extractLsb' 0 64) = true
    ∧ traps (.chSync always 4) (ch { open_ [] with status := .closed, closeWord := 0x65 } []) .chClosed 0x65 = true
    ∧ traps (.chSync always 4) (ch { open_ [] with status := .closing } []) .chClosed ((open_ []).word 7 0) = true
    ∧ traps (.chSync always 4) (ch { open_ [] with status := .bound } []) .proto 0x80 = true := by decide +kernel

/-- A send of a word, of a label, of a payload, of an endpoint. -/
theorem witness_ChannelSendsFollowTheProtocol : (open_ [tr 0 0 5 1]).find false 0 none = some (tr 0 0 5 1) ∧ tShape (tr 0 0 5 1) = 0 ∧ tLop (tr 0 0 5 1) = 0
    ∧ (open_ []).find false 0 none = none ∧ (open_ []).find false 1 none = none
    ∧ ((open_ [tr 0 0 5 1]).status = .connected ∧ (open_ [tr 0 0 5 1]).permits ≠ 0 ∧ (open_ [tr 0 0 5 1]).peer = some there)
    ∧ { open_ [tr 0 0 5 1] with sent := 2 }.permits = 0
    ∧ (open_ [tr 0 1 6 1]).find false 1 (some 6) = some (tr 0 1 6 1)
    ∧ (open_ [tr 0 2 7 1]).find false 2 none = some (tr 0 2 7 1)
    ∧ traps (.chSend always 4 3) (ch (open_ []) []) .proto 0 = true
    ∧ answers (exec (.chSend always 4 3) (ch { open_ [tr 0 0 5 1] with sent := 2 } [])) (block (ch { open_ [tr 0 0 5 1] with sent := 2 } []) (.chan 0))
        = true := by decide +kernel

/-- A send whose transition carries a granule of INT8 (shape 8). -/
theorem witness_ChannelSendsFollowTheProtocol_payload : tShape (tr 0 0 5 1 + 0x2000) ≠ 0 ∧ tLop (tr 0 0 5 1 + 0x2000) ≠ 1
    ∧ (match payloadLen (open_ [tr 0 0 5 1 + 0x2000]) (tr 0 0 5 1 + 0x2000) (cap 64) with | .ok n => decide (n = 256) | .error _ => false) = true
    ∧ (match check1 (cap 64) permLd 64 256 false with | .ok _ => true | .error _ => false) = true
    ∧ isOk (rangePieces (ch (open_ [tr 0 0 5 1 + 0x2000]) []) 64 256) = true := by decide +kernel

theorem test_ch_send : after (exec (.chSend always 4 3) (ch (open_ [tr 0 0 5 1]) [(3, data64 77)])) (fun t =>
    (t.ep 0 0).sent = 1 && (t.ep 0 0).state = 1
    && t.me.sendq = [⟨⟨⟨0, 0⟩, ⟨0, 4⟩, false, 0, .chan there here none (.data 5 0 77 0 [])⟩, 1, 0, [], none⟩]) = true := by decide +kernel
theorem test_ch_select : after (exec (.chSelect always 4 3) (ch (open_ [tr 0 1 6 1]) [(3, data64 6)])) (fun t =>
    (t.ep 0 0).state = 1 && t.me.sendq.length = 1) = true := by decide +kernel
theorem test_ch_deleg : after (exec (.chDeleg always 4 3) ((ch (open_ [tr 0 2 7 1]) [(3, endpCap true true true true ⟨⟨0, 0⟩, 1, 0⟩)]).onEp 0 1
    fun _ => open_ [])) (fun t => (t.ep 0 1).status = .closing && (t.ep 0 1).forwarding && (t.ep 0 0).state = 1) = true := by decide +kernel

/-- A message in the buffer. -/
def full (b : ChBody) (ws : List W32) : Endp := { open_ ws with buf := [⟨b, 0, false⟩] }

theorem witness_ChannelReceivesConsumeTheHead : ((open_ []).owner = some 1 ∧ (open_ []).status = .connected ∧ (open_ []).inHand = none
    ∧ (open_ []).retDue = [] ∧ (open_ []).link = none ∧ (open_ []).trig = none)
    ∧ (∀ p ∈ base.tasks, p.2.wait ≠ some (.chan 0))
    ∧ (full (.data 5 0 77 0 []) [tr 1 0 5 1]).find true 0 (some 5) = some (tr 1 0 5 1)
    ∧ traps (.chRecv always 3 4) (ch (open_ []) []) .proto 0 = true ∧ traps (.chOffer always 3 4) (ch (open_ []) []) .proto 0 = true
    ∧ traps (.chRecv always 3 4) (ch (full (.label 5 0) [tr 1 0 5 1]) []) .proto 0x500 = true
    ∧ traps (.chRecv always 3 4) (ch (full (.data 6 0 77 0 []) [tr 1 0 5 1]) []) .proto 0x620 = true := by decide +kernel

theorem test_ch_recv : after (exec (.chRecv always 3 4) (ch (full (.data 5 0 77 0 []) [tr 1 0 5 1]) [])) (fun t =>
    t.curTask.reg 3 = data64 77 && (t.ep 0 0).state = 1 && (t.ep 0 0).buf = [] && (t.ep 0 0).consumed = 0
    && (t.ep 0 0).inHand.isSome) = true := by decide +kernel
theorem test_ch_recv_waits : after (exec (.chRecv always 3 4) (ch (open_ [tr 1 0 5 1]) [])) (fun t => (t.task 1).status = .waitMsg) = true := by
  decide +kernel
theorem test_ch_offer : after (exec (.chOffer always 3 4) (ch (full (.label 5 0) [tr 1 1 5 1]) [])) (fun t =>
    t.curTask.reg 3 = data64 5 && (t.ep 0 0).consumed = 1 && t.net.length = 1) = true := by decide +kernel

/-- The bytes of an image of one state named A whose only transition is the close. -/
def imageBytes : List Byte := [0x49, 0x50, 1, 2] ++ List.replicate 12 0 ++ [0x0D, 0, 0, 0] ++ List.replicate 12 0 ++ [65] ++ List.replicate 15 0

def withImage : State := (withG [(4, cap 64)] base).write (spadPa 0 + 64) imageBytes

theorem witness_ChannelEndsOpenAndClose :
    (match parseImage imageBytes with
      | .ok i => decide (i = ⟨2, [⟨[0x0000000D], [65]⟩]⟩ ∧ frameSize i = 0)
      | .error _ => false) = true
    ∧ withImage.readBytes (spadPa 0 + 64) 48 = imageBytes ∧ withImage.curTask.high = false ∧ 0 < withImage.curTask.endpoints
    ∧ (withImage.me.locks = [] ∧ withImage.dbg.bp = [] ∧ withImage.me.eps = [])
    ∧ (∀ k < 48, withImage.badByte (spadPa 0 + 64 + k) = false)
    ∧ (open_ [tr 0 3 0 0]).hasClose = true ∧ (open_ []).syncing = false
    ∧ freeEp (ch (open_ []) []).me = some 1 ∧ heldSlots (ch (open_ []) []).me 1 < base.curTask.endpoints
    ∧ (open_ [tr 1 2 7 1]).find true 2 (some 7) = some (tr 1 2 7 1) := by decide +kernel

theorem test_ch_new : after (exec (.chNew always 3 4 0) withImage) (fun t => (t.ep 0 0).status = .bound
    && t.curTask.reg 3 = endpCap true true true true here) = true := by decide +kernel
theorem test_ch_new_refused : after (exec (.chNew always 3 4 0) (withImage.onCur fun x => { x with high := true })) (fun t =>
    (t.ep 0 0).status = .free && t.curTask.reg 3 = data64 5) = true := by decide +kernel
theorem test_ch_conn : after (exec (.chConn always 4 3) (ch { open_ [] with status := .bound, peer := none } [(3, endpCap true true true true there)]))
    (fun t => (t.task 1).status = .waitMsg && (t.ep 0 0).connTo = some there && (t.core 0).sendq.length = 1) = true := by decide +kernel
theorem test_ch_accept : after (exec (.chAccept always 3 4) (ch (full (.deleg 7 ⟨image [], 1, 0, 0, 5, 5, 6, there, 2, ⟨⟨0, 8⟩, 2, 0⟩⟩) [tr 1 2 7 1]) []))
    (fun t => (t.ep 0 1).status = .connected && (t.ep 0 1).state = 1 && (t.ep 0 1).consumed = 6
    && t.curTask.reg 3 = endpCap true true true true ⟨⟨0, 0⟩, 1, 0⟩) = true := by decide +kernel
theorem test_ch_close : after (exec (.chClose always 4) (ch (open_ [tr 0 3 0 0]) [])) (fun t => (t.ep 0 0).status = .closing
    && t.me.sendq.length = 1) = true := by decide +kernel
theorem test_ch_sync : after (exec (.chSync always 4) (ch (open_ []) [])) (fun t => (t.ep 0 0).status = .resync && (t.ep 0 0).rsSeq = 1
    && (t.task 1).status = .waitMsg) = true := by decide +kernel
theorem test_ch_stat : after (exec (.chStat always 3 4) (ch { open_ [] with state := 3, lastType := 9 } [])) (fun t =>
    (t.curTask.r64 3 &&& 0x3FFF) = 0x91A) = true := by decide +kernel
theorem test_ch_free : after (exec (.chFree always 4) (ch { open_ [] with status := .closed } [])) (fun t => (t.ep 0 0).status = .free
    && (t.ep 0 0).gen = 1) = true := by decide +kernel

/-- A message from the peer's core in flight to core 0. -/
def flying (b : Body) (e : Endp) : State := { ch e [] with net := [⟨⟨0, 4⟩, ⟨0, 0⟩, false, 0, b⟩] }

theorem witness_ChannelMessagesTravelAndArrive : (arrivable (flying (.chan here there none (.data 5 0 77 0 [])) (open_ [])) 0).isSome = true
    ∧ ((open_ []).status = .connected ∧ freeFrames (open_ []) ≠ [] ∧ (open_ []).oldSlot = none ∧ (open_ []).forwarding = false)
    ∧ there.at_.chip = base.chip ∧ (open_ []).owner ≠ some peerOwner ∧ (base.task 1).status ≠ .ended
    ∧ crc16 (leBytes 6 (returnWord 1 0).toNat) = (returnWord 1 0).extractLsb' 48 16 ∧ (returnWord 1 0).extractLsb' 32 16 = there.gen.setWidth 16
    ∧ (((1 : W32) - (returnWord 1 0).setWidth 32).toNat < 2 ^ 31)
    ∧ frameIdle (ch { open_ [] with retDue := [(1, 0, 0)] } []) 0 0 (1, 0, 0) = true := by decide +kernel

theorem test_send_queue : after (exec (.sendQueueInject 0) (run (.chSend always 4 3) (ch (open_ [tr 0 0 5 1]) [(3, data64 77)]))) (fun t =>
    t.me.sendq = [] && t.net = [⟨⟨0, 0⟩, ⟨0, 4⟩, false, 0, .chan there here none (.data 5 0 77 0 [])⟩]) = true := by decide +kernel
theorem test_message_without_a_slot : after (exec (.channelMessageArrival 0) (flying (.chan here there none (.data 5 0 77 0 []))
    { open_ [] with buf := [⟨.data 5 0 1 0 [], 0, false⟩, ⟨.data 5 0 1 0 [], 1, false⟩] })) (fun t =>
    t.net.length = 1 && (t.ep 0 0).status = .resync) = true := by decide +kernel
theorem test_close_arrives : after (exec (.closeMessageArrival 0) (flying (.chan here there none (.close 0x20 7)) (open_ []))) (fun t =>
    (t.ep 0 0).status = .closed && t.net = [⟨⟨0, 0⟩, ⟨0, 4⟩, true, 0, .closeAck there⟩]) = true := by decide +kernel
theorem test_close_ack : after (exec (.closeAckArrival 0) (flying (.closeAck here) { open_ [] with status := .closing })) (fun t =>
    (t.ep 0 0).status = .closed) = true := by decide +kernel
theorem test_failure : after (exec (.failureNotification 0) (flying (.failure here 0x65 7) (open_ []))) (fun t =>
    (t.ep 0 0).status = .closed && (t.ep 0 0).closeWord = 0x65) = true := by decide +kernel
theorem test_slot_return : after (exec (.slotReturn 0) (flying (.slotReturn here (returnWord 1 0)) { open_ [] with sent := 1 })) (fun t =>
    (t.ep 0 0).returned = 1 && (t.ep 0 0).status = .connected) = true := by decide +kernel
theorem test_slot_return_send : after (exec (.slotReturnSend 0 0) (ch { open_ [] with retDue := [(1, 0, 0)] } [])) (fun t =>
    (t.ep 0 0).consumed = 1 && (t.ep 0 0).retDue = [] && t.net.length = 1) = true := by decide +kernel

/-- A slot whose image is the dual of `image [tr 0 0 5 1]`. -/
def dualEnd : Endp := { open_ [] with image := ⟨2, [⟨[tr 1 0 5 1], [65]⟩, ⟨[0x0000000D], [66]⟩]⟩, status := .bound, peer := none }

theorem witness_ChannelsConnectResyncAndMove : dual (image [tr 0 0 5 1]) dualEnd.image = none
    ∧ dual (image [tr 0 0 6 1]) dualEnd.image ≠ none ∧ base.harvested 0 = false ∧ here.at_.chip = base.chip
    ∧ (arrivable (flying (.connect here there (image [])) dualEnd) 0).isSome = true
    ∧ crc32c (leBytes 12 (resyncWordOf { open_ [] with rsSeq := 1 } 0).toNat) = (resyncWordOf { open_ [] with rsSeq := 1 } 0).extractLsb' 96 32
    ∧ (resyncWordOf { open_ [] with rsSeq := 1 } 0).extractLsb' 72 2 = (1 : BitVec 2) ∧ (⟨⟨0, 8⟩, 0, 0⟩ : EpLoc) ≠ here := by decide +kernel

theorem test_connect_arrives : after (exec (.connectArrival 0) (flying (.connect here there (image [tr 0 0 5 1])) dualEnd)) (fun t =>
    (t.ep 0 0).status = .connected && (t.ep 0 0).peer = some there && (t.ep 0 0).peerL = 2
    && t.net = [⟨⟨0, 0⟩, ⟨0, 4⟩, true, 0, .connAns there (.ok 2)⟩]) = true := by decide +kernel
theorem test_connect_mismatch : after (exec (.connectArrival 0) (flying (.connect here there (image [tr 0 0 6 1])) dualEnd)) (fun t =>
    (t.ep 0 0).status = .bound && (t.ep 0 0).connRefused) = true := by decide +kernel
theorem test_connect_answer : after (exec (.connectAnswer 0) (flying (.connAns here (.ok 2)) { dualEnd with connTo := some there })) (fun t =>
    (t.ep 0 0).status = .connected && (t.ep 0 0).peer = some there) = true := by decide +kernel
/-- Both ends of a channel in RESYNC; the peer's has its word already where `w` says so, and the word of the peer is in flight. -/
def resyncing (w : Bool) : State :=
  (flying (.resync here (resyncWordOf { open_ [] with rsSeq := 1 } 0)) { open_ [] with status := .resync, rsSeq := 1 }).onEp 4 3
    fun _ => { open_ [] with status := .resync, rsSeq := 1, peer := some here, rsPeer := if w then some ⟨0, 0, 0⟩ else none }

theorem witness_ChannelsConnectResyncAndMove_both : balanceOf ((resyncing true).ep 4 3) = some (some 0) ∧ balanceOf ((resyncing false).ep 4 3) = none
    ∧ slotLive (resyncing true) there = true := by decide +kernel

theorem test_resync : after (exec (.resyncWord 0) (resyncing true)) (fun t => (t.ep 0 0).status = .connected && (t.ep 4 3).status = .connected)
    = true ∧ after (exec (.resyncWord 0) (resyncing false)) (fun t => (t.ep 0 0).status = .resync) = true := by decide +kernel
theorem test_resync_timeout : after (exec (.resyncTimeout 0 0) { ch { open_ [] with status := .resync } [] with timebase := 65536 }) (fun t =>
    (t.ep 0 0).status = .closed && wordReason (t.ep 0 0).closeWord = 3) = true := by decide +kernel
theorem test_moved : after (exec (.movedArrival 0) (flying (.moved here ⟨⟨0, 8⟩, 0, 0⟩) (open_ []))) (fun t =>
    (t.ep 0 0).peer = some ⟨⟨0, 8⟩, 0, 0⟩ && t.net = [⟨⟨0, 0⟩, ⟨0, 4⟩, false, 0, .mark there ⟨⟨0, 8⟩, 0, 0⟩⟩]) = true := by decide +kernel
theorem test_mark_old : after (exec (.markArrivalOld 0) (flying (.mark here ⟨⟨0, 8⟩, 0, 0⟩) { open_ [] with status := .closing, forwarding := true }))
    (fun t => (t.ep 0 0).status = .free && (t.ep 0 0).gen = 1) = true := by decide +kernel
theorem test_mark_new : after (exec (.markArrivalNew 0) (flying (.mark here here)
    { open_ [] with oldSlot := some there, buf := [⟨.data 5 0 77 0 [], 0, true⟩] })) (fun t => (t.ep 0 0).oldSlot = none && (t.ep 0 0).buf = [⟨.data 5 0 77 0 [], 0, false⟩]) = true := by
  decide +kernel
theorem test_sink_release : after (exec (.replySinkRelease 0) ({ base with net := [⟨⟨0, 4⟩, ⟨0, 0⟩, true, 0, .sinkRelease⟩] }.onCore 0
    fun c => { c with sink := [⟨0, 4⟩, ⟨0, 4⟩] })) (fun t => t.net = [] && (t.core 0).sink = [⟨0, 4⟩]) = true := by decide +kernel

/-- A counter selector of slot 1 in g4, an entry in g5. -/
def binds (n : W64) (v : W32) : State :=
  (withG [(3, data64 n), (4, data64 1), (5, sealed)] base).onCounter 0 1 fun c => { c with count := v }

theorem witness_BindingsArmAndFire : (binds 2 1).curTask.guardOk always = true ∧ (data64 1).tag = .data ∧ (1 : Nat) < base.curTask.barriers
    ∧ physSlot base.me base.curTask.job 1 = some 1 ∧ sealed.tag = .entry ∧ entrySv sealed.bits = false
    ∧ 2 ^ 31 ≤ ((1 : W32) - 2).toNat ∧ ((2 : W32) - 2).toNat < 2 ^ 31
    ∧ traps (.bind always 3 4 6) (binds 2 1) .capTag 0 = true ∧ traps (.bind always 3 1 5) (binds 2 1) .capTag 0 = true := by decide +kernel

theorem test_bind_arms : after (exec (.bind always 3 4 5) (binds 2 1)) (fun t => (t.me.counter 1).fire = 2 && t.net = []
    && (t.me.counter 1).trig.any (fun g => g.armed)) = true := by decide +kernel
theorem test_bind_fires : after (exec (.bind always 3 4 5) (binds 2 2)) (fun t => t.net.length = 1
    && (t.me.counter 1).trig.all (fun g => !g.armed) && (t.job 0).count = (base.job 0).count + 1) = true := by decide +kernel
theorem test_bind_link : after (exec (.bind always 3 4 5) (withG [(4, data64 0x401), (5, sealed)] (ch (open_ []) []))) (fun t =>
    (t.ep 0 0).link = some 1) = true := by decide +kernel
theorem test_unbind : after (exec (.unbind always 4) (run (.bind always 3 4 5) (binds 2 1))) (fun t => (t.me.counter 1).trig = none) = true := by
  decide +kernel

/-! Tasks and the spire -/

/-- A page at 16 MiB that names the scratchpad of core 0, in the shared translations of cluster 0. -/
def paged (s : State) : State :=
  s.onCluster 0 fun c => { c with l2 := [⟨0, 0x1000000, 0, BitVec.ofNat 64 (spadPa 0 + 0x1F)⟩] }

/-- A kernel header of 8 g registers and 64 bytes of scratchpad at offset 0 of that page. -/
def kernel (s : State) : State := (paged s).write (spadPa 0) (leBytes 4 0x00034B48 ++ leBytes 4 0 ++ leBytes 4 64)

/-- Its entry. -/
def entry : GVal := ⟨capBits (permEx ||| permGlobal) 0 0x1000000 0x10000 0x1000040, .entry⟩

/-- A destination: core 4. -/
def dest : W64 := 1 <<< 30

def spawning : State := kernel (withG [(4, data64 dest), (5, entry), (6, data64 9)] base)

theorem witness_TaskCreationAndPools : spawning.curTask.guardOk always = true ∧ entry.tag = .entry ∧ (placeOf dest).1 = ⟨0, 4⟩
    ∧ isGlobal entry = true ∧ entrySv entry.bits = false ∧ entryHl entry.bits = false ∧ (dest.extractLsb' 30 7).toNat ≤ 79
    ∧ spawning.harvested 4 = false ∧ spawning.me.sendq.length < 16 ∧ spawning.me.sink.length < 64
    ∧ spawning.curTask.answer = none ∧ spawning.spire.requests = [] ∧ (spawning.cluster 0).pools = []
    ∧ (∀ k < 64, spawning.badByte (spadPa 0 + k) = false) ∧ (∀ q ∈ spawning.tasks, q.2.wait ≠ some .pool)
    ∧ atMem (resolve spawning (base.curTask.reg 1) permLd 0 64 64 .load false) (spadPa 0) = true := by decide +kernel

theorem test_spawn : after (exec (.spawn always 4 5) spawning) (fun t => (t.job 0).count = 1 && t.me.sendq.length = 1
    && t.me.sendq.all (fun e => e.msg.dst = ⟨0, 4⟩ && (match e.msg.body with | .task d _ => d.entry = entry && d.args = [] | _ => false)))
    = true := by decide +kernel
theorem test_spawn_unreachable : traps (.spawn always 4 5) (withG [(4, data64 (80 <<< 30))] spawning) .busError (80 <<< 30) = true := by
  decide +kernel
theorem test_am : after (exec (.am always 6 4 5 1) spawning) (fun t => t.me.sink = [⟨0, 4⟩]
    && t.me.sendq.all (fun e => match e.msg.body with | .task d _ => d.args = [data64 9] && d.am | _ => false)) = true := by decide +kernel
theorem test_launch_asks : after (exec (.launch always 3 1) spawning) (fun t => t.spire.requests.length = 1 && (t.task 1).status = .waitMsg)
    = true := by decide +kernel
theorem test_launch_answered : after (exec (.launch always 3 1) (spawning.onCur fun x => { x with answer := some 7 })) (fun t =>
    t.curTask.reg 3 = data64 7) = true := by decide +kernel
theorem test_jobq : after (exec (.jobq always 3 2) (base.setJob 0 { Job.none with count := 5, state := .running })) (fun t =>
    t.curTask.reg 3 = data64 5) = true := by decide +kernel

/-- A pool of the job over [0, 10), and one of another job before it. -/
def pooled : State := (regs [(2, 3), (5, 0x0000000A00000000)]).onCluster 0 fun c => { c with pools := [⟨3, 9, 0, 4⟩, ⟨3, 0, 0, 5⟩] }

theorem test_ip_take : after (exec (.ipTake always 4 2) pooled) (fun t => t.curTask.reg 4 = data64 0x0000000500000002
    && (t.cluster 0).pools = [⟨3, 9, 0, 4⟩, ⟨3, 0, 0, 2⟩]) = true := by decide +kernel
theorem test_ip_give : after (exec (.ipGive always 2 5) pooled) (fun t => (t.cluster 0).pools.length = 3) = true := by decide +kernel

/-- A task message for core 4. -/
def arriving : State := { spawning with net := [⟨⟨0, 0⟩, ⟨0, 4⟩, false, 0, .task ⟨entry, [data64 9], 0, 0, ⟨0, 0⟩, 1, false, false, 0, false, none⟩ dest⟩] }

/-- A descriptor at the head of core 0's run queue, no task on it, and the core active. -/
def waiting : State :=
  { kernel base with tasks := [] }.onCore 0 fun c =>
    { c with slotBase := none, groups := [], gov := { c.gov with kind := .active }
             runBase := [.desc ⟨entry, [data64 9], 0, 0, ⟨0, 0⟩, 1, false, false, 0, false, none⟩] }

theorem witness_TasksArriveAreAdmittedAndMove : (arrivable arriving 0).isSome = true ∧ freeRun (arriving.core 4) ≠ 0
    ∧ (waiting.core 0).towerOf = none ∧ waiting.coreUp 0 = true ∧ (waiting.core 0).runHigh = [] ∧ jobHeld waiting 0 = false
    ∧ headerOf waiting 0 0 entry.bits = some (64 <<< 32) ∧ grantFor waiting 0 0 (64 <<< 32) none = some ⟨[], 0, some []⟩
    ∧ (waiting.core 0).gov.kind = .active := by decide +kernel

theorem witness_TasksArriveAreAdmittedAndMove_quiet (k : Nat) : (waiting.core k).slog.ctl.getLsbD 0 = false := by
  have h := all_cores (s := waiting) (fun c => !c.slog.ctl.getLsbD 0) (by decide +kernel) (by decide) k
  simpa using h

/-- The second task has waited for a quantum; the first leaves for die 0, cluster 1. -/
def quantum : State := { two with timebase := 65536 }
def leaving : State := (base.onTask 1 fun x => { x with ship := some (0, 1), status := .waitMsg }).onCore 0 fun c => { c with slotBase := none }

theorem witness_TasksArriveAreAdmittedAndMove_quantum : (quantum.core 0).slotBase = some 1 ∧ (quantum.core 0).readyBase = [2] ∧ (quantum.task 1).status = .running
    ∧ 65536 ≤ (quantum.timebase - (quantum.task 1).since).toNat ∧ (leaving.task 1).ship = some (0, 1) ∧ (leaving.task 1).status = .waitMsg
    ∧ drained leaving 1 = true := by decide +kernel

theorem test_task_arrives : after (exec (.taskMessageArrival 0) arriving) (fun t => t.net = [] && (t.core 4).runBase.length = 1) = true := by
  decide +kernel
theorem test_admission : after (exec (.taskAdmission 0) waiting) (fun t => (t.core 0).runBase = [] && (t.core 0).serial = 1
    && (t.task 0).reg 2 = data64 9 && (t.task 0).pc = 0x1000040 && (t.task 0).status = .running && !(t.task 0).sup.priv
    && memBounds ((t.task 0).reg 1).bits = (0, 64)) = true := by decide +kernel
theorem test_quantum : after (exec (.quantumExpiry 0) quantum) (fun t => t.me.slotBase = some 2 && t.me.readyBase = [1]) = true := by
  decide +kernel
theorem test_ships : after (exec (.migrationShip 1) leaving) (fun t => t.ships.map (·.1) = [1] && t.task 1 = Task.none) = true := by
  decide +kernel
theorem test_ship_arrives : after (exec (.migrationArrival 0) (run (.migrationShip 1) leaving)) (fun t => t.ships = []
    && (t.core 4).runBase.length = 1) = true := by decide +kernel
theorem test_unreachable_chip : after (exec (.podPortDiscard 0) { base with net := [⟨⟨0, 0⟩, ⟨9, 4⟩, false, 0,
    .task ⟨entry, [], 0, 0, ⟨0, 0⟩, 1, false, false, 0, false, none⟩ dest⟩] }) (fun t =>
    t.net = [⟨⟨9, 4⟩, ⟨0, 0⟩, true, 0, .podError ⟨entry, [], 0, 0, ⟨0, 0⟩, 1, false, false, 0, false, none⟩ dest⟩]) = true := by decide +kernel
theorem test_error_reply : after (exec (.podErrorReply 0) { base with net := [⟨⟨9, 4⟩, ⟨0, 0⟩, true, 0,
    .podError ⟨entry, [], 0, 0, ⟨0, 0⟩, 1, false, false, 0, false, none⟩ dest⟩] }) (fun t => (t.task 1).held = [⟨0x18, dest⟩] && t.net = [])
    = true := by decide +kernel

/-- A launch record of one group of two tasks on cluster 0 of die 0. -/
def record : List Byte :=
  leBytes 16 entry.bits.toNat ++ leBytes 16 7 ++ leBytes 4 1 ++ [2, 0, 1, 1] ++ leBytes 10 1 ++ leBytes 6 0 ++ leBytes 8 0

/-- A LAUNCH of it that waits for the spire. -/
def asked : State :=
  { kernel (base.onCur fun x => { x with status := .waitMsg, wait := some .spire }) with
    spire := { Spire.zero with requests := [⟨1, record, .entry, .data, false⟩] } }

/-- Its job, dealing. -/
def dealing : State := run .jobDealStart (run .spireLaunchRequest asked)

/-- Every core reports room. -/
def roomy (s : State) : State := s.onDie 0 fun d => { d with reports := [(0, ⟨64, 8, 4, 16, 64, 507904⟩), (1, ⟨64, 8, 4, 16, 64, 507904⟩)] }

theorem witness_SpireLaunchesDealsAndCommands : record.length = 64 ∧ badFields asked (recFields record) = false ∧ (pendingJobs asked).length < 64
    ∧ (spireHeader asked (launchAsid asked ⟨1, record, .entry, .data, false⟩) entry.bits).isSome = true ∧ (recFields record).flags.getLsbD 1 = false
    ∧ ((run .spireLaunchRequest asked).job 1).state = .pending ∧ (headJob (run .spireLaunchRequest asked)).map (·.1) = some 1
    ∧ (dealing.job 1).state = .dealing ∧ ((dealing.job 1).launch.map fun l => (l.cores dealing, l.perGroup)) = some ([0, 1, 2, 3], 2)
    ∧ (sget Report.zero ((roomy dealing).die 0).reports 0).runq = 64 ∧ base.spire.busy = none := by decide +kernel

theorem test_launch_served : after (exec .spireLaunchRequest asked) (fun t => (t.task 1).answer = some 1 && (t.job 1).count = 2
    && t.spire.requests = []) = true := by decide +kernel
theorem test_launch_refused : after (exec .spireLaunchRequest { asked with spire := { asked.spire with requests := [⟨1, record, .data, .data, false⟩] } })
    (fun t => (t.task 1).answer = some 0x8000000000000001) = true := by decide +kernel
theorem test_group_delivery : after (exec (.groupDelivery 1 0) ((roomy dealing).onCore 0 fun c => { c with gov := { c.gov with kind := .active } }))
    (fun t => (t.core 0).runBase.length = 2 && sget 0 (t.job 1).delivered 0 = 1) = true := by decide +kernel
theorem test_lq_tail_overrun : after (exec (.lqTailWrite 5) { base with spire := { Spire.zero with lqCfg := 1 } }) (fun t =>
    t.spire.lqTail = 5 && t.spire.lqHead = 3 && t.spire.lqCfg.getLsbD 21) = true := by decide +kernel
theorem test_host_record_refused : after (exec .hostLaunchRecord { base with spire :=
    { Spire.zero with lqCfg := 0x100001, lqTail := 1, lqBase := BitVec.ofNat 64 (spadPa 0) } }) (fun t => t.spire.lqHead = 1
    && t.readNat (spadPa 0 + 0x38) 8 = 0x8000000000000001) = true := by decide +kernel
theorem test_no_admission : after (exec (.taskAdmission 0) base) (fun t => decide (t.tasks = base.tasks)) = true := by decide +kernel

/-- Job 0 runs with the loaded task. -/
def job0 (st : JobState) (sent : List Nat) : State := base.setJob 0 { Job.none with state := st, count := 1, sentTo := sent }

theorem witness_SpireLaunchesDealsAndCommands_commands : ((job0 .running []).job 0).state = .running ∧ coresOf (job0 .running []) 0 = [0] ∧ (job0 .running []).spire.busy = none
    ∧ ((job0 .saved []).job 0).saved = [] ∧ ((job0 .saved []).job 0).count ≠ 0
    ∧ (∀ p ∈ (job0 .saved []).tasks, ¬ (p.2.job = 0 ∧ p.2.inPlace = true))
    ∧ (∀ p ∈ (job0 .preempting [0]).tasks, p.2.job = 0 → p.2 = (job0 .preempting [0]).task 1) ∧ holdsSlot (job0 .preempting [0]) 1 = false
    ∧ (preempted base).timebase.toNat < (100 : W64).toNat ∧ saveable (preempted base) 1 = true := by decide +kernel

theorem test_job_preempt : after (exec (.jobPreempt 0) (job0 .running [])) (fun t => (t.job 0).state = .preempting && (t.job 0).sentTo = [0]
    && t.spire.busy = some 0) = true := by decide +kernel
theorem test_command_lost : after (exec (.jobKill 0) { job0 .running [] with spire := { (job0 .running []).spire with busy := some 3 } }) (fun t =>
    t.spire.jobStat.getLsbD 36 && (t.job 0).state = .running) = true := by decide +kernel
theorem test_job_kill : after (exec (.jobKill 0) ({ job0 .running [] with tasks := [] }.onCore 0 fun c => { c with slotBase := none })) (fun t =>
    (t.job 0).state = .done && (t.job 0).count = 0) = true := by decide +kernel
theorem test_preempt_arrives : after (exec (.preemptArrival 0 0) (job0 .preempting [0])) (fun t => (t.task 1).preempt = some 32000
    && (t.job 0).sentTo = []) = true := by decide +kernel
theorem test_preempt_deadline : after (exec (.preemptDeadline 1) { preempted small with timebase := 100 }) (fun t => (t.task 1).status = .stopped
    && (t.task 1).inPlace) = true := by decide +kernel

/-! Engines -/

/-- Two tokens of two routes over two experts, with the table of expert numbers at 64: routes 0 and 2 name expert 1, route 1 expert 0,
route 3 none. -/
def routing : State :=
  (withG [(2, cap 64), (3, cap 128), (4, cap 192), (5, data64 (2 + 2 * 2 ^ 24 + 2 * 2 ^ 29)), (6, cap 256)] base).write (spadPa 0 + 64)
    [1, 0, 0, 0, 1, 0, 5, 0]

/-- Its registers written. -/
def routingSet : State :=
  run (.engW always 6 0 4) (run (.engW always 5 0 3) (run (.engW always 4 0 2) (run (.engW always 3 0 1) (run (.engW always 2 0 0) routing))))

def routingOn : State := run (.engGo always 0) routingSet

theorem witness_EngineInstructions : routing.curTask.guardOk always = true ∧ routing.domeOnly = false ∧ (routing.me.shadow false).owner = none
    ∧ (routing.me.shadow false).ready = false ∧ routing.engine (engineOf 0 false) = none ∧ engInvalid false 0 routingSet.me.sh0.regs = 0
    ∧ (∀ l ∈ routingSet.me.locks, l.matrix = false) ∧ (∀ p ∈ routingSet.cores, (p.2.shadow false).ready = false)
    ∧ (∀ p ∈ routingSet.tasks, p.2.wait ≠ some (.engine false))
    ∧ (∀ f ∈ engFootprints false routingSet.me.sh0.regs, f.2 ≠ 0 →
        capCheck (engReg routingSet.me.sh0.regs f.1) 0 (cursor (engReg routingSet.me.sh0.regs f.1).bits) f.2 = none)
    ∧ traps (.engW always 7 0 0) base .capTag 0 = true
    ∧ traps (.engW always 7 0 1) (withG [(7, exactCap permLd 0 64 0)] base) .capPerm 0 = true
    ∧ traps (.engW always 7 0 0) (withG [(7, cap 0x100000)] base) .window 0x100000 = true := by decide +kernel

theorem test_eng_w : after (exec (.engW always 2 0 0) routing) (fun t => (t.me.sh0.owner = some 1) && engReg t.me.sh0.regs 0 = cap 64) = true := by
  decide +kernel
theorem test_eng_go : (routingOn.engine (.route 0)).isSome = true ∧ routingOn.me.sh0.ready = false ∧ routingOn.me.locks.length = 4 := by
  decide +kernel
theorem test_eng_r : after (exec (.engR always 7 0 0) routingOn) (fun t => t.curTask.r64 7 &&& 0xF = 9) = true := by decide +kernel
theorem test_eng_wait : answers (exec (.engWait always 0) routingOn) (block routingOn (.engine false)) = true
    ∧ after (exec (.engWait always 0) routingSet) (fun t => t.me.sh0.owner = none) = true := by decide +kernel

theorem witness_RoutingSortsTokensByExpert : (match routingOn.engine (.route 0) with
      | some o => !o.faulted && !o.dropped && decide (o.err = 0) && !(rtCfg o.regs).note && decide ((rtCfg o.regs).nexp = 2)
      | none => false) = true
    ∧ (∀ k < 8, routingOn.badByte (spadPa 0 + 64 + k) = false)
    ∧ (∀ a ∈ [spadPa 0 + 64, spadPa 0 + 128, spadPa 0 + 192, spadPa 0 + 256], routingOn.backed a 8 = true) := by decide +kernel

theorem witness_RoutingSortsTokensByExpert_quiet (k : Nat) : (routingOn.core k).slog.ctl.getLsbD 0 = false := by
  have h := all_cores (s := routingOn) (fun c => !c.slog.ctl.getLsbD 0) (by decide +kernel) (by decide) k
  simpa using h

theorem test_routing : after (exec (.engineCompletion (.route 0)) routingOn) (fun t =>
    t.readNat (spadPa 0 + 128) 12 = 0x01000000 + 0 * 2 ^ 32 + 1 * 2 ^ 64
    && t.readNat (spadPa 0 + 192) 8 = 1 + 2 * 2 ^ 32 && t.readNat (spadPa 0 + 256) 8 = 0 + 1 * 2 ^ 32
    && t.me.sh0.done = 1 && t.me.sh0.dropped = 1 && t.engine (.route 0) = none && t.me.locks = []) = true := by decide +kernel

/-- A second core of the cluster with a ready set, and the routing engine idle. -/
def readySet : State := base.onCore 2 fun c => { c with sh0 := { Shadow.zero with ready := true, owner := some 1 } }

/-- A routing operation whose table lies in a page that grants nothing. -/
def faulting : State :=
  run (.engGo always 0) (((run (.engW always 2 0 0) routingSet).onCluster 0 fun c => { c with l2 := [⟨0, 0x1000000, 0, 1⟩] }).onCore 0
    fun c => { c with sh0 := { c.sh0 with regs := sset .zero c.sh0.regs 0 (moveCursor ⟨capBits 3 0 0x1000000 0x10000 0x1000000, .mem⟩ 0x1000000) } })

theorem witness_EnginesSwapFaultAndExchange : readySet.engine (.route 0) = none ∧ nextReady readySet (.route 0) = some 2
    ∧ ((readySet.core 2).shadow (isExch (.route 0))).owner = some 1
    ∧ (routingOn.engine (.route 0)).isSome = true
    ∧ pageParts 0x1000000 8 = [(0x1000000, 8)]
    ∧ (match (faulting.translate ⟨none, some 0, dieOfCluster 0⟩ 0 0x1000000 .load true).2.2 with | .fault _ _ => true | _ => false) = true
    ∧ (faulting.engine (.route 0)).any (fun o => o.todo.isNone && !o.faulted) = true
    ∧ (faulting.die 0).elogNotify.getLsbD 16 = false := by decide +kernel

theorem test_engine_swap : after (exec (.engineSwap (.route 0)) readySet) (fun t => !(t.core 2).sh0.ready && t.lastServed (.route 0) = 2
    && (t.engine (.route 0)).any (fun o => o.core = 2 && o.task = 1)) = true := by decide +kernel
theorem test_engine_stops : after (exec (.engineFault (.route 0)) faulting) (fun t => (t.engine (.route 0)).any (fun o => o.faulted)
    && t.curTask.held = [⟨0x0F, 0x1000000⟩] && t.me.sh0.faddr = 0x1000000) = true := by decide +kernel

/-- A routing operation that has its entries sorted: RT_PERM is written, and RT_CNT lies in that page. -/
def halfway : State :=
  faulting.setEngine (.route 0) ((faulting.engine (.route 0)).map fun o => { o with
    regs := sset .zero (sset .zero o.regs 2 (engReg o.regs 0)) 0 (cap 64), todo := some [⟨1, 0, [7, 7, 7, 7], false⟩, ⟨2, 0, [1, 0, 0, 0], false⟩] })

theorem witness_EnginesSwapFaultAndExchange_kept : (match halfway.engine (.route 0) with
    | some o => (match engPerform halfway (.route 0) o (cutWrites o (o.todo.getD [])) with
      | (_, left, some (.fault a w)) => decide (left.length = 1) && decide (a = 0x1000000) && w
      | _ => false)
    | none => false) = true := by decide +kernel

theorem test_engine_keeps_work : after (exec (.engineFault (.route 0)) halfway) (fun t => t.readNat (spadPa 0 + 128) 4 = 0x07070707
    && (t.engine (.route 0)).any (fun o => o.faulted && o.todo = some [⟨2, 0, [1, 0, 0, 0], false⟩])) = true := by decide +kernel

/-- One exchange operation on die 0 alone in its package exchange: 4 bytes from 64 to 128. -/
def exchange : State :=
  (mem [1, 2, 3, 4] []).setEngine (.exch 0) (some { engOpOf 0 true 0 .zero 1 with
    regs := [(0, cap 64), (1, cap 128), (5, data64 1)], err := 0, joined := false, checked := true, peer := [0], send := [(4, 0)], recv := [(4, 0)] })

theorem witness_EnginesSwapFaultAndExchange_exchange : membersOf exchange (exchOp exchange 0) = some [0] ∧ (exchOp exchange 0).joined = false
    ∧ (match movePairs exchange [0] [(0, 0)] with | (_, none) => true | _ => false) = true
    ∧ (settle (exchOp exchange 0) [1] [2] [1] [1]).err = 3 ∧ (settle (exchOp exchange 0) [1] [1] [1] [2]).err = 4
    ∧ (settle (exchOp exchange 0) [1] [1] [1] [1]).err = 0 := by decide +kernel

theorem test_exchange : after (exec (.exchangeJoin 0 []) exchange) (fun t => t.readNat (spadPa 0 + 128) 4 = 0x04030201
    && (exchOp t 0).joined && (exchOp t 0).prog = 4) = true := by decide +kernel
theorem test_exchange_completes : after (exec (.engineCompletion (.exch 0)) (run (.exchangeJoin 0 []) exchange)) (fun t =>
    t.engine (.exch 0) = none && (t.core 0).sh1.done = 1) = true := by decide +kernel

/-! Page faults, circuits, pod ports -/

/-- A task that waits for the page at 16 MiB. -/
def parked : State := base.onTask 1 fun x => { x with status := .waitMem, fault := some ⟨0, 0x100, 0, 3, 1⟩ }

theorem witness_PageFaultsParkPostAndReplay : (parked.task 1).status = .waitMem ∧ (parked.task 1).fault = some ⟨0, 0x100, 0, 3, 1⟩
    ∧ (parked.cluster 0).fbNotify.getLsbD 16 = false ∧ (parked.cluster 0).pend = []
    ∧ ((parked.onCluster 0 fun c => { c with fbNotify := 0x1F000 }).cluster 0).fbNotify.getLsbD 16 = true
    ∧ (parked.core 0).gov.kind = .unheld
    ∧ ((parked.onCluster 0 fun c => { c with pend := [⟨0, 0x100, 0, 3, 2, 9, 1, false, none⟩] }).cluster 0).pend.length = 1 := by decide +kernel

theorem test_park_posts : after (exec (.pageFaultPark 1) parked) (fun t => (t.cluster 0).parked = [.task 1]
    && (t.cluster 0).pend.map (fun e => (e.vpn, e.acc, e.waiters, e.posted)) = [(0x100, 1, 1, some 0)]
    && (sget FbEntry.free (t.cluster 0).fb 0).low = 0x01C0000000000100) = true := by decide +kernel
theorem test_park_joins : after (exec (.pageFaultPark 1) (parked.onCluster 0 fun c => { c with pend := [⟨0, 0x100, 0, 3, 2, 9, 1, false, none⟩] }))
    (fun t => (t.cluster 0).pend.map (fun e => (e.acc, e.waiters)) = [(3, 2)]) = true := by decide +kernel
theorem test_fb_stat : after (exec (.fbStatWrite 0 1) (run (.pageFaultPark 1) parked)) (fun t => (t.cluster 0).fb = []
    && (t.cluster 0).pend.length = 1) = true := by decide +kernel
theorem test_replay_all : after (exec (.replayAll 0) (run (.pageFaultPark 1) parked)) (fun t => (t.cluster 0).pend = []
    && (t.cluster 0).replaying = [.task 1]) = true := by decide +kernel
/-- Its replay. -/
def replayed : State := run (.replayAll 0) (run (.pageFaultPark 1) parked)

/-- Its turn has come, with a NOP at its pc. -/
def turned : State := { replayNext (replayed.write (spadPa 0 + loadAt) (leBytes 4 0x000001BA)) 0 with agenda := [] }

theorem witness_PageFaultsParkPostAndReplay_rerun : (replayed.cluster 0).replaying = [.task 1] ∧ (replayed.task 1).status = .waitMem
    ∧ ((replayed.onTask 1 fun x => { x with status := .stopped }).task 1).status ≠ .waitMem
    ∧ ((replayed.onCluster 0 fun c => { c with replaying := [.walker 0 3] }).cluster 0).replaying = [.walker 0 3]
    ∧ turned.again = some (.task 1) ∧ turned.power = .on ∧ slotPassed turned = false
    ∧ isOk (fetchInstr (againState turned 1)) = true := by decide +kernel

theorem test_replay_rerun : after (exec (.replayRerun 0) replayed) (fun t => t.again = some (.task 1) && (t.cluster 0).replaying = []
    && (t.task 1).status = .waitMem) = true := by decide +kernel
theorem test_replayed_access_runs : after (step turned) (fun t => t.again.isNone && (t.task 1).pc = base.curTask.pc + 4
    && ((t.task 1).status = .ready || (t.task 1).status = .running)) = true := by decide +kernel

/-- A circuit from die 0 to die 1, and one that leaves the package. -/
def circuit : W64 := 1 + 1 * 2 ^ 20

theorem witness_CircuitsAndPodPorts : circuit.getLsbD 0 = true ∧ circuit.getLsbD 19 = false ∧ base.dieEnabled 0 = true ∧ base.dieEnabled 1 = true
    ∧ (base.fabric.alogCtl.getLsbD 3 = false ∧ base.fabric.down.getLsbD 0 = false ∧ base.harvested 4 = false) := by decide +kernel

theorem test_ct_entry : after (exec (.ctEntryWrite 3 circuit) base) (fun t => sget 0 t.fabric.ct 3 = circuit ||| (1 <<< 32)) = true
    ∧ after (exec (.ctEntryWrite 3 1) base) (fun t => (sget 0 t.fabric.ct 3).extractLsb' 32 2 = 3#2) = true := by decide +kernel
theorem test_circuit_up : after (exec (.circuitUp 3) { run (.ctEntryWrite 3 circuit) base with timebase := 2400 }) (fun t =>
    (sget 0 t.fabric.ct 3).extractLsb' 32 2 = 2#2) = true := by decide +kernel

/-- A slot return from chip 9, and the arrival log on over the scratchpad of core 0. -/
def podMsg : Msg := ⟨⟨9, 0⟩, ⟨0, 4⟩, true, 0x1234, .closeAck there⟩
def logging : State := { base with fabric := { base.fabric with alogCtl := 1, alogBase := BitVec.ofNat 64 (spadPa 0), alogLen := 64 } }

theorem witness_CircuitsAndPodPorts_log : logging.backed (spadPa 0) 32 = true ∧ logging.fabric.alogCtl.getLsbD 0 = true
    ∧ ({ logging with fabric := { logging.fabric with alogWr := 64 } }).fabric.alogLen.toNat < 64 + 32
    ∧ (run (.podArrival 0 podMsg) logging).fabric.logged.length = 1 := by decide +kernel

theorem test_pod_arrival_logs : after (exec (.podArrival 0 podMsg) logging) (fun t => t.net = [podMsg] && t.fabric.records = 1
    && t.readNat (spadPa 0 + 8) 1 = 9 && t.readNat (spadPa 0 + 16) 8 = 0x1234) = true := by decide +kernel
theorem test_alog_enable : after (exec (.alogEnable 1) { base with timebase := 7 }) (fun t => t.fabric.alogCtl.getLsbD 0 && t.fabric.alogOrigin = 7)
    = true := by decide +kernel
theorem test_replay_reinjects : after (exec .replayReinject (run (.alogReplayStart 8) ({ run (.podArrival 0 podMsg) logging with
    fabric := { (run (.podArrival 0 podMsg) logging).fabric with alogEnd := 32 } }))) (fun t => t.fabric.injected = 1) = true := by decide +kernel
theorem test_link_down : after (exec (.linkDown 2) { base with fabric := { base.fabric with replays := [(2, 10)] } }) (fun t =>
    t.fabric.down = 4) = true ∧ answers (exec (.linkDown 2) base) base = true := by decide +kernel
theorem test_link_replay : after (exec (.linkReplay 2) base) (fun t => sget 0 t.fabric.replays 2 = 1) = true := by decide +kernel

/-! Host ports -/

/-- The first byte of die 0's dome. -/
def domePa : Nat := 0x040000000000

/-- Port 0 up and on, queue pair 0x1000 READY at packet 5, region 0 over the start of die 0's dome, open to reads and writes. -/
def ported : State :=
  { base with host :=
      { regLow := [(0, BitVec.ofNat 64 (domePa + 7))], regHigh := [(0, 4096)], ports := [(0, 7), (5, 1)], pausedTill := [],
        qp := [(0, 1), (1, 5)] } }

def request (d : List Byte) : RdmaReq := ⟨0, 0x1000, 5, 0, 64, 4, d, false, false⟩

theorem witness_HostRequestsQueuePairsAndPauses : (ported.hp 0 0).getLsbD 0 = true ∧ (ported.hp 0 5).getLsbD 0 = true
    ∧ (ported.qpWord 0 0).extractLsb' 0 2 = 1 ∧ (ported.hp 0 0).getLsbD 1 = true
    ∧ (sget 0 ported.host.regLow 0).getLsbD 0 = true ∧ (sget 0 ported.host.regHigh 0).extractLsb' 40 24 = (0 : BitVec 24)
    ∧ ported.backed (domePa + 64) 4 = true ∧ ∀ k < 4, ported.badByte (domePa + 64 + k) = false := by decide +kernel

theorem test_rdma_write : after (exec (.rdmaWrite (request [1, 2, 3, 4])) ported) (fun t => t.readNat (domePa + 64) 4 = 0x04030201
    && t.sent = [.rdmaAck 0 0x1000 5] && t.qpWord 0 1 = 6) = true := by decide +kernel
theorem test_rdma_ahead : after (exec (.rdmaWrite { request [1] with psn := 6 }) ported) (fun t => t.sent = [.rdmaNak 0 0x1000 1]
    && t.readNat (domePa + 64) 4 = 0) = true := by decide +kernel
theorem test_rdma_read : after (exec (.rdmaRead (request [])) ported) (fun t => t.sent = [.rdmaData 0 0x1000 5 [0, 0, 0, 0]]) = true := by
  decide +kernel
theorem test_rdma_beyond : after (exec (.rdmaRead { request [] with va := 4095 }) ported) (fun t => t.sent = [.rdmaNak 0 0x1000 3]
    && (t.qpWord 0 0).extractLsb' 0 2 = 2#2) = true := by decide +kernel
theorem test_rdma_unsupported : after (exec (.rdmaUnsupported (request [])) ported) (fun t => t.sent = [.rdmaNak 0 0x1000 2]) = true := by
  decide +kernel
theorem test_rdma_dropped : after (exec (.rdmaWrite { request [] with bad := true }) ported) (fun t => t.hp 0 6 = 1 && t.sent = []) = true := by
  decide +kernel
theorem test_qp_context : after (exec (.qpContextWrite 0 0 0 3) ported) (fun t => (t.qpWord 0 0).extractLsb' 0 2 = 0#2
    && (t.qpWord 0 0).extractLsb' 8 5 = 1#5) = true := by decide +kernel
theorem test_pfc : after (exec (.pfcPause 0 2 4) { base with host := { base.host with ports := [(0, 0x50)] } }) (fun t =>
    sget 0 t.host.pausedTill 2 = 9) = true := by decide +kernel
theorem test_pfc_expiry : after (exec (.pfcPauseExpiry 0) { base with timebase := 9, host := { base.host with pausedTill := [(2, 9), (3, 10)] } })
    (fun t => t.host.pausedTill = [(3, 10)]) = true := by decide +kernel
theorem test_link_change : after (exec (.ethernetLinkChange 1 true) base) (fun t => (t.hp 1 5).getLsbD 0) = true := by decide +kernel

/-! The tile-walk engine -/

/-- A BOUND slot with the standard image of a write peer of INT8 items, and the adoption word that names it. -/
def bound : State := base.onEp 0 0 fun _ => { Endp.zero with status := .bound, image := ⟨1, standardStates 1 8⟩, owner := some 1 }
def adopt (kind fmt : Nat) : W64 := BitVec.ofNat 64 (kind * 2 ^ 8 + fmt * 2 ^ 10)

theorem witness_TileWalkPeersAdoptAndServe : (bound.ep 0 0).status = .bound ∧ (bound.ep 0 0).image.states = standardStates 1 8
    ∧ (bound.cluster 0).peers = [] ∧ ¬ (bound.ep 0 0).image.states = standardStates 0 8 ∧ peerAt bound 0 0 = none := by decide +kernel

theorem test_adopt : after (exec (.twAdopt 0 (adopt 1 8)) bound) (fun t => (t.cluster 0).twErr = 0 && (t.cluster 0).peers.length = 1
    && (t.ep 0 0).owner = some peerOwner) = true := by decide +kernel
theorem test_adopt_errors : after (exec (.twAdopt 0 (adopt 3 8)) bound) (fun t => (t.cluster 0).twErr = 3) = true
    ∧ after (exec (.twAdopt 0 (adopt 1 8)) base) (fun t => (t.cluster 0).twErr = 1) = true
    ∧ after (exec (.twAdopt 0 (adopt 0 8)) bound) (fun t => (t.cluster 0).twErr = 2) = true := by decide +kernel

/-- A read peer over 16 MiB upwards, its page named, that has a request of one INT8 granule at offset 0 in its buffer. -/
def peer : State :=
  (paged base).onCluster 0 (fun c => { c with peers := [⟨0, 0, 0, 8, 0, 0x1000000, 0x10000, 0, 0, 0, 0, false⟩] })
    |>.onEp 0 0 fun _ =>
      { open_ [] with
        image := ⟨1, standardStates 0 8⟩, owner := some peerOwner
        buf := [⟨.data 1 12 0 0 (leBytes 4 1 ++ leBytes 60 0), 0, false⟩] }

theorem witness_TileWalkPeersAdoptAndServe_request : (peerAt peer 0 0).isSome = true ∧ (peer.ep 0 0).status = .connected ∧ (peer.ep 0 0).state = 0
    ∧ ((peer.ep 0 0).find true 0 (some 1)).isSome = true
    ∧ (match itemParts (run (.tilePeerRequest 0 0) peer) 0 ((peerAt (run (.tilePeerRequest 0 0) peer) 0 0).getD ⟨0, 0, 0, 8, 0, 0, 0, 0, 0, 0, 0, false⟩) 0 .load with
        | .ok _ => true | .error _ => false) = true
    ∧ ((run (.tilePeerRequest 0 0) peer).ep 0 0).permits ≠ 0 ∧ ((run (.tilePeerRequest 0 0) peer).ep 0 0).find false 0 none ≠ none
    ∧ (peer.ep 0 0).peer = some there ∧ there.at_.chip = peer.chip ∧ peer.fabric.heldBack = [] := by decide +kernel

theorem test_tile_request : after (exec (.tilePeerRequest 0 0) peer) (fun t => (t.cluster 0).peers.map (fun p => (p.count, p.done, p.busy)) = [(1, 0, true)]
    && (t.ep 0 0).buf = []) = true := by decide +kernel
theorem test_tile_send : after (exec (.tilePeerSend 0 0) (run (.tilePeerRequest 0 0) peer)) (fun t =>
    (t.cluster 0).peers.map (fun p => (p.done, p.busy)) = [(1, false)]
    && t.net.any (fun m => match m.body with | .chan _ _ _ (.data _ 8 _ _ p) => p.length = 256 | _ => false)) = true := by decide +kernel
theorem test_tile_bad_request : after (exec (.tilePeerRequest 0 0) (peer.onEp 0 0 fun e =>
    { e with buf := [⟨.data 1 12 0 0 (leBytes 4 0 ++ leBytes 4 1 ++ leBytes 56 0), 0, false⟩] })) (fun t => (t.ep 0 0).status = .closed) = true := by
  decide +kernel

/-! Debug -/

/-- A small task that was stopped without a record. -/
def halted : State := run (.dbgStop 1) small

theorem witness_DebugCommandsAndTheStateLog : (small.task 1).ship = none ∧ small.ships = [] ∧ (small.task 1).status = .running
    ∧ (small.dbg.area.toNat + small.dbg.next.toNat) % 16 = 0 ∧ (halted.task 1).status = .stopped ∧ (halted.task 1).inPlace = false
    ∧ (halted.task 1).stopRec = none ∧ (halted.job 0).state ≠ .preempting ∧ (halted.job 0).state ≠ .saved := by decide +kernel

theorem witness_DebugCommandsAndTheStateLog_quiet (k : Nat) : (small.core k).slog.ctl.getLsbD 0 = false ∧ (small.core k).trc.ctl.getLsbD 5 = false := by
  have h := all_cores (s := small) (fun c => !c.slog.ctl.getLsbD 0 && !c.trc.ctl.getLsbD 5) (by decide +kernel) (by decide) k
  simpa using h

theorem test_dbg_stop : after (exec (.dbgStop 1) small) (fun t => (t.task 1).status = .stopped && t.dbg.noarea && t.me.slotBase = none) = true := by
  decide +kernel
theorem test_dbg_resume : after (exec (.dbgResume 1) halted) (fun t => (t.task 1).status = .running || (t.task 1).status = .ready) = true := by
  decide +kernel
theorem test_dbg_step : after (exec (.dbgStep 1) halted) (fun t => (t.task 1).stepping) = true
    ∧ answers (exec (.dbgStep 1) small) small = true ∧ answers (exec (.dbgCmdNone 1) halted) halted = true := by decide +kernel
theorem test_slog : after (exec (.slogEnable 0) { base with timebase := 9 }) (fun t => t.me.slog.ctl = 1 && t.me.slog.t0 = 9) = true
    ∧ after (exec (.slogDisable 0) (base.onCore 0 fun c => { c with slog := { c.slog with ctl := 3 } })) (fun t => t.me.slog.ctl = 2) = true := by
  decide +kernel

/-! The governor's slots, boot, attestation, thermal events -/

/-- Slot 1 has begun; 60 starts were used. -/
def slotDueNow : State := { base with timebase := 1600, gov := { Gov.zero with rise := 60, fall := 250 } }

theorem witness_RampSlotsOpenWithTheirBudgets : slotDueNow.gov.slot < slotDueNow.timebase.toNat / 1600 ∧ base.timebase.toNat / 1600 ≤ base.gov.slot
    ∧ (∀ p ∈ slotDueNow.cores, (slotDueNow.core p.1).towerOf = none ∧ p.2.gov.kind ≠ .ballast) ∧ slotDueNow.gov.order = []
    ∧ ((slotDueNow.onCore 0 fun c => { c with gov := { c.gov with kind := .ballast, q := 3 } }).core 0).gov.kind = .ballast := by decide +kernel

theorem test_ramp_slot : after (exec .rampSlotBoundary slotDueNow) (fun t => t.gov.slot = 1 && t.gov.rise = 10 && t.gov.fall = 50) = true
    ∧ answers (exec .rampSlotBoundary base) base = true := by decide +kernel
theorem test_ballast_tapers : after (exec .rampSlotBoundary ({ slotDueNow with gov := { slotDueNow.gov with order := [0] } }.onCore 0 fun c =>
    { c with gov := { c.gov with kind := .ballast, q := 3 } })) (fun t => t.gov.order = [] && (t.core 0).gov.kind = .unheld && t.gov.fall = 53) = true := by
  decide +kernel

/-- What verifies is a free value: with no image nothing does, and with one that verifies the hypotheses of the boot rows hold. -/
theorem witness_BootPhasesAndRecovery (img : List Byte) (h : Config.imageVerifies img = true) :
    (∃ s : State, s.trust.image = some img ∧ (s.trust.floor.getD Config.rollback).toNat ≤ (Config.imageVersion img).toNat ∧ s.power = .on)
    ∧ (∀ i, base.trust.image = some i → ¬ (Config.imageVerifies i = true)) ∧ base.power ≠ .off ∧ Config.imageVerifies img = true :=
  ⟨⟨{ base with trust := ⟨some img, 0, some 0⟩ }, rfl, Nat.zero_le _, rfl⟩, fun i hi => absurd (hi : none = some i) nofun, by decide, h⟩

/-- Die 0 trains. -/
def trains : State := { base.onDie 0 (fun d => { d with bootPhase := 3, pcmap := [(0, 1)] }) with enabled := 1, timebase := 1600 }

theorem witness_BootPhasesAndRecovery_training : (∀ d < 8, trains.dieEnabled d = true → (trains.die d).bootPhase = 3 ∧ (trains.die d).trained = false)
    ∧ (∀ d < 8, (run .hbmTrainingDone trains).dieEnabled d = true → ((run .hbmTrainingDone trains).die d).bootPhase = 3
      ∧ ((run .hbmTrainingDone trains).die d).trained = true) ∧ trains.gov.slot < trains.timebase.toNat / 1600 := by decide +kernel

theorem test_recovery_without_image : after (exec .powerOnReset base) (fun t => (t.die 0).bootPhase = 5 && (t.die 7).bootPhase = 5) = true := by
  decide +kernel
theorem test_power_loss : after (exec .powerLoss base) (fun t => t.power = .off) = true := by decide
theorem test_package_reset_off : answers (exec .packageReset { base with power := .off }) { base with power := .off } = true := by decide +kernel
theorem test_phase_1_waits : answers (exec (.bootPhaseAdvance 1) { base.onDie 1 fun d => { d with bootPhase := 1 } with enabled := 7 })
    { base.onDie 1 fun d => { d with bootPhase := 1 } with enabled := 7 } = true := by decide +kernel
theorem test_training : after (exec .hbmTrainingDone trains) (fun t => (t.die 0).hbmTop = BitVec.ofNat 38 (127 * 2 ^ 30) && (t.die 0).hbmFail) = true := by
  decide +kernel
theorem test_full_service : after (exec .fullServiceStart (run .hbmTrainingDone trains)) (fun t => (t.die 0).bootPhase = 4) = true := by
  decide +kernel
theorem test_recovery_refuses : answers (exec (.recoveryImage []) base) base = true := by decide +kernel

/-- A well-formed report request, and one of another version. -/
def report : List Byte := leBytes 4 0x4B574154 ++ leBytes 2 1 ++ [2, 0] ++ leBytes 4 32 ++ leBytes 4 0 ++ leBytes 32 9

theorem witness_AttestationAnswersAndRefuses : report.length = 48 ∧ leNat (report.take 4) = 0x4B574154 ∧ attestWell report 2 32 = true
    ∧ attestWell (leBytes 4 0x4B574154 ++ leBytes 2 1 ++ [1, 0] ++ leBytes 8 0) 1 0 = true ∧ attestWell [] 1 0 = false
    ∧ base.trust.index.toNat + 8 ≤ 2 ^ 20 ∧ (base.die 0).bootPhase ≠ 5 := by decide +kernel

theorem test_attest_malformed : after (exec (.attestReportRequest [[1, 2]]) base) (fun t => t.sent.length = 1 && t.trust.index = 0) = true := by
  decide +kernel
theorem test_attest_in_recovery : after (exec (.attestReportRequest [report]) (base.onDie 0 fun d => { d with bootPhase := 5 })) (fun t =>
    t.sent = [.attest (leBytes 4 0x4B574154 ++ leBytes 2 1 ++ [2, 4] ++ leBytes 8 0)]) = true := by decide +kernel
theorem test_attest_exhausted : after (exec (.attestReportRequest [report]) { base with trust := ⟨none, 0x100000, none⟩ }) (fun t =>
    t.trust.index = 0x100000 && t.sent = [.attest (leBytes 4 0x4B574154 ++ leBytes 2 1 ++ [2, 2] ++ leBytes 8 0)]) = true := by decide +kernel

theorem witness_ThermalActions : base.dieEnabled 0 = true ∧ ({ base with enabled := 1 }.dieEnabled 7 = false) ∧ base.gov.before = none
    ∧ (base.die 0).elogNotify.getLsbD 16 = false := by decide +kernel

theorem test_throttle : after (exec (.thermalThrottle 0) base) (fun t => t.gov.newCfg.any (fun w => w.extractLsb' 0 18 = 0x140A#18)
    && t.gov.before.isSome) = true := by decide +kernel
theorem test_restore : after (exec .thermalRestore { base with gov := { base.gov with before := some (base.gov.cfg, 0), newCfg := some 0x140A } }) (fun t =>
    t.gov.newCfg.any (fun w => w.extractLsb' 0 9 = 60#9) && t.gov.before = none) = true := by decide +kernel
theorem test_clock_stop : after (exec (.thermalClockStop 0) base) (fun t => t.power = .clockStopped) = true := by decide +kernel

/-! Control registers, steps -/

theorem witness_ControlRegistersKeepTheirAccess : base.dieEnabled 0 = true ∧ (base.die 0).bootPhase ≠ 0 ∧ (base.die 0).bootPhase ≠ 5
    ∧ ctlRead base 0 0x100000 = some 0 ∧ ctlRead base 0 (0x400008 + 0x100 * 79) = some 0 ∧ ctlRead base 0 0x100068 = none := by decide +kernel

theorem test_control_write : after (exec (.controlRegisterWrite false 0 0x100000 8 (-1)) base) (fun t => ctlRead t 0 0x100000 = some 0x3FFFFFFFFFC0)
    = true := by decide +kernel
theorem test_control_half : after (exec (.controlRegisterWrite false 0 0x100024 4 (-1)) base) (fun t =>
    ctlRead t 0 0x100020 = some 0xFFFFF00000000) = true := by decide +kernel
theorem test_control_clamps : after (exec (.controlRegisterWrite false 0 0x700000 8 0) base) (fun t =>
    ctlRead t 0 0x700000 = some (10 + 10 * 2 ^ 9 + 100 * 2 ^ 20)) = true := by decide +kernel

theorem witness_CommandRegistersActAsTheirCommands : (base.dieEnabled 0 = true ∧ (base.die 0).bootPhase ≠ 0 ∧ (base.die 0).bootPhase ≠ 5)
    ∧ ¬ (base.dieEnabled 0 = true ∧ (base.die 1).bootPhase ≠ 0) ∧ (0x700000 : Nat) / 0x100000 ≠ 6 := by decide +kernel

theorem test_control_command : after (exec (.controlRegisterWrite false 0 0x100018 8 5) base) (fun t => t.spire.lqTail = 5) = true
    ∧ answers (exec (.controlRegisterWrite true 0 0x100018 8 5) base) base = true
    ∧ answers (exec (.controlRegisterWrite false 1 0x100018 8 5) base) base = true := by decide +kernel

/-- The state whose next step runs a word: 0x00A2_2001 is ADD g1, g8, g17. -/
def loaded (w : Nat) : State := { State.reset.withFetchWord 32 w with trust := ⟨none, 0, none⟩ }

theorem witness_StepRunsTheDecodedInstruction : (loaded 0x00A22001).power = .on ∧ (loaded 0x00A22001).agenda = [.issue 0]
    ∧ ((loaded 0x00A22001).task 1).held = [] ∧ ((loaded 0x00A22001).task 1).pc.toNat % 4 = 0
    ∧ capCheck ((loaded 0x00A22001).task 1).pcc permEx ((loaded 0x00A22001).task 1).pc 4 = none
    ∧ decode 0x00A22001 0 = .ok (.add always 1 8 17) ∧ illegalReg ((loaded 0x00A22001).task 1) (.add always 1 8 17) = none :=
  ⟨by decide +kernel, by decide +kernel, by decide +kernel, by decide +kernel, by decide +kernel, rfl, by decide +kernel⟩

theorem test_step_addi : after (step (loaded 0x018FFE02)) (fun t => (t.task 1).r64 3 = -4) = true := by decide +kernel
theorem test_step_power_off : (match step { base with power := .off } with | .fault .powerOff => true | _ => false) = true := by decide +kernel

/-- R113: the well-formed instructions that have words, and the events, which have none. -/
theorem witness_EveryInstructionDecodesFromItsWords : (Instr.safept always 0xFFFF 15 0xFFFFFFFF).wf = true
    ∧ encode (.safept always 0xFFFF 15 0xFFFFFFFF) ≠ [] ∧ encode (.powerOnReset) = [] := by decide

theorem witness_EveryDecodedWordIsAnEncoding : decode 0x0010003B 0x80000003 = .ok (.loop always 4 1 3)
    ∧ encode (.loop always 4 1 3) = [0x0010003B, 0x80000003] := ⟨rfl, by decide⟩

/-- A state with bytes in memory that a step changes. -/
theorem witness_EveryStepKeepsMemoryCanonical : Memory.wf (loaded 0x01840721).mem = true
    ∧ after (step (loaded 0x01840721)) (fun t => Memory.wf t.mem) = true := by decide +kernel

/-! Further states that meet the hypotheses of clauses -/

/-- An uncorrectable codeword at 64, and rd = g0 or not. -/
def uncorrectable : State := { withG [(4, cap 64)] base with ue := [spadPa 0 + 64] }

theorem witness_AtomicsAndMultiDestinationStores_uncorrectable : uncorrectable.badByte (spadPa 0 + 64) = true
    ∧ (∃ s1, resolve uncorrectable (cap 64) permAtom 64 4 4 .atomic false = .ok (s1, .mem (spadPa 0 + 64))) :=
  ⟨by decide, atMem_ok (by decide)⟩

theorem test_amo_posts_its_error : after (exec (.amo always 0 4 5 0 0) uncorrectable) (fun t => t.curTask.pc = base.curTask.pc + 4
    && t.me.postedUe = [(1, 64)] && t.readNat (spadPa 0 + 64) 4 = 0) = true
    ∧ after (exec (.amo always 3 4 5 0 0) uncorrectable) (fun t => t.curTask.sup.scause = 0x115 && t.me.postedUe = []) = true := by decide

theorem witness_LoadsExtendWhatMemoryHolds_loop : base.me.loop = [] := by decide

/-- A task whose kept root names an empty table: the page at 16 MiB is not resident. -/
def missing : State := (withG [(4, ⟨capBits 3 0 0x1000000 0x10000 0x1000000, .mem⟩)] base).onCluster 0 fun c =>
  { c with roots := [(0, BitVec.ofNat 64 (spadPa 0))], roots1 := [(0, BitVec.ofNat 64 (spadPa 0))] }

theorem missing_root (core : Option (Nat × Bool)) : missing.rootsAt ⟨core, some 0, 0⟩ = [(0, BitVec.ofNat 64 (spadPa 0))] := by
  have h : missing.rootsAt ⟨core, some 0, 0⟩
      = if Config.walker missing.tick then (missing.cluster 0).roots1 else (missing.cluster 0).roots := rfl
  rw [h]
  split <;> decide +kernel

theorem witness_FencesWaitAndPrefetchNeverTraps_prefetchPosts : missing.curTask.reg 4 = ⟨capBits 3 0 0x1000000 0x10000 0x1000000, .mem⟩
    ∧ (memBounds (missing.curTask.reg 4).bits = (0x1000000, 0x1010000) ∧ cursor (missing.curTask.reg 4).bits = 0x1000000)
    ∧ pfLocked missing 0x1000000 = false ∧ freeEntry (missing.cluster 0) = some 0 ∧ (missing.cluster 0).pend = []
    ∧ (missing.cluster 0).fbNotify.getLsbD 16 = false ∧ clusterOf missing.cur = 0 ∧ dieOf missing.cur = 0 ∧ missing.curTask.asid = 0
    ∧ (missing.lookup ⟨none, some 0, 0⟩ 0 0x1000000).found = .fault 0 1 := by
  refine ⟨by decide, by decide, by decide, by decide, by decide, by decide, by decide, by decide, by decide, ?_⟩
  have hf : tlbFind (missing.cluster 0).l2 0 0x1000000 = none := by decide
  have hd : tlbFind (missing.die 0).dtc 0 0x1000000 = none := by decide
  simp only [State.lookup, hf, hd, State.walk, missing_root]
  decide +kernel

/-- A send of the task, or its arrival at slot 0, waits in the send queue. -/
def sending : State := base.onCore 0 fun c => { c with sendq := [⟨⟨⟨0, 0⟩, ⟨0, 4⟩, false, 0, .sinkRelease⟩, 1, 0, [], none⟩] }
def arrivalDue : State := base.onCore 0 fun c => { c with sendq := [⟨⟨⟨0, 0⟩, ⟨0, 0⟩, false, 0, .sinkRelease⟩, 1, 0, [], some (0, 0)⟩] }

theorem witness_CounterSlotsAndBarriers_barriers_sends : base.curTask.core = base.cur ∧ base.me.sendq = [] ∧ (arrived false).curTask.released = false
    ∧ sending.me.sendq.map (·.task) = [sending.curTid] ∧ arrivalDue.me.sendq.map (·.arrive) = [some (0, 0)]
    ∧ answers (exec (.barWait always 0) arrivalDue) (block arrivalDue (.arrival 0)) = true := by decide

theorem test_bar_arr_queues : after (exec (.barArr always 0) sending) (fun t => (t.me.counter 0).count = 0
    && t.me.sendq.map (·.arrive) = [none, some (0, 0)]) = true
    ∧ after (exec (.sendQueueInject 0) arrivalDue) (fun t => (t.me.counter 0).count = 1 && t.me.sendq = []
      && (t.task 1).arrived = 1) = true := by decide

theorem witness_GuardsEndYieldAndSafepoint_suspended : two.me.suspBy = none := by decide

theorem witness_PinsMarksAndHeldTraps_asyncErrors_quiet : (base.die (dieOf (base.task 1).core)).elogNotify.getLsbD 16 = false := by decide

/-- Integer and floating-point lanes, active and not, for every condition and both reductions. -/
theorem witness_VectorCompareConditions : base.curTask.guardOk always = true ∧ base.me.vecq.length < 16 ∧ base.domeOnly = false
    ∧ 4 ≤ (4 : BitVec 3).toNat ∧ laneFmt 0 = some fp32 ∧ (5 : Nat) < 6 := by decide +kernel

theorem witness_VectorReductionsRoundOnce : (∃ v ∈ ([0x7FC00000] : List Nat).map (fdecode fp32), v.isNan = true)
    ∧ (FVal.inf true ∈ ([0x7F800000, 0xFF800000] : List Nat).map (fdecode fp32) ∧ FVal.inf false ∈ ([0x7F800000, 0xFF800000] : List Nat).map (fdecode fp32))
    ∧ (fdecode fp32 0x3F800000).isNan = false ∧ (∃ n k p, fdecode fp32 0x3F800000 = .fin n k p) :=
  ⟨by decide +kernel, by decide +kernel, by decide +kernel, ⟨false, 0x800000, -23, by decide +kernel⟩⟩

/-- A queue entry that the router takes, and one behind messages that fill the way to its destination. -/
def toCore4 : Msg := ⟨⟨0, 0⟩, ⟨0, 4⟩, false, 0, .task ⟨entry, [], 0, 0, ⟨0, 0⟩, 1, false, false, 0, false, none⟩ dest⟩
def routed : State := base.onCore 0 fun c => { c with sendq := [⟨toCore4, 1, 0, [], none⟩] }
def heldBefore : State := { routed with net := List.replicate 40 toCore4 }

theorem witness_ChannelMessagesTravelAndArrive_room : routed.me.sendq.all (fun x => routerRoom routed x.msg && x.src = []) = true
    ∧ heldBefore.me.sendq.all (fun x => !routerRoom heldBefore x.msg) = true
    ∧ (arrivalDue.core 0).sendq.map (·.arrive) = [some (0, 0)] ∧ (arrivalDue.task 1).core = 0 ∧ (arrivalDue.task 1).status ≠ .ended
    ∧ holderAway (ch { open_ [] with retDue := [(1, 0, 0)] } []) (open_ []) = false := by decide +kernel

theorem witness_ChannelMessagesTravelAndArrive_closing : ({ open_ [] with status := .closing } : Endp).buf = [] ∧ (open_ []).connBy = none := by decide

theorem witness_TaskCreationAndPools_named : (placeOf dest).2 = true ∧ (placeOf (80 <<< 30)).2 = false ∧ spawning.me.sendq.filter (fun e => e.arrive.isNone) = [] := by
  decide

theorem witness_SpireLaunchesDealsAndCommands_commands_up : (job0 .running []).spireUp = true ∧ State.reset.spireUp = false := by decide

/-- The task waits for a message with a pre-emption pending, and is one that a record can hold. -/
def waitingPreempt : State := (preempted small).onTask 1 fun x => { x with status := .waitMsg, wait := some .sink }

theorem witness_SpireLaunchesDealsAndCommands_commands_deadline : (waitingPreempt.task 1).preempt = some 100 ∧ (waitingPreempt.task 1).status = .waitMsg
    ∧ holdsSlot waitingPreempt 1 = false ∧ ((preempted base).task 1).status = .running ∧ (100 : W64).toNat ≤ ({ preempted small with timebase := 100 }).timebase.toNat
    ∧ ((preempted (base.onTask 1 fun x => { x with status := .stopped })).task 1).status = .stopped := by decide +kernel

/-- A routing operation with nothing left to write. -/
def written : State := routingOn.setEngine (.route 0) ((routingOn.engine (.route 0)).map fun o => { o with todo := some [], drop := 1 })

theorem witness_RoutingSortsTokensByExpert_written : (written.engine (.route 0)).any (fun o => o.err = 0 && o.todo = some [] && !(rtCfg o.regs).note) = true := by
  decide +kernel

theorem test_routing_ends : after (exec (.engineCompletion (.route 0)) written) (fun t => t.engine (.route 0) = none && t.me.sh0.done = 1
    && t.me.sh0.dropped = 1 && t.readNat (spadPa 0 + 192) 8 = 0) = true := by decide +kernel

/-- An exchange whose destination lies in a page that grants nothing. -/
def stuck : State :=
  (exchange.onCluster 0 fun c => { c with l2 := [⟨0, 0x1000000, 0, 1⟩] }).setEngine (.exch 0) (some { exchOp exchange 0 with
    regs := [(0, cap 64), (1, ⟨capBits 15 0 0x1000000 0x10000 0x1000000, .mem⟩), (5, data64 1)] })
    |>.onDie 0 fun d => { d with dtc := [⟨0, 0x1000000, 0, 1⟩] }

theorem witness_EnginesSwapFaultAndExchange_join_stops : (match movePairs stuck [0] [(0, 0)] with
      | (_, some (d, .fault a w)) => decide (d = 0) && decide (a = 0x1000000) && w
      | _ => false) = true ∧ movedTo (exchOp exchange 0) 0 = 0 ∧ (exchOp stuck 0).dropped = false := by decide +kernel

theorem test_exchange_faults : answers (exec (.exchangeJoin 0 []) stuck) stuck = true
    ∧ after (exec (.engineFault (.exch 0)) stuck) (fun t => (exchOp t 0).faulted && !(exchOp t 0).joined) = true := by decide +kernel

theorem witness_CircuitsAndPodPorts_up : base.spireUp = true ∧ State.reset.spireUp = false
    ∧ base.dieUp (dieOf podMsg.dst.core) = true := by decide

/-- A replay of the record of that message, its time come. -/
def replayingPod : State := run (.alogReplayStart 8) ({ run (.podArrival 0 podMsg) logging with
  fabric := { (run (.podArrival 0 podMsg) logging).fabric with alogEnd := 32 } })

theorem witness_CircuitsAndPodPorts_podPorts_replay : replayingPod.fabric.alogCtl.getLsbD 3 = true ∧ replayingPod.fabric.alogLen ≠ 0
    ∧ replayFrom replayingPod + recordSize replayingPod (spadPa 0) ≤ replayingPod.fabric.alogEnd.toNat
    ∧ replayingPod.backed (spadPa 0) (recordSize replayingPod (spadPa 0)) = true
    ∧ (recordMeans replayingPod (replayingPod.readBytes (spadPa 0) (recordSize replayingPod (spadPa 0)))).isSome = true
    ∧ logging.fabric.alogCtl.getLsbD 1 = false ∧ (64 : W64).toNat + 32 < 2 ^ 64 := by decide +kernel

theorem test_pod_log_fills : after (exec (.podArrival 0 podMsg) { logging with fabric := { logging.fabric with alogWr := 64 } }) (fun t =>
    t.net = [podMsg] && t.fabric.alogCtl.getLsbD 2 && t.fabric.alogWr = 64) = true := by decide +kernel

/-- The priority of queue pair 0x1000 is lossless and paused. -/
def pausedPort : State := { ported with host := { ported.host with ports := [(0, 0x47), (5, 1)], pausedTill := [(0, 9)] } }

theorem witness_HostRequestsQueuePairsAndPauses_paused : pausedOn pausedPort 0 0 = true ∧ pausedOn ported 0 0 = false
    ∧ ported.backed domePa 4096 = true ∧ domePa % 2 ^ 43 < 0x060000000000 ∧ ported.spireUp = true := by decide +kernel

theorem test_paused_request : after (exec (.rdmaWrite (request [1, 2, 3, 4])) pausedPort) (fun t => t.readNat (domePa + 64) 4 = 0
    && t.qpWord 0 1 = 5 && t.sent.all (fun m => match m with | .pfcPause 0 0 _ => true | _ => false)) = true := by decide +kernel

/-- A task that is shipped, and one whose record waits on the way. -/
def shipped : State := run (.migrationShip 1) leaving

theorem witness_DebugCommandsAndTheStateLog_inTransit : inTransit leaving 1 = true ∧ (leaving.task 1).ship ≠ none ∧ inTransit shipped 1 = true ∧ inTransit small 1 = false := by
  decide +kernel

theorem test_dbg_stop_in_transit : after (exec (.dbgStop 1) leaving) (fun t => (t.task 1).stopDue && (t.task 1).status = .waitMsg) = true := by
  decide +kernel

theorem witness_RampSlotsOpenWithTheirBudgets_cores : swf Core.zero slotDueNow.cores = true := by decide +kernel

/-- The die's error log at the start of the scratchpad of core 0. -/
theorem witness_ThermalActions_ring : 32 ≤ ((base.onDie 0 fun d => { d with elogBase := BitVec.ofNat 64 (spadPa 0), elogLen := 64 }).die 0).elogLen.toNat
    ∧ base.backed (spadPa 0) 32 = true := by decide

theorem witness_StepRunsTheDecodedInstruction_slots : slotPassed (loaded 0x00A22001) = false ∧ slotPassed slotDueNow = true ∧ slotDueNow.power = .on
    ∧ ({ base with power := .off } : State).agenda ≠ [.event .powerOnReset] := by decide +kernel

theorem test_step_opens_a_slot : after (step slotDueNow) (fun t => t.gov.slot = 1 && t.timebase = 1600) = true := by decide +kernel

/-- FIPS 202: the suffix and the padding of whole blocks, and the first round on the zero state. -/
theorem test_shake_padding : (shakePad []).length = 136 ∧ (shakePad (List.replicate 135 0)).getLast? = some 0x9F
    ∧ (shakePad (List.replicate 136 0)).length = 272 ∧ (shakePad []).take 2 = [0x1F, 0] := by decide +kernel
theorem test_keccak_round : keccakRound (List.replicate 25 0) 1 = 1 :: List.replicate 24 0 := by decide +kernel

/-! States that meet the remaining hypotheses -/

/-- A mapping of the launch-ring registers of die 0 at 16 MiB, with (0x3F) or without (0x1F) the supervisor bit. -/
def ctlPage (leaf : Nat) (l : List (BitVec 5 × GVal)) : State :=
  (withG ((4, ⟨capBits 15 0 0x1000000 0x10000 0x1000000, .mem⟩) :: l) base).onCluster 0 fun c =>
    { c with l2 := [⟨0, 0x1000000, 0, BitVec.ofNat 64 (0x070000100000 + leaf)⟩] }

/-- A check that names a control register. -/
def atCtl (r : Eff (State × Target)) (off : Nat) (sup : Bool) : Bool :=
  match r with | .ok (s, .ctl d o p) => decide (d = 0 ∧ o = off ∧ p = sup) && (ctlRead s 0 off).isSome | _ => false

theorem witness_AccessChecksAndThePrivateAlias_control :
    atCtl (resolve (ctlPage 0x3F []) ((ctlPage 0x3F []).curTask.reg 4) permLd 0x1000000 8 8 .load (elemSize 6)) 0x100000 true = true
    ∧ atCtl (resolve (ctlPage 0x3F []) ((ctlPage 0x3F []).curTask.reg 4) permSt 0x1000004 4 4 .store (elemSize 4)) 0x100004 true = false
    ∧ atCtl (resolve (ctlPage 0x1F []) ((ctlPage 0x1F []).curTask.reg 4) permLd 0x1000000 2 2 .load (elemSize 2)) 0x100000 false = true
    ∧ planeWin 0x1000000 = none := by decide +kernel

theorem test_control_access : after (exec (.st always 3 4 0 6) (ctlPage 0x3F [(3, data64 (-1))])) (fun t =>
      ctlRead t 0 0x100000 = some 0x3FFFFFFFFFC0 && t.curTask.pc = base.curTask.pc + 4) = true
    ∧ after (exec (.ld always 3 4 0 2) (ctlPage 0x3F [])) (fun t => t.curTask.sup.scause = 0x107 && t.curTask.sup.sinfo = 0x1000000) = true
    ∧ after (exec (.ld always 3 4 0 6) (ctlPage 0x1F [])) (fun t => t.curTask.sup.scause = 0x18) = true := by decide +kernel

/-- A BF16 element of W1. -/
def element : State := withG [(4, cap 0x100000), (3, data64 0x3F818000)] (planes 1 [(0x100000, 0x4B800000)] base)

theorem witness_LoadsExtendWhatMemoryHolds_elements : planeWin 0x100000 = some 1
    ∧ (∃ s1, resolve element (cap 0x100000) permLd 0x100000 4 4 .load (elemSize 4) = .ok (s1, .mem (spadPa 0)))
    ∧ (∃ s1, resolve element (cap 0x100000) permSt 0x100000 4 4 .store (elemSize 4) = .ok (s1, .mem (spadPa 0)))
    ∧ ((0x4B80 : Nat) < 2 ^ 16 ∧ (∀ p ≤ 8, Nat.testBit 0x4B80 (15 - p) = (element.seenByte 0 (spadPa 0 + 32 * p)).getLsbD 0)
      ∧ ∀ p < 7, Nat.testBit 0x4B80 (6 - p) = (element.seenByte 0 (spadPa 0 + 32 * (10 + p))).getLsbD 0)
    ∧ (elemBytes 1 0).any (fun i => element.badByte (spadPa 0 + i)) = false
    ∧ (elemBytes 1 0).any (fun i => { element with ue := [spadPa 0] }.badByte (spadPa 0 + i)) = true :=
  ⟨by decide +kernel, atMem_ok (by decide +kernel), atMem_ok (by decide +kernel), by decide +kernel, by decide +kernel, by decide +kernel⟩

theorem test_ld_element : after (exec (.ld always 2 4 0 4) element) (fun t => t.curTask.reg 2 = data64 0x4B800000) = true := by decide +kernel
theorem test_st_element_rounds : after (exec (.st always 3 4 0 4) element) (fun t =>
    ([0, 1, 2, 3, 4, 5, 6, 7, 8, 9, 10, 11, 12, 13, 14, 15, 16].map fun p => (t.byte (spadPa 0 + 32 * p)).getLsbD 0)
      = [false, false, true, true, true, true, true, true, true, true, false, false, false, false, false, true, false]
    && t.curTask.fflags = flInexact) = true := by decide +kernel

/-- LD over an uncorrectable codeword. -/
theorem test_ld_memUe : after (exec (.ld always 3 4 0 4) uncorrectable) (fun t => t.curTask.sup.scause = 0x115 && t.curTask.sup.sinfo = 64) = true := by
  decide +kernel

/-- A barrier of one, a barrier of two, and a BAR.SYNC that has arrived. -/
def barrierOf (n : W32) : State := base.onCounter 0 0 fun c => { c with target := n }
def synced : State := (arrived true).onCur fun x => { x with barSync := [(x.pc, x.trapLevel)] }

theorem witness_CounterSlotsAndBarriers_barriers_complete : ((barrierOf 1).me.counter 0).target ≠ 0 ∧ ((barrierOf 1).me.counter 0).count + 1 = ((barrierOf 1).me.counter 0).target
    ∧ ¬ ((barrierOf 2).me.counter 0).count + 1 = ((barrierOf 2).me.counter 0).target ∧ (barrierOf 1).curTask.barSync = []
    ∧ synced.curTask.barSync.map (·.1) = [synced.curTask.pc] ∧ synced.curTask.arrived.getLsbD 0 = true
    ∧ (∀ p ∈ base.tasks, p.2.wait = none) := by decide +kernel

theorem test_bar_sync_completes : after (exec (.barSync always 0) (barrierOf 1)) (fun t => (t.me.counter 0).count = 0 && (t.me.counter 0).phase
      && t.curTask.arrived = 0 && t.curTask.pc = base.curTask.pc + 4) = true
    ∧ after (exec (.barSync always 0) (barrierOf 2)) (fun t => (t.me.counter 0).count = 1 && (t.task 1).status = .waitMsg
      && (t.task 1).barSync.map (·.1) = [base.curTask.pc]) = true := by decide +kernel
theorem test_bar_arr_releases : after (exec (.barArr always 0) ((barrierOf 1).setTask 2 { loadedTask with gtid := 2, status := .waitMsg, wait := some (.counter 0) }))
    (fun t => (t.task 2).released && (t.task 2).wait.isNone) = true := by decide +kernel
theorem test_bar_sync_arrives_once : after (exec (.barSync always 0) synced) (fun t => (t.me.counter 0).count = 0
    && t.curTask.barSync = [] && t.curTask.pc = base.curTask.pc + 4) = true := by decide +kernel

/-- A pinned task alone on its core, with no fall capacity left, and one whose only slot closes in order. -/
def lastPinned : State := ({ base with gov := { base.gov with fall := 200 } }.onCur fun x => { x with pinned := true }).onCore 0
  fun c => { c with gov := { c.gov with kind := .active } }
def closingTask : State := ch { open_ [] with status := .closing } []

theorem witness_GuardsEndYieldAndSafepoint_stops : endExcess lastPinned 1 = 4 ∧ drained closingTask 1 = true ∧ endExcess closingTask 1 = 0
    ∧ closingSlots closingTask 1 = [0] ∧ slotsOf (closingTask.core 0) 1 = [0]
    ∧ (closingTask.curTask.tower = [] ∧ closingTask.curTask.composeTill = none) := by decide +kernel

theorem test_end_site_2 : traps (.endTask always) lastPinned .rampViolation (2 + (1 <<< 32)) = true := by decide +kernel
theorem test_end_waits_for_close : answers (exec (.endTask always) closingTask) (blockTask closingTask 1 (.chan 0)) = true := by decide +kernel

/-- Towers: after the drain a member became UNHELD and has no ticket. -/
def lateMember : State := ({ forming with timebase := 16 }.onCore 1 fun c => { c with gov := { c.gov with kind := .unheld, start := none } })

theorem witness_TowersFormTimeOutAndDissolve_late : (lateMember.task 1).drainedAt = some 0 ∧ (0 : W64).toNat + 16 ≤ lateMember.timebase.toNat
    ∧ (lateMember.core 1).gov.kind = .unheld ∧ (lateMember.core 1).gov.start = none ∧ 1 ∈ (lateMember.task 1).composeSet
    ∧ composeExcess lateMember (lateMember.task 1) (lateMember.task 1).composeSet = 0 := by decide +kernel

theorem test_late_member_takes_ticket : after (exec (.towerForm 0) lateMember) (fun t => (t.core 1).gov.start.isSome && (t.task 1).tower = []) = true := by
  decide +kernel

/-! Numbers -/

/-- R63, R65, R66: a tie to even, overflow with and without saturation, a subnormal, and integers at their ends. -/
theorem witness_VectorReductionsRoundOnce_conversions : (fconv fp16 false .rne (.fin false 2049 0) = (0x6800, flInexact))
    ∧ fconv fp16 false .rne (.fin true 1 16) = (0xFC00, flOverflow ||| flInexact) ∧ fconv e4m3 true .rne (.fin false 1 10) = (0x7E, flOverflow ||| flInexact)
    ∧ fconv fp16 false .rne (.fin false 3 (-25)) = (2, flUnderflow ||| flInexact)
    ∧ iconv 8 .rne (.fin true 257 (-1)) = (0x80, flInexact) ∧ iconv 8 .rne (.fin false 128 0) = (0x7F, flOverflow ||| flInexact)
    ∧ cvtLane false 4 0 0xFF = (0xBF800000, 0) ∧ cvtLane false 1 0 0x3F81 = (0x3F810000, 0) ∧ laneFmt 1 = some bf16 := by decide +kernel

theorem witness_VectorReductionsRoundOnce_zero : (fdecode fp32 0x80000000 = .fin true 0 (-149)) ∧ laneFmt 0 = some fp32 := by decide +kernel

theorem test_vreds_negative_zeros : after (exec (.vreds always 4 0 0 0) (vecs [(0, 0x80000000_80000000)] 3)) (fun t =>
      t.curTask.reg 4 = data64 0x80000000) = true
    ∧ after (exec (.vreds always 4 0 0 0) (vecs [(0, 0x3F800000_BF800000)] 3)) (fun t => t.curTask.reg 4 = data64 0) = true := by decide +kernel

/-- Two packed 4-bit elements, an uncorrectable lane, and two lanes that do not meet. -/
theorem witness_VectorLoadsAndStores_lanes : (∃ s1 ps, resolveLanes vmem (cap 64) permLd 14 .load (vldLanes 0 14 0 vmem.curTask (cap 64)) = .ok (s1, ps))
    ∧ (∃ s1 ps, resolveLanes vmem (cap 64) permSt 14 .store (vldLanes 0 14 0 vmem.curTask (cap 64)) = .ok (s1, ps))
    ∧ (vldLanes 0 14 0 vmem.curTask (cap 64)).map (fun l => (l.k, l.a, l.nib)) = [(0, 64, some false), (1, 64, some true)]
    ∧ (vldLanes 0 8 0 vmem.curTask (cap 64)).map (fun l => (l.k, l.a, l.n)) = [(0, 64, 1), (1, 65, 1)]
    ∧ ({ vmem with ue := [spadPa 0 + 64] }.badByte (spadPa 0 + 64) = true)
    ∧ (match resolveLanes { vmem with ue := [spadPa 0 + 64] } (cap 64) permLd 8 .load (vldLanes 0 8 0 vmem.curTask (cap 64)) with
        | .ok (s1, ps) => (ps.find? fun p => laneBad s1 p.1 p.2).isSome && decide (closeFrames s1 (spadPa 0 + 64) 1 = s1)
        | .error _ => false) = true :=
  ⟨isOk_ok (by decide +kernel), isOk_ok (by decide +kernel), by decide +kernel, by decide +kernel, by decide +kernel, by decide +kernel⟩

theorem test_vst_nibble : after (exec (.vst always 3 4 0 0 14 0) (vmem.onCur fun x => (x.setVec 3 0x40400000_40800000).setMask 0 2)) (fun t =>
    t.readNat (spadPa 0 + 64) 1 = 0x51) = true := by decide +kernel
theorem test_vld_ue : after (exec (.vld always 2 4 0 0 8) { vmem with ue := [spadPa 0 + 64] }) (fun t => t.curTask.vec 2 = 0x5555
    && t.me.vecq.map (·.ue) = [some 64]) = true := by decide +kernel

/-! Matrix operations -/

/-- An MX.STA of tile 0 as one granule of W8 at its cursor, started. -/
def storing : State :=
  run (.matrixOpStart 0) (run (.mxSta always 0 4 2) ((withG [(4, cap 0x800000), (2, data64 0)] base).onCore 0 fun c => { c with tiles := [(0, 5)] }))

theorem witness_MatrixUnitPerformsOneUnitAtATime_stores : (match (storing.core 0).mx0, mxChoice (storing.core 0) with
      | [o], .unit 0 p => decide (p = o) && decide (o.kind = .sta) && decide (o.winA = 8) && decide (unitBad storing 0 o = none)
          && decide (mxM o.desc = 1) && decide (mxN o.desc = 1)
      | _, _ => false) = true := by decide +kernel

theorem test_mx_sta_int8 : after (exec (.matrixTripleBoundary 0) storing) (fun t =>
    (List.range 8).map (fun p => (t.byte (spadPa 0 + 32 * p)).getLsbD 0) = [false, false, false, false, false, true, false, true]) = true := by
  decide +kernel

/-- The operands of R208 are finite and in range; products of an infinity with zero are not. -/
theorem witness_MatrixUnitPerformsOneUnitAtATime_arithmetic : (match (started208.core 0).mx0 with
      | [o] => winClass o.winA = winClass 1 && decide ((mxK o.desc + 15) / 16 = 2)
          && ((List.range 16).all fun k =>
            match operandElem (started208.rd (spadPa 0)) o.winA o.offA o.desc 64 32 2 0 k with | .fin _ _ p => decide (-3000 ≤ p) | _ => false)
      | _ => false) = true
    ∧ (fmul (.inf true) (.fin false 0 0)).1.isNan = true ∧ (fmul (.inf true) (.fin false 1 0)).1 = .inf true := by decide +kernel

/-- A finished operation at the head of queue 1, and the error's frame not in hand. -/
def doneIn1 : State :=
  run (.matrixTripleBoundary 0) (run (.matrixOpStart 0) (run (.mxSta always 0 4 2) (withG [(4, cap 0x800000), (2, data64 0)] base)))

theorem witness_MatrixUnitPerformsOneUnitAtATime_queue1 : (doneIn1.core 0).mx0.map (·.done) = [true]
    ∧ ((doneIn1.onCore 0 fun c => { c with mx0 := [], mx1 := c.mx0 }).core 0).mx1.map (·.done) = [true]
    ∧ started208.me.eps = [] := by decide +kernel

theorem test_mx_retires_queue1 : after (exec (.matrixOpRetire 0) (doneIn1.onCore 0 fun c => { c with mx0 := [], mx1 := c.mx0 })) (fun t =>
    (t.core 0).mx1 = [] && t.curTask.retired1 = 1 && t.curTask.retired0 = 0) = true := by decide +kernel

/-! Channels -/

/-- A begin action whose payload is a granule, its count in the first four bytes. -/
def beginning (n : Nat) : State :=
  (ch (open_ [tr 0 0 5 1 + 0x2000 + 0x80000]) [(3, cap 64)]).write (spadPa 0 + 64) (leBytes 4 n)

theorem witness_ChannelSendsFollowTheProtocol_begin : tShape (tr 0 0 5 1 + 0x2000 + 0x80000) = 8 ∧ tLop (tr 0 0 5 1 + 0x2000 + 0x80000) = 1 := by decide +kernel

/-- A message with a payload of four bytes of text (shape 12). -/
def payload : Endp := { full (.data 5 12 0 0 [1, 2, 3, 4]) [tr 1 0 5 1 + 0x3000] with bufBase := 64, bufSize := 64 }

theorem witness_ChannelReceivesConsumeTheHead_payload : payload.find true 0 (some 5) ≠ none ∧ payload.oldSlot = none
    ∧ payload.bufBase.toNat + 4 ≤ 0x80000 ∧ ({ open_ [tr 1 0 5 1] with oldSlot := some there }).oldSlot ≠ none
    ∧ ({ open_ [tr 1 0 5 1] with oldSlot := some there }).find true 0 none ≠ none
    ∧ (∀ k < 4, (ch payload []).badByte (spadPa 0 + 64 + k) = false)
    ∧ { ch payload [] with ue := [spadPa 0 + 64] }.badByte (spadPa 0 + 64) = true := by decide +kernel

theorem test_ch_recv_payload : after (exec (.chRecv always 3 4) (ch payload [])) (fun t => (t.curTask.reg 3).tag = .mem
      && memBounds (t.curTask.reg 3).bits = (64, 68) && capPerm (t.curTask.reg 3).bits = permLd) = true
    ∧ after (exec (.chRecv always 3 4) { ch payload [] with ue := [spadPa 0 + 64] }) (fun t => (t.ep 0 0).status = .closed
      && wordReason (t.ep 0 0).closeWord = 2) = true := by decide +kernel
theorem test_ch_recv_before_mark : after (exec (.chRecv always 3 4) (ch { full (.data 5 0 77 0 []) [tr 1 0 5 1] with oldSlot := some there } [])) (fun t =>
    (t.task 1).status = .waitMsg) = true := by decide +kernel

/-- Every slot taken, and an image with a bad magic. -/
def noSlots : State := withImage.onCore 0 fun c => { c with eps := (List.range 64).map fun k => (k, { Endp.zero with status := .bound, owner := some 9 }) }
def badImage : State := withImage.write (spadPa 0 + 64) [0]

theorem witness_ChannelEndsOpenAndClose_refusals : noSlots.me.eps.all (fun q => q.2.bufSize = 0) = true ∧ freeEp noSlots.me = none
    ∧ heldSlots noSlots.me 1 < base.curTask.endpoints ∧ freeEp badImage.me = some 0
    ∧ (match parseImage (badImage.readBytes (spadPa 0 + 64) 48) with | .ok _ => false | .error _ => true) = true := by decide +kernel

theorem test_ch_new_refusals : after (exec (.chNew always 3 4 0) noSlots) (fun t => t.curTask.reg 3 = data64 2) = true
    ∧ after (exec (.chNew always 3 4 0) badImage) (fun t => (t.curTask.r64 3).toNat % 256 = 3) = true := by decide +kernel

theorem witness_ChannelsConnectResyncAndMove_closed : slotLive base here = false := by decide

theorem test_connect_to_no_slot : after (exec (.connectArrival 0) (flying (.connect here there (image [tr 0 0 5 1])) Endp.zero)) (fun t =>
    t.net = [⟨⟨0, 0⟩, ⟨0, 4⟩, true, 0, .connAns there .closed⟩]) = true := by decide +kernel

/-- A return of the generation that the peer's slot had before it moved. -/
theorem test_return_of_former : after (exec (.slotReturn 0) (flying (.slotReturn here (returnWord 1 7)) { open_ [] with sent := 1, former := [7] })) (fun t =>
    (t.ep 0 0).returned = 1) = true := by decide +kernel

/-! Tasks, engines, the rest -/

theorem witness_TasksArriveAreAdmittedAndMove_gates : arriving.coreUp 4 = true ∧ arriving.harvested 4 = false ∧ (arriving.job 0).state ≠ .killing
    ∧ (arriving.onDie 0 fun d => { d with bootPhase := 2 }).coreUp 4 = false ∧ (roomy dealing).coreUp 0 = true := by decide +kernel

theorem test_arrival_for_killed_job : answers (exec (.taskMessageArrival 0) (arriving.setJob 0 { Job.none with state := .killing }))
    { arriving.setJob 0 { Job.none with state := .killing } with net := [] } = true := by decide +kernel

theorem witness_SpireLaunchesDealsAndCommands_commands_traps : ((preempted base).onCur fun x => { x with held := [⟨0x18, 5⟩] }).curTask.held.any base.curTask.takeable = true
    ∧ base.curTask.held = [] ∧ base.curTask.ship = none ∧ base.curTask.waitOver = false
    ∧ saveable (preempted routingOn) 1 = false ∧ routingOn.curTask.wait ≠ some .saving := by decide +kernel

/-- A task whose operation still runs cannot be saved yet: it takes the state in which it waits for that. -/
theorem test_preempt_begins_save : after (exec (.preemptDeadline 1) { (preempted routingOn).onCur (fun x => { x with status := .waitMsg, wait := some (.engine false) }) with timebase := 100 })
    (fun t => (t.task 1).wait = some .saving && (t.task 1).preempt.isSome) = true := by decide +kernel

/-- The routing operation's own matrix range over its counts. -/
def readsCounts : State := routingOn.onCore 0 fun c => { c with locks := [⟨1, 99, true, true, true, 0, 192, 200⟩] }

theorem witness_RoutingSortsTokensByExpert_stall : (routingOn.engine (.route 0)).any (fun o => o.todo.isNone && o.err = 0 && decide ((cursor (engReg o.regs 2).bits).toNat = 192)) = true
    ∧ (∀ l ∈ routingOn.me.locks, l.matrix = true → l.task ≠ 1) := by decide +kernel

theorem witness_CircuitsAndPodPorts_podPorts_early : slotLive (ch (open_ []) []) here = true ∧ returnForeign (open_ []) (returnWord 1 0) = false
    ∧ (((returnWord 1 0).extractLsb' 0 32) - (open_ []).sent).toNat = 1 := by decide +kernel

theorem witness_TileWalkPeersAdoptAndServe_bad : peer.fabric.heldBack = [] ∧ (peer.ep 0 0).oldSlot = none ∧ (peer.ep 0 0).buf.all (fun m => !frameBad peer 0 0 m && !m.held) = true
    ∧ (peer.ep 0 0).buf.all (fun m => frameBad { peer with ue := [spadPa 0] } 0 0 m) = true := by decide +kernel

theorem test_tile_request_ue : after (exec (.tilePeerRequest 0 0) { peer with ue := [spadPa 0] }) (fun t => (t.ep 0 0).status = .closed
    && wordReason (t.ep 0 0).closeWord = 2) = true := by decide +kernel

theorem witness_DebugCommandsAndTheStateLog_stopped : (halted.task 1).forDebug = true ∧ (small.core 0).slog.ctl.getLsbD 0 = false := by decide +kernel

/-- A queued start waits for the ticket of slot 1. -/
def heldStart : State := slotDueNow.onCore 0 fun c => { c with gov := { c.gov with kind := .unheld, start := some 1, held := [(7, 900)] } }

theorem witness_RampSlotsOpenWithTheirBudgets_held : (heldStart.core 0).gov.kind = .unheld ∧ (heldStart.core 0).gov.start = some 1 ∧ heldStart.heldStarts 0 = []
    ∧ (heldStart.core 0).gov.held = [(7, 900)] ∧ heldStart.gov.slot + 1 = 1 := by decide +kernel

theorem test_held_start_counts : after (exec .rampSlotBoundary heldStart) (fun t => (t.core 0).gov.rampw = 700 && (t.core 0).gov.held = []) = true := by
  decide +kernel

/-- R463: pseudo-channel 5 is mapped out, and the two lines of the worked example. -/
theorem test_line_places_of_r463 : linePlace { Die.zero with pcmap := [(0, 0x20)] } 0x500 = (6, 0)
    ∧ linePlace { Die.zero with pcmap := [(0, 0x20)] } 0x7F00 = (0, 1) := by decide +kernel

theorem witness_StepRunsTheDecodedInstruction_again : (loaded 0x00A22001).again = none := by decide

/-! Two loop-back paths -/

/-- The task stored 7 at 64 of its scratchpad through the private alias, which its global path (a page at 16 MiB) has not met. -/
def looped : State := ((paged (withG [(4, ⟨capBits 15 0 0x1000000 0x10000 0x1000040, .mem⟩), (3, data64 9)] base)).write (spadPa 0 + 64) [7]).onCore 0 fun c =>
  { c with loop := [⟨1, false, [(64, 0, 7)], [(4, .entry, .data)]⟩] }

theorem witness_StoresWriteTheLowBytes_under : looped.loopMine ≠ [] ∧ looped.under 0x1000040 (spadPa 0 + 64) = true
    ∧ looped.tagUnder 0x1000040 (spadPa 0 + 64) = true ∧ looped.under 64 (spadPa 0 + 64) = false
    ∧ looped.foundByte 0x1000040 (spadPa 0 + 64) = 0 ∧ base.loopMine = []
    ∧ (∀ k < 4, ownOffset base (spadPa 0 + 0x80000 + k) = none) := by decide +kernel

theorem test_load_misses_the_alias : looped.seenByte 0x1000040 (spadPa 0 + 64) = 0 ∧ looped.seenTag 0x1000040 (spadPa 0 + 64) = .entry
    ∧ looped.seenByte 64 (spadPa 0 + 64) = 7 := by decide +kernel
theorem test_store_lies_under : after (exec (.st always 3 4 0 0) looped) (fun t => t.byte (spadPa 0 + 64) = 7
      && t.seenByte 0x1000040 (spadPa 0 + 64) = 9 && t.seenByte 64 (spadPa 0 + 64) = 7) = true
    ∧ after (exec (.st always 3 1 64 0) looped) (fun t => t.byte (spadPa 0 + 64) = 9 && t.seenByte 0x1000040 (spadPa 0 + 64) = 0) = true := by
  decide +kernel

/-- A queued vector load of the task. -/
def loadQueued : State := base.onCore 0 fun c => { c with vecq := [⟨1, 0, none, .none⟩] }

theorem witness_FencesWaitAndPrefetchNeverTraps_loads : ¬ (∀ e ∈ loadQueued.me.vecq, e.task ≠ loadQueued.curTid)
    ∧ (∀ e ∈ base.me.vecq, e.task ≠ base.curTid) := by decide +kernel
theorem test_fence_0_waits : answers (exec (.fence always 0) loadQueued) loadQueued = true
    ∧ answers (exec (.fence always 0) base) (retire base 4) = true := by decide +kernel

/-! System registers and queues -/

/-- A start that the governor holds on the core, since 5. -/
def heldWake : State := ({ base with timebase := 9 }.setTask 2 { loadedTask with gtid := 2, status := .waitMsg, wait := none, since := 5 }).onCore 0
  fun c => { c with gov := { c.gov with kind := .unheld, start := some 3, held := [(7, 4)] } }

theorem witness_SystemRegistersReadAndWrite_rampw : (heldWake.heldStarts 0).map (fun y => (y.gtid, y.since)) = [(2, 5)]
    ∧ base.heldStarts 0 = [] := by decide +kernel
theorem test_rampw : after (exec (.mfs always 3 0x403) heldWake) (fun t => t.curTask.r64 3 = 9) = true
    ∧ after (exec (.mts always 3 0x403) heldWake) (fun t => (t.task 2).since = 9 && t.me.gov.held = [(7, 9)] && t.me.gov.rampw = 0) = true := by
  decide +kernel

/-- Operation `o` heads queue 0, or queue 1 behind an idle queue 0. -/
theorem witness_MatrixUnitPerformsOneUnitAtATime_choice : (match (started208.core 0).mx0, (issued208.core 0).mx0 with
      | [o], [p] => o.started && !o.finished && decide (o.prog < o.work) && !o.done && !p.started && !p.done
          && decide (((issued208.core 0).mx0 ++ (issued208.core 0).mx1).all fun e => !(decide (e.id < p.id)))
      | _, _ => false) = true
    ∧ mxChoice (base.core 0) = .none ∧ (base.core 0).mx0 = [] ∧ (base.core 0).mx1 = [] := by decide +kernel

theorem test_mx_queue_1 : (match mxChoice { started208.core 0 with mx0 := [], mx1 := (started208.core 0).mx0 } with
    | .unit q _ => decide (q = 1) | _ => false) = true := by decide +kernel

/-- An MX.RAG of 40 rows, one granule wide and deep, that has processed one of the two row granules that were eligible so far. -/
def ragged : State := base.onCore 0 fun c => { c with mx0 := [{ newMxOp base .rag 0 0 with desc := 39, started := true, gd := 1, prog := 1 }] }

theorem witness_MatrixInstructionsCheckAndEnterTheirQueue_stat : (match ragged.me.mx0 with
    | [o] => decide (o.kind = .rag) && decide (o.task = ragged.curTid) && o.started && !o.done && decide (o.work ≤ o.prog) && decide (o.prog / (o.gn * o.gk) = 1)
    | _ => false) = true := by decide +kernel
theorem test_mx_stat_rag : after (exec (.mxStat always 0 3) ragged) (fun t => t.curTask.r64 3 &&& 0xFFFF00 = 0x100200) = true := by decide +kernel

/-! Channels -/

/-- A sum of counts that no label or word may carry, and a label that the state does not offer. -/
def counted (kind n : Nat) : State := ch (open_ [tr 0 kind 6 1 + 0x80000]) [(3, ⟨BitVec.ofNat 128 n, .data⟩)]

theorem witness_ChannelSendsFollowTheProtocol_refusals : (open_ [tr 0 0 6 1 + 0x80000]).find false 0 none = some (tr 0 0 6 1 + 0x80000)
    ∧ tLop (tr 0 0 6 1 + 0x80000) = 1 ∧ (open_ [tr 0 1 6 1]).find false 1 none ≠ none ∧ (open_ [tr 0 1 6 1]).find false 1 (some 9) = none
    ∧ (open_ [tr 0 1 6 1 + 0x80000]).find false 1 (some 6) = some (tr 0 1 6 1 + 0x80000) := by decide +kernel

theorem test_ch_refusals : traps (.chSend always 4 3) (counted 0 0) .proto 0x660 = true ∧ traps (.chSelect always 4 3) (counted 1 6) .proto 0x660 = true
    ∧ traps (.chSelect always 4 3) (counted 1 9) .proto 0x920 = true := by decide +kernel

/-- A delegated slot with a frame in hand. -/
theorem test_deleg_record : after (exec (.chDeleg always 4 3) ((ch (open_ [tr 0 2 7 1]) [(3, endpCap true true true true ⟨⟨0, 0⟩, 1, 0⟩)]).onEp 0 1
    fun _ => { open_ [] with inHand := some (0, 0, 0), consumed := 4 })) (fun t => t.me.sendq.map (·.msg.body)
      = [.chan there here none (.deleg 7 ⟨image [], 0, 0, 0, 0, 0, 5, there, 2, ⟨⟨0, 0⟩, 1, 0⟩⟩)]) = true := by decide +kernel

theorem witness_ChannelReceivesConsumeTheHead_inHand : ({ open_ [tr 1 0 5 1] with inHand := some (1, 0, 0) }).inHand ≠ none
    ∧ ({ open_ [tr 1 0 5 1] with inHand := some (1, 0, 0) }).buf = [] := by decide
theorem test_ch_recv_gives_up_its_frame : after (exec (.chRecv always 3 4) (ch { full (.data 5 0 77 0 []) [tr 1 0 5 1] with inHand := some (1, 0, 0) } []))
    (fun t => (t.ep 0 0).retDue = [(1, 0, 0)] && (t.ep 0 0).inHand.any fun f => f.1 = 0) = true := by decide +kernel

/-- Images: valid, of 33 states, with a transition that two rows share, with lop = 3, and without a name. -/
theorem test_images : (match parseImage imageBytes with | .ok _ => true | .error _ => false) = true
    ∧ (match parseImage ([0x49, 0x50, 33, 2] ++ List.replicate 12 0) with | .error f => decide (f = 31) | .ok _ => false) = true
    ∧ (match parseImage (imageBytes.set 20 0x0D) with | .error f => decide (f = 0) | .ok _ => false) = true
    ∧ (match parseImage (imageBytes.set 32 0) with | .error f => decide (f = 0) | .ok _ => false) = true := by decide +kernel

/-- Messages of one type sent and received: dual; two senders: not. -/
theorem test_duality : dual (image [tr 0 0 5 1]) (image [tr 1 0 5 1]) = none
    ∧ (dual (image [tr 0 0 5 1]) (image [tr 0 0 5 1])).isSome = true := by decide +kernel

/-- An endpoint with a buffered message, and one that a counter is linked to. -/
def firing : State := withG [(3, data64 1), (5, sealed)] (ch (full (.data 5 0 77 0 []) [tr 1 0 5 1]) [])
def linked : State := (flying (.chan here there none (.data 5 0 3 0 [])) { open_ [tr 1 0 5 1] with link := some 1 }).onCounter 0 1 fun c =>
  { c with count := 2, target := 5 }

theorem witness_BindingsArmAndFire_endpoints : (firing.ep 0 0).buffered = 1 ∧ (firing.ep 0 0).status = .connected ∧ (firing.ep 0 0).owner = some firing.curTid
    ∧ max 1 (min 1 (firing.ep 0 0).image.la) ≤ (firing.ep 0 0).buffered
    ∧ (arrivable linked 0).isSome = true ∧ (linked.ep 0 0).buf = [] ∧ freeFrames (linked.ep 0 0) ≠ [] ∧ holderAway linked (linked.ep 0 0) = false
    ∧ (linked.ep 0 0).trig = none ∧ ((linked.core 0).counter 1).trig = none ∧ there.at_.chip = linked.chip
    ∧ (linked.ep 0 0).find true 0 (some 5) = some (tr 1 0 5 1) := by decide +kernel

theorem test_endpoint_trigger_fires : after (exec (.bind always 3 4 5) firing) (fun t => t.net.length = 1 && (t.ep 0 0).trig.any (fun g => !g.armed)
    && t.net.all (fun m => match m.body with | .task y _ => y.args = [endpCap true true true true here, data64 1] | _ => false)) = true := by decide +kernel
theorem test_link_consumes : (match linkStep (linked.onEp 0 0 fun e => { e with buf := [⟨.data 5 0 3 0 [], 1, false⟩] }) 0 0 with
    | some t => decide ((t.ep 0 0).buf = []) && decide ((t.ep 0 0).consumed = 1) && decide (((t.core 0).counter 1).count = 0) && ((t.core 0).counter 1).phase
        && decide ((t.net.drop 1).map (·.body) = [.slotReturn there (returnWord 1 0)])
    | none => false) = true := by decide +kernel

/-! Tasks, the spire, engines -/

/-- The second of two arguments is task-local. -/
theorem witness_TaskCreationAndPools_local : isGlobal (data64 9) = true ∧ isGlobal (cap 64) = false := by decide +kernel
theorem test_am_local_argument : traps (.am always 6 4 5 2) (withG [(7, cap 64)] spawning) .capPerm 7 = true := by decide +kernel

/-- A host record in an uncorrectable codeword. -/
def badRecord : State := { base with
  ue := [spadPa 0], spire := { Spire.zero with lqCfg := 0x100001, lqTail := 1, lqBase := BitVec.ofNat 64 (spadPa 0) } }

theorem witness_SpireLaunchesDealsAndCommands_deal : badRecord.badByte (spadPa 0) = true
    ∧ ((dealing.job 1).launch.map fun l => (l.pack, l.depth, l.groups)) = some (false, 1, 1)
    ∧ ((dealing.job 1).launch.map fun l => (List.range 4).map fun n => (groupsOn l 4 n, groupOf l 4 n 0)) = some [(1, 0), (0, 1), (0, 2), (0, 3)] := by
  decide +kernel
theorem test_host_record_ue : after (exec .hostLaunchRecord badRecord) (fun t => t.spire.lqHead = 1
    && t.readNat (spadPa 0 + 0x38) 8 = 0x8000000000000001) = true := by decide +kernel

/-- A routing operation with an invalid register that notes its completion in slot 0. -/
def notesError : State := routingOn.setEngine (.route 0) ((routingOn.engine (.route 0)).map fun o => { o with
  err := 4, regs := sset .zero o.regs 3 (data64 (2 + 2 * 2 ^ 24 + 2 * 2 ^ 29 + 2 ^ 45)) })

theorem witness_RoutingSortsTokensByExpert_note : (notesError.engine (.route 0)).any (fun o => o.err ≠ 0 && (rtCfg o.regs).note
      && decide ((rtCfg o.regs).slot.toNat < (notesError.task o.task).barriers)
      && decide (physSlot (notesError.core o.core) (notesError.task o.task).job (rtCfg o.regs).slot.toNat = some 0)) = true
    ∧ ((notesError.core 0).counter 0).target = 0 := by decide +kernel
theorem test_routing_notes_an_error : after (exec (.engineCompletion (.route 0)) notesError) (fun t => (t.me.counter 0).count = 1) = true := by decide +kernel

/-! Replay, debug -/

/-- The record to replay stands in an uncorrectable codeword behind its header; a resync word stands before its slot is in RESYNC. -/
def badReplay : State := { replayingPod with ue := [spadPa 0 + 32] }

theorem witness_CircuitsAndPodPorts_podPorts_records : (List.range 32).all (fun k => !badReplay.badByte (spadPa 0 + k)) = true
    ∧ badReplay.badByte (spadPa 0 + 32) = true ∧ (base.ep 0 0).gen = here.gen ∧ (base.ep 0 0).status ≠ .resync := by decide +kernel

/-- A stop area on the scratchpad of core 4 that has room for a record, and one that has not. -/
def area : State := { small.onCur (fun x => { x with khdr := 0, spadSize := 0 }) with dbg := { small.dbg with area := BitVec.ofNat 64 (spadPa 4), areaLen := 0x10000 } }

theorem witness_DebugCommandsAndTheStateLog_fits : area.dbg.next.toNat + chunksLen (taskRecord (atStop area 1) 1 none) ≤ area.dbg.areaLen.toNat
    ∧ area.backed (spadPa 4) (chunksLen (taskRecord (atStop area 1) 1 none)) = true
    ∧ area.dbg.area.toNat + area.dbg.next.toNat = spadPa 4 ∧ spadPa 4 % 16 = 0
    ∧ small.dbg.areaLen.toNat < small.dbg.next.toNat + chunksLen (taskRecord (atStop small 1) 1 none) := by decide +kernel

theorem test_stop_record : after (exec (.dbgStop 1) area) (fun t => (t.task 1).stopRec = some (spadPa 4) && !t.dbg.noarea) = true
    ∧ after (exec (.dbgStop 1) area) (fun t => t.readNat (spadPa 4) 9 = 1 + 2 ^ 64) = true := by decide +kernel

end Sys2Proof.Tests
end

section
/-! PROOFS. The scope of the model (spec/00_scope.md): the state after reset, and system registers over task maps that list a GTID twice. -/

namespace Sys2Proof.Machine

open Sys2Proof.Safety

/-- Settles O58: every map of the reset state is empty, so each read gives the default that the spec states. -/
theorem resetLeavesTheStatedState : Obligations.ResetLeavesTheStatedState :=
  have core (k : Nat) : State.reset.core k = Core.zero := rfl
  have slots (k n : Nat) : (State.reset.core k).counter n = Counter.zero ∧ (State.reset.ep k n).status = .free ∧ (State.reset.ep k n).gen = 0 :=
    ⟨rfl, rfl, rfl⟩
  ⟨rfl, fun _ => rfl, fun _ => rfl, fun _ => rfl,
    fun k => by simp only [core k]; exact ⟨rfl, rfl, rfl, rfl, rfl, rfl, slots k⟩,
    by decide, by decide, by decide, rfl, rfl, rfl, rfl, rfl, rfl, rfl, rfl⟩

/-! MTS of GOV_RAMPW where the executing task's key stands twice -/

/-- The supervisor task that core 0 executes. -/
def ramperTask : Task := { Task.none with gtid := 1, status := .running, sup := { Task.none.sup with priv := true } }

/-- A task of core 0 whose wake is held for a ramp slot. -/
def heldTask : Task := { Task.none with gtid := 2, status := .waitMsg }

/-- The executing task's key stands twice in the task map: before the task itself, and before a held wake of another GTID. -/
def twiceListed : State := { State.reset with
  timebase := 5, cores := [(0, { Core.zero with slotBase := some 1 })], tasks := [(1, ramperTask), (1, heldTask)] }

/-- MTS of GOV_RAMPW retires its task first, which drops the second entry: no wake is timed anew. -/
theorem mts_rampw_twiceListed : ∃ t, exec (.mts ⟨false, 0⟩ 0 0x403) twiceListed = .next t ∧ (t.task 2).since = 0 :=
  ⟨_, rfl, by decide +kernel⟩

/-- The second entry is a held wake of core 0. -/
theorem heldTask_mem_heldStarts : heldTask ∈ twiceListed.heldStarts twiceListed.cur := by decide +kernel

/-- Refutes O17: MTS of GOV_RAMPW is to time every held wake of the core anew, but in `twiceListed`, whose task map lists the key of the
executing task twice, retirement rewrites that key to one entry, and the held wake that the second entry gave is gone before the write. The
statement is about every state, also one whose task map is not in canonical form. -/
theorem not_systemRegistersReadAndWrite : ¬ Obligations.SystemRegistersReadAndWrite := by
  unfold Obligations.SystemRegistersReadAndWrite
  rintro ⟨-, writes⟩
  obtain ⟨-, -, -, -, -, -, -, -, -, -, -, -, -, -, -, -, -, -, -, -, -, -, -, -, -, -, -, -, -, supervisor⟩ :=
    writes twiceListed ⟨false, 0⟩ 0 rfl
  obtain ⟨-, -, -, -, -, -, -, -, -, -, ⟨t, ht, -, -, timed, -⟩, -⟩ := supervisor (by decide +kernel)
  obtain ⟨u, hu, since⟩ := mts_rampw_twiceListed
  obtain rfl : t = u := Host.Outcome.next.inj (ht.symm.trans hu)
  have := timed heldTask heldTask_mem_heldStarts (by decide +kernel)
  exact absurd (since.symm.trans this) (by decide +kernel)

end Sys2Proof.Machine
end

section
/-! PROOFS. The control window of a die (R8, R151, R330): how a write reaches a register, and the access of each register. -/

namespace Sys2Proof.Machine

open Sys2Proof.Safety

/-! How a write reaches the word of a register -/

/-- A die that answers takes an aligned write of 4 or 8 bytes through its control window. -/
theorem exec_controlRegisterWrite {s : State} {d off n : Nat} (v : W64) (up : s.dieEnabled d = true ∧ (s.die d).bootPhase ≠ 0 ∧ (s.die d).bootPhase ≠ 5)
    (hn : n = 4 ∨ n = 8) (ho : off % n = 0) : exec (.controlRegisterWrite false d off n v) s = .next (ctlWrite s d off n v) := by
  obtain ⟨he, h0, h5⟩ := up
  show execControlRegisterWrite false d off n v s = _
  have hp : ¬ ((s.die d).bootPhase = 0 ∨ (s.die d).bootPhase = 5) := not_or.mpr ⟨h0, h5⟩
  rcases hn with rfl | rfl <;> simpa [execControlRegisterWrite, he, ho] using fun h => absurd h hp

/-- A write of a whole word presents its value. -/
@[simp] theorem ctlWord_whole (old v : W64) (off : Nat) : ctlWord old v off 8 = v := rfl

theorem getElem_halves (a b : W32) {i : Nat} (hi : i < 64) : (a ++ b : W64)[i] = if h : i < 32 then b[i] else a[i - 32] :=
  BitVec.getElem_append ..

/-- The mask of the low half. -/
theorem getElem_lowMask {i : Nat} (hi : i < 64) : (0xFFFFFFFF : W64)[i] = decide (i < 32) :=
  (by decide : ∀ k : Fin 64, (0xFFFFFFFF : W64)[k.val]'k.isLt = decide (k.val < 32)) ⟨i, hi⟩

/-- The mask of the high half. -/
theorem getElem_highMask {i : Nat} (hi : i < 64) : (0xFFFFFFFF00000000 : W64)[i] = decide (32 ≤ i) :=
  (by decide : ∀ k : Fin 64, (0xFFFFFFFF00000000 : W64)[k.val]'k.isLt = decide (32 ≤ k.val)) ⟨i, hi⟩

theorem merge_low (old v : W64) : merge old v 0xFFFFFFFF 0 = old.extractLsb' 32 32 ++ v.extractLsb' 0 32 := by
  ext i hi
  rw [getElem_halves _ _ hi]
  simp only [merge, BitVec.getElem_or, BitVec.getElem_and, BitVec.getElem_not, getElem_lowMask hi]
  by_cases h : i < 32
  · simp [h, BitVec.getLsbD_eq_getElem hi]
  · simp [h, Nat.add_sub_cancel' (Nat.le_of_not_lt h), hi]

theorem merge_high (old v : W64) : merge old (v <<< 32) 0xFFFFFFFF00000000 0 = v.extractLsb' 0 32 ++ old.extractLsb' 0 32 := by
  ext i hi
  rw [getElem_halves _ _ hi]
  simp only [merge, BitVec.getElem_or, BitVec.getElem_and, BitVec.getElem_not, getElem_highMask hi, BitVec.getElem_shiftLeft]
  by_cases h : i < 32
  · simp [h, Nat.not_le.mpr h, BitVec.getLsbD_eq_getElem hi]
  · simp [h, Nat.le_of_not_lt h, BitVec.getLsbD_eq_getElem (Nat.lt_of_le_of_lt (Nat.sub_le i 32) hi)]

/-- A write of the low half keeps the high one, where the register has no W1C bits. -/
theorem ctlWord_low {off : Nat} (old v : W64) (h8 : off % 8 = 0) (hw : w1cBits off = 0) :
    ctlWord old v off 4 = old.extractLsb' 32 32 ++ v.extractLsb' 0 32 := by
  have h4 : ¬ off % 8 = 4 := by omega
  rw [ctlWord, if_neg (by decide), if_neg h4, hw, merge_low]

/-- A write of the high half keeps the low one. -/
theorem ctlWord_high {off : Nat} (old v : W64) (h8 : off % 8 = 0) (hw : w1cBits off = 0) :
    ctlWord old v (off + 4) 4 = v.extractLsb' 0 32 ++ old.extractLsb' 0 32 := by
  have h4 : (off + 4) % 8 = 4 := by omega
  rw [ctlWord, if_neg (by decide), if_pos h4, Nat.add_sub_cancel, hw, merge_high]

/-- A register that reads back the bits of a mask, whatever is written (R8: RW), and has no W1C bits. -/
def ReadsBack (s : State) (d off : Nat) (mask : W64) : Prop :=
  off % 8 = 0 ∧ w1cBits off = 0 ∧ (∃ old, ctlRead s d off = some old) ∧ ∀ v, ctlRead (ctlPut s d off v) d off = some (v &&& mask)

/-- A register that takes no write (R8: RO). -/
def TakesNothing (s : State) (d off : Nat) : Prop := off % 8 = 0 ∧ ∀ v, ctlPut s d off v = s

section
variable {s : State} {d off : Nat} (up : s.dieEnabled d = true ∧ (s.die d).bootPhase ≠ 0 ∧ (s.die d).bootPhase ≠ 5)
include up

/-- A whole write of a word that is assigned. -/
theorem whole_does {old : W64} (v : W64) (h8 : off % 8 = 0) (hr : ctlRead s d off = some old) :
    exec (.controlRegisterWrite false d off 8 v) s = .next (ctlPut s d off v) := by
  rw [exec_controlRegisterWrite v up (.inr rfl) h8, ctlWrite]
  simp [h8, hr]

/-- An offset that no block assigns takes nothing. -/
theorem unassigned_answers (v : W64) (h8 : off % 8 = 0) (hr : ctlRead s d off = none) : Answers (.controlRegisterWrite false d off 8 v) s s := by
  rw [Answers, exec_controlRegisterWrite v up (.inr rfl) h8, ctlWrite]
  simp [h8, hr]

theorem readsBack_whole {mask : W64} (v : W64) (h : ReadsBack s d off mask) :
    Does (.controlRegisterWrite false d off 8 v) s fun u => ctlRead u d off = some (v &&& mask) := by
  obtain ⟨h8, -, ⟨old, hr⟩, hp⟩ := h
  exact ⟨_, whole_does up v h8 hr, hp v⟩

theorem readsBack_low {mask old : W64} (v : W64) (h : ReadsBack s d off mask) (hr : ctlRead s d off = some old) :
    Does (.controlRegisterWrite false d off 4 v) s fun u => ctlRead u d off = some ((old.extractLsb' 32 32 ++ v.extractLsb' 0 32) &&& mask) := by
  obtain ⟨h8, hw, -, hp⟩ := h
  refine ⟨_, exec_controlRegisterWrite v up (.inl rfl) (by omega), ?_⟩
  simp only [ctlWrite, h8, Nat.sub_zero, hr, ctlWord_low old v h8 hw, hp]

theorem readsBack_high {mask old : W64} (v : W64) (h : ReadsBack s d off mask) (hr : ctlRead s d off = some old) :
    Does (.controlRegisterWrite false d (off + 4) 4 v) s fun u =>
      ctlRead u d off = some ((v.extractLsb' 0 32 ++ old.extractLsb' 0 32) &&& mask) := by
  obtain ⟨h8, hw, -, hp⟩ := h
  have ho : off + 4 - (off + 4) % 8 = off := by omega
  refine ⟨_, exec_controlRegisterWrite v up (.inl rfl) (by omega), ?_⟩
  simp only [ctlWrite, ho, hr, ctlWord_high old v h8 hw, hp]

theorem takesNothing_answers {o n : Nat} (v : W64) (h : TakesNothing s d off) (hn : n = 4 ∨ n = 8) (ho : o % n = 0) (hw : o - o % 8 = off) :
    Answers (.controlRegisterWrite false d o n v) s s := by
  rw [Answers, exec_controlRegisterWrite v up hn ho, ctlWrite]
  simp only [hw, h.2]
  split <;> rfl

end

/-! Members of regular groups -/

theorem memberAt_some {o base step n i : Nat} (hb : base ≤ o) (hm : (o - base) % step = 0) (hi : (o - base) / step = i) (hn : i < n) :
    memberAt o base step n = some i := by simp [memberAt, hb, hm, hi, hn]

theorem memberAt_none {o base step n : Nat} (h : ¬ (base ≤ o ∧ (o - base) % step = 0 ∧ (o - base) / step < n)) : memberAt o base step n = none := by
  simpa [memberAt, and_assoc] using h

theorem clusterBlock_member {c o : Nat} (d : Nat) (hc : c < 80) (ho : o < 0x100) : clusterBlock d (o + 0x100 * c) = some (d * 80 + c, o) := by
  have h1 : o + 0x100 * c < 0x5000 := by omega
  have h2 : (o + 0x100 * c) / 0x100 = c := by omega
  have h3 : (o + 0x100 * c) % 0x100 = o := by omega
  simp [clusterBlock, h1, h2, h3]

/-! RW registers -/

/-- The RW registers of the spire (R299, R300), each with its assigned bits. -/
def spireRw : List (Nat × W64) :=
  [(0x100000, 0x3FFFFFFFFFC0), (0x100020, 0xFFFFFFFFFFFFF), (0x100028, 0xFFFFFFFFFFFFF), (0x100030, 0xFFFFFFFFFFFFF), (0x100038, 0xFFFFFFFFFFFFF),
   (0x100050, 0x3FFFFFFFFFC0), (0x100058, BitVec.allOnes 64)]

theorem spire_readsBack (s : State) (d : Nat) : ∀ r ∈ spireRw, ReadsBack s d r.1 r.2 := by
  simp only [spireRw, List.forall_mem_cons, List.not_mem_nil, false_implies, implies_true, and_true]
  exact ⟨⟨rfl, rfl, ⟨_, rfl⟩, fun _ => rfl⟩, ⟨rfl, rfl, ⟨_, rfl⟩, fun _ => rfl⟩, ⟨rfl, rfl, ⟨_, rfl⟩, fun _ => rfl⟩,
    ⟨rfl, rfl, ⟨_, rfl⟩, fun _ => rfl⟩, ⟨rfl, rfl, ⟨_, rfl⟩, fun _ => rfl⟩, ⟨rfl, rfl, ⟨_, rfl⟩, fun _ => rfl⟩,
    ⟨rfl, rfl, ⟨_, rfl⟩, fun v => by rw [BitVec.and_allOnes]; rfl⟩⟩

section
variable (s : State) (d : Nat) {c i : Nat}

/-- The translation block of a cluster stands in mebibyte 4, its tile-walk block in mebibyte 8. -/
theorem ctlRead_trans {off o : Nat} (hc : c < 80) (ho : o < 0x100) (h : off = 0x400000 + (o + 0x100 * c)) :
    ctlRead s d off = transRead (s.cluster (d * 80 + c)) o := by
  have hq : off / 0x100000 = 4 := by omega
  have hr : off % 0x100000 = o + 0x100 * c := by omega
  simp only [ctlRead, hq, hr, clusterBlock_member d hc ho, Option.bind_some]

theorem ctlPut_trans {off o : Nat} (hc : c < 80) (ho : o < 0x100) (h : off = 0x400000 + (o + 0x100 * c)) (v : W64) :
    ctlPut s d off v = transWrite s (d * 80 + c) o v := by
  have hq : off / 0x100000 = 4 := by omega
  have hr : off % 0x100000 = o + 0x100 * c := by omega
  simp only [ctlPut, hq, hr, clusterBlock_member d hc ho]

theorem ctlRead_walk {off o : Nat} (hc : c < 80) (ho : o < 0x100) (h : off = 0x800000 + (o + 0x100 * c)) :
    ctlRead s d off = walkRead (s.cluster (d * 80 + c)) o := by
  have hq : off / 0x100000 = 8 := by omega
  have hr : off % 0x100000 = o + 0x100 * c := by omega
  simp only [ctlRead, hq, hr, clusterBlock_member d hc ho, Option.bind_some]

theorem ctlPut_walk {off o : Nat} (hc : c < 80) (ho : o < 0x100) (h : off = 0x800000 + (o + 0x100 * c)) (v : W64) :
    ctlPut s d off v = walkWrite s (d * 80 + c) o v := by
  have hq : off / 0x100000 = 8 := by omega
  have hr : off % 0x100000 = o + 0x100 * c := by omega
  simp only [ctlPut, hq, hr, clusterBlock_member d hc ho]

/-- No W1C bits stand in the blocks without any. -/
theorem w1cBits_none {off : Nat} (h1 : 0x200000 ≤ off) (h4 : off / 0x100000 = 4 → off % 0x100 ≠ 0) (h5 : off ≠ 0x503018) : w1cBits off = 0 := by
  have ha : off ≠ 0x100008 := by omega
  have hb : off ≠ 0x100048 := by omega
  have hc : ¬ (off / 0x100000 = 4 ∧ off % 0x100 = 0) := fun h => h4 h.1 h.2
  simp [w1cBits, ha, hb, hc, h5]

/-- FB_NOTIFY (R351). -/
theorem fbNotify_readsBack (hc : c < 80) : ReadsBack s d (0x400008 + 0x100 * c) 0x1FFFF := by
  have at_ : 0x400008 + 0x100 * c = 0x400000 + (8 + 0x100 * c) := by omega
  refine ⟨by omega, w1cBits_none (by omega) (by omega) (by omega), ⟨_, ctlRead_trans s d hc (by decide) at_⟩, fun v => ?_⟩
  rw [ctlPut_trans s d hc (by decide) at_, ctlRead_trans _ d hc (by decide) at_]
  simp [transRead, transWrite, notifyBits]

/-- TW_BASE, TW_LEN and TW_NOTIFY of a cluster (R408). -/
def walkRw (c : Nat) : List (Nat × W64) :=
  [(0x800008 + 0x100 * c, 0xFFFFFFFFFFFE0), (0x800010 + 0x100 * c, 0xFFFFFFFFFF), (0x800038 + 0x100 * c, 0x1FFFF)]

theorem walk_readsBack (hc : c < 80) : ∀ r ∈ walkRw c, ReadsBack s d r.1 r.2 := by
  have row (o : Nat) (mask : W64) (ho : o < 0x100) (h8 : o % 8 = 0) {old} (hr : walkRead (s.cluster (d * 80 + c)) o = some old)
      (hw : ∀ v, walkRead ((walkWrite s (d * 80 + c) o v).cluster (d * 80 + c)) o = some (v &&& mask)) :
      ReadsBack s d (0x800000 + (o + 0x100 * c)) mask :=
    ⟨by omega, w1cBits_none (by omega) (by omega) (by omega), ⟨old, (ctlRead_walk s d hc ho rfl).trans hr⟩,
      fun v => by rw [ctlPut_walk s d hc ho rfl, ctlRead_walk _ d hc ho rfl, hw]⟩
  have at_ (o : Nat) : 0x800000 + o + 0x100 * c = 0x800000 + (o + 0x100 * c) := by omega
  simp only [walkRw, List.forall_mem_cons, List.not_mem_nil, false_implies, implies_true, and_true]
  exact ⟨at_ 8 ▸ row 8 _ (by decide) rfl rfl fun v => by simp [walkRead, walkWrite],
    at_ 0x10 ▸ row 0x10 _ (by decide) rfl rfl fun v => by simp [walkRead, walkWrite],
    at_ 0x38 ▸ row 0x38 _ (by decide) rfl rfl fun v => by simp [walkRead, walkWrite, notifyBits]⟩

/-- The number and the offset of a block of the window. -/
theorem block_offset {off b o : Nat} (h : off = b * 0x100000 + o) (ho : o < 0x100000) : off / 0x100000 = b ∧ off % 0x100000 = o := by omega

/-- A route (R394). -/
theorem route_readsBack (hi : i < 256) : ReadsBack s d (0x502000 + 8 * i) 0x1F := by
  obtain ⟨hq, hr⟩ := block_offset (off := 0x502000 + 8 * i) (b := 5) (o := 0x2000 + 8 * i) (by omega) (by omega)
  have entry : memberAt (0x2000 + 8 * i) 0x1000 8 512 = none := memberAt_none (by omega)
  have route : memberAt (0x2000 + 8 * i) 0x2000 8 256 = some i := memberAt_some (by omega) (by omega) (by omega) hi
  refine ⟨by omega, w1cBits_none (by omega) (by omega) (by omega), ?_, fun v => ?_⟩
  · simp [ctlRead, hq, hr, fabricRead, entry, route]
  · simp [ctlRead, ctlPut, hq, hr, fabricRead, fabricWrite, entry, route]

/-- The arrival log's base, length and end (R419). -/
def alogRw : List (Nat × W64) := [(0x503000, 0x3FFFFFFFF000), (0x503008, ~~~0xFFF), (0x503028, BitVec.allOnes 64)]

theorem alog_readsBack : ∀ r ∈ alogRw, ReadsBack s d r.1 r.2 := by
  simp only [alogRw, List.forall_mem_cons, List.not_mem_nil, false_implies, implies_true, and_true]
  exact ⟨⟨rfl, rfl, ⟨_, rfl⟩, fun _ => rfl⟩, ⟨rfl, rfl, ⟨_, rfl⟩, fun _ => rfl⟩, ⟨rfl, rfl, ⟨_, rfl⟩, fun v => by rw [BitVec.and_allOnes]; rfl⟩⟩

/-- A region of the host block's table (R414): its base with its size. -/
theorem regionLow_readsBack (hi : i < 256) : ReadsBack s d (0x601000 + 16 * i) 0x3FFFFFFFF00F := by
  obtain ⟨hq, hr⟩ := block_offset (off := 0x601000 + 16 * i) (b := 6) (o := 0x1000 + 16 * i) (by omega) (by omega)
  have port : ¬ 0x1000 + 16 * i < 0x400 := by omega
  have low : memberAt (0x1000 + 16 * i) 0x1000 16 256 = some i := memberAt_some (by omega) (by omega) (by omega) hi
  refine ⟨by omega, w1cBits_none (by omega) (by omega) (by omega), ?_, fun v => ?_⟩
  · simp [ctlRead, hq, hr, hostRead, port, low]
  · simp [ctlRead, ctlPut, hq, hr, hostRead, hostWrite, port, low]

/-- A region of the host block's table (R414): its other word. -/
theorem regionHigh_readsBack (hi : i < 256) : ReadsBack s d (0x601008 + 16 * i) (BitVec.allOnes 64) := by
  obtain ⟨hq, hr⟩ := block_offset (off := 0x601008 + 16 * i) (b := 6) (o := 0x1008 + 16 * i) (by omega) (by omega)
  have port : ¬ 0x1008 + 16 * i < 0x400 := by omega
  have low : memberAt (0x1008 + 16 * i) 0x1000 16 256 = none := memberAt_none (by omega)
  have high : memberAt (0x1008 + 16 * i) 0x1008 16 256 = some i := memberAt_some (by omega) (by omega) (by omega) hi
  refine ⟨by omega, w1cBits_none (by omega) (by omega) (by omega), ?_, fun v => ?_⟩
  · simp [ctlRead, hq, hr, hostRead, port, low, high]
  · rw [BitVec.and_allOnes]
    simp [ctlRead, ctlPut, hq, hr, hostRead, hostWrite, port, low, high]

/-- Base, length and write position of the stop area (R443). -/
def stopAreaRw : List (Nat × W64) := [(0x900000, 0x3FFFFFFFFFC0), (0x900008, BitVec.allOnes 64), (0x900020, BitVec.allOnes 64)]

theorem stopArea_readsBack : ∀ r ∈ stopAreaRw, ReadsBack s d r.1 r.2 := by
  simp only [stopAreaRw, List.forall_mem_cons, List.not_mem_nil, false_implies, implies_true, and_true]
  exact ⟨⟨rfl, rfl, ⟨_, rfl⟩, fun _ => rfl⟩, ⟨rfl, rfl, ⟨_, rfl⟩, fun v => by rw [BitVec.and_allOnes]; rfl⟩,
    ⟨rfl, rfl, ⟨_, rfl⟩, fun v => by rw [BitVec.and_allOnes]; rfl⟩⟩

theorem debugRead_word {o w : Nat} (h : memberAt o 0x100 8 32 = some w) (hw : w % 4 ≠ 3) : debugRead s o = some (sget 0 s.dbg.bp w) := by
  unfold debugRead
  split
  case h_6 => simp [h, hw]
  all_goals simp [memberAt] at h

/-- The bits that a word of a watch entry keeps (R443). -/
def watchBits (w : Nat) : W64 := match w % 4 with | 1 => 0xFFFFFFFFFFFF | 2 => 0xFFFFFFFFFFFFF | _ => BitVec.allOnes 64

theorem debugWrite_word {o w : Nat} (v : W64) (h : memberAt o 0x100 8 32 = some w) :
    debugWrite s o v = { s with dbg := { s.dbg with bp := sset 0 s.dbg.bp w (v &&& watchBits w) } } := by
  unfold debugWrite
  split
  case h_5 =>
    simp only [h, watchBits]
    split <;> simp only [*, BitVec.and_allOnes]
  all_goals simp [memberAt] at h

/-- A word of a watch entry (R443, R444). -/
theorem watchWord_readsBack {w : Nat} (hi : i < 8) (hw : w < 3) : ReadsBack s d (0x900100 + 8 * w + 32 * i) (watchBits w) := by
  obtain ⟨hq, hr⟩ := block_offset (off := 0x900100 + 8 * w + 32 * i) (b := 9) (o := 0x100 + 8 * w + 32 * i) (by omega) (by omega)
  have word : memberAt (0x100 + 8 * w + 32 * i) 0x100 8 32 = some (w + 4 * i) := memberAt_some (by omega) (by omega) (by omega) (by omega)
  have h3 : (w + 4 * i) % 4 ≠ 3 := by omega
  have bits : watchBits (w + 4 * i) = watchBits w := by simp [watchBits]
  refine ⟨by omega, w1cBits_none (by omega) (by omega) (by omega), ?_, fun v => ?_⟩
  · simp [ctlRead, hq, hr, debugRead_word _ word h3]
  · simp [ctlRead, ctlPut, hq, hr, debugRead_word _ word h3, debugWrite_word _ _ word, bits]

/-- The three words of a watch entry. -/
def watchRw (i : Nat) : List (Nat × W64) :=
  [(0x900100 + 32 * i, BitVec.allOnes 64), (0x900108 + 32 * i, 0xFFFFFFFFFFFF), (0x900110 + 32 * i, 0xFFFFFFFFFFFFF)]

theorem watch_readsBack (hi : i < 8) : ∀ r ∈ watchRw i, ReadsBack s d r.1 r.2 := by
  simp only [watchRw, List.forall_mem_cons, List.not_mem_nil, false_implies, implies_true, and_true]
  exact ⟨watchWord_readsBack s d (w := 0) hi (by decide), watchWord_readsBack s d (w := 1) hi (by decide), watchWord_readsBack s d (w := 2) hi (by decide)⟩

/-- Error log and corrected-error count of a die (R457). -/
def bootRw : List (Nat × W64) := [(0xA00008, 0x3FFFFFFFFFC0), (0xA00010, ~~~63), (0xA00020, BitVec.allOnes 64), (0xA00028, 0x1FFFF)]

theorem boot_readsBack : ∀ r ∈ bootRw, ReadsBack s d r.1 r.2 := by
  simp only [bootRw, List.forall_mem_cons, List.not_mem_nil, false_implies, implies_true, and_true]
  exact ⟨⟨rfl, rfl, ⟨_, rfl⟩, fun v => by simp [ctlRead, ctlPut, bootRead, bootWrite]⟩,
    ⟨rfl, rfl, ⟨_, rfl⟩, fun v => by simp [ctlRead, ctlPut, bootRead, bootWrite]⟩,
    ⟨rfl, rfl, ⟨_, rfl⟩, fun v => by rw [BitVec.and_allOnes]; simp [ctlRead, ctlPut, bootRead, bootWrite]⟩,
    ⟨rfl, rfl, ⟨_, rfl⟩, fun v => by simp [ctlRead, ctlPut, bootRead, bootWrite, notifyBits]⟩⟩

/-! RO registers -/

/-- The harvest block takes nothing (R302, R462). -/
theorem harvest_takesNothing {off : Nat} (h8 : off % 8 = 0) (ho : off < 0x100000) : TakesNothing s d off := by
  obtain ⟨hq, -⟩ := block_offset (off := off) (b := 0) (o := off) (by omega) ho
  exact ⟨h8, fun v => by simp [ctlPut, hq]⟩

/-- A cluster's fault-buffer entries take nothing (R351). -/
theorem faultBuffer_takesNothing (hc : c < 80) (hi : i < 16) : TakesNothing s d (0x400040 + 0x100 * c + 8 * i) := by
  refine ⟨by omega, fun v => ?_⟩
  rw [ctlPut_trans s d (o := 0x40 + 8 * i) hc (by omega) (by omega), transWrite] <;> omega

/-- The tile-walk registers that software does not write (R408). -/
theorem walk_takesNothing {off o : Nat} (hc : c < 80) (h : off = 0x800000 + (o + 0x100 * c)) (h8 : o % 8 = 0) (lo : 0x18 ≤ o) (hi : o < 0x38) :
    TakesNothing s d off := by
  refine ⟨by omega, fun v => ?_⟩
  rw [ctlPut_walk s d (o := o) hc (by omega) h, walkWrite] <;> omega

/-- The control window writes nothing of the host block but the region table (R416, R417). -/
theorem host_takesNothing {off o : Nat} (h : off = 0x600000 + o) (h8 : o % 8 = 0) (ho : o < 0x1000 ∨ (0x2000 ≤ o ∧ o < 0x100000)) : TakesNothing s d off := by
  obtain ⟨hq, hr⟩ := block_offset (off := off) (b := 6) (o := o) h (by omega)
  have low : memberAt o 0x1000 16 256 = none := memberAt_none (by omega)
  have high : memberAt o 0x1008 16 256 = none := memberAt_none (by omega)
  exact ⟨by omega, fun v => by simp [ctlPut, hq, hr, hostWrite, low, high]⟩

/-- The registers of one offset that take nothing (R299, R331, R419, R432, R443, R457). -/
def singleRo : List Nat := [0x100010, 0x300000, 0x503010, 0x503020, 0x503030, 0x700008, 0x700010, 0x700018, 0x900018, 0xA00000, 0xA00018]

theorem single_takesNothing : ∀ o ∈ singleRo, TakesNothing s d o := by
  simp only [singleRo, List.forall_mem_cons, List.not_mem_nil, false_implies, implies_true, and_true]
  exact ⟨⟨rfl, fun _ => rfl⟩, ⟨rfl, fun _ => rfl⟩, ⟨rfl, fun _ => rfl⟩, ⟨rfl, fun _ => rfl⟩, ⟨rfl, fun _ => rfl⟩, ⟨rfl, fun _ => rfl⟩,
    ⟨rfl, fun _ => rfl⟩, ⟨rfl, fun _ => rfl⟩, ⟨rfl, fun _ => rfl⟩, ⟨rfl, fun _ => rfl⟩, ⟨rfl, fun _ => rfl⟩⟩

end

/-! Registers with fields of their own -/

/-- ASTAB: an lsize of 13 to 15 reads as 12 (R331). -/
theorem astabRead_written (s : State) (v : W64) : astabRead { s with astab := v &&& 0x3FFFFFFFF00F } =
    if (v.extractLsb' 0 4).toNat ≤ 12 then v &&& 0x3FFFFFFFF00F else (v &&& 0x3FFFFFFFF000) ||| 12 := by
  have size : (v &&& 0x3FFFFFFFF00F).extractLsb' 0 4 = v.extractLsb' 0 4 := by
    rw [BitVec.extractLsb'_and]
    exact BitVec.and_allOnes
  have rest : v &&& 0x3FFFFFFFF00F &&& ~~~15 = v &&& 0x3FFFFFFFF000 := by rw [BitVec.and_assoc]; rfl
  simp only [astabRead, size, rest]
  by_cases h : (v.extractLsb' 0 4).toNat ≤ 12
  · rw [if_neg (by omega), if_pos h]
  · rw [if_pos (by omega), if_neg h]

theorem clampTo_range (lo hi v : Nat) (h : lo ≤ hi) : lo ≤ clampTo lo hi v ∧ clampTo lo hi v ≤ hi := by unfold clampTo; omega

/-- The fields of a GOV_CFG that is written are the clamped ones, and the rest is zero (R432). -/
theorem govCfg_fields (v : W64) :
    ((govCfg v).extractLsb' 0 9).toNat = max 10 (min 400 (v.extractLsb' 0 9).toNat)
    ∧ ((govCfg v).extractLsb' 9 9).toNat = max 10 (min 400 (v.extractLsb' 9 9).toNat) ∧ (govCfg v).extractLsb' 18 2 = 0
    ∧ ((govCfg v).extractLsb' 20 12).toNat = max 100 (min 4000 (v.extractLsb' 20 12).toNat) ∧ (govCfg v).extractLsb' 32 32 = 0 := by
  have rise := clampTo_range 10 400 (v.extractLsb' 0 9).toNat (by omega)
  have fall := clampTo_range 10 400 (v.extractLsb' 9 9).toNat (by omega)
  have start := clampTo_range 100 4000 (v.extractLsb' 20 12).toNat (by omega)
  change _ = clampTo 10 400 _ ∧ _ = clampTo 10 400 _ ∧ _ ∧ _ = clampTo 100 4000 _ ∧ _
  unfold govCfg
  generalize clampTo 10 400 (v.extractLsb' 0 9).toNat = r at *
  generalize clampTo 10 400 (v.extractLsb' 9 9).toNat = f at *
  generalize clampTo 100 4000 (v.extractLsb' 20 12).toNat = c at *
  have word : (BitVec.ofNat 64 (r + f * 2 ^ 9 + c * 2 ^ 20)).toNat = r + f * 2 ^ 9 + c * 2 ^ 20 := by
    rw [BitVec.toNat_ofNat]; omega
  have field (k n : Nat) : ((BitVec.ofNat 64 (r + f * 2 ^ 9 + c * 2 ^ 20)).extractLsb' k n).toNat = (r + f * 2 ^ 9 + c * 2 ^ 20) / 2 ^ k % 2 ^ n := by
    rw [BitVec.extractLsb'_toNat, word, Nat.shiftRight_eq_div_pow]
  refine ⟨(field 0 9).trans (by omega), (field 9 9).trans (by omega), BitVec.eq_of_toNat_eq ((field 18 2).trans ?_), (field 20 12).trans (by omega),
    BitVec.eq_of_toNat_eq ((field 32 32).trans ?_)⟩
  · show _ = 0
    omega
  · show _ = 0
    omega

/-- LQ_CFG: 21 RW bits, one W1C bit (R299). -/
theorem lqCfg_fields (p v : W64) : let w : W64 := (v &&& 0x1FFFFF) ||| (p &&& ~~~v &&& 0x200000)
    w.extractLsb' 0 21 = v.extractLsb' 0 21 ∧ w.getLsbD 21 = (p.getLsbD 21 && !v.getLsbD 21) ∧ w.extractLsb' 22 42 = 0 := by
  have low : (0x1FFFFF : W64).extractLsb' 0 21 = BitVec.allOnes 21 := rfl
  have bit : (0x200000 : W64).extractLsb' 0 21 = 0#21 := rfl
  have high : (0x1FFFFF : W64).extractLsb' 22 42 = 0#42 ∧ (0x200000 : W64).extractLsb' 22 42 = 0#42 := ⟨rfl, rfl⟩
  refine ⟨?_, ?_, ?_⟩
  · simp only [BitVec.extractLsb'_or, BitVec.extractLsb'_and, low, bit, BitVec.and_allOnes, BitVec.and_zero, BitVec.or_zero]
  · simp
  · simp only [BitVec.extractLsb'_or, BitVec.extractLsb'_and, high, BitVec.and_zero, BitVec.or_zero]; rfl

/-! The management port (R416, R464) -/

/-- The bits that a register of a host port keeps (R416). -/
def portBits (i : Nat) : W64 := match i with | 0 => 0x3FFFF | 1 => 0xFFFFFFFFFFFF | 2 => 0xFFFFFFFF | _ => BitVec.allOnes 64

theorem hp_hpWrite {i : Nat} (s : State) (p : Nat) (v : W64) (hi : i < 5) : (hpWrite s p i v).hp p i = v &&& portBits i := by
  match i, hi with
  | 0, _ | 1, _ | 2, _ => simp [hpWrite, portBits, State.hp, State.setHp]
  | 3, _ | 4, _ => rw [portBits, BitVec.and_allOnes] <;> simp [hpWrite, State.hp, State.setHp]

/-- Over the management port a register of a host port reads back its bits. -/
theorem port_readsBack {s : State} {d p i : Nat} (v : W64) (up : s.dieEnabled d = true ∧ (s.die d).bootPhase ≠ 0 ∧ (s.die d).bootPhase ≠ 5)
    (hp : p < 4) (hi : i < 5) : Does (.controlRegisterWrite true d (0x600000 + 0x100 * p + 8 * i) 8 v) s fun u =>
      ctlRead u d (0x600000 + 0x100 * p + 8 * i) = some (v &&& portBits i) := by
  obtain ⟨he, h0, h5⟩ := up
  obtain ⟨hq, hr⟩ := block_offset (off := 0x600000 + 0x100 * p + 8 * i) (b := 6) (o := 0x100 * p + 8 * i) (by omega) (by omega)
  have h8 : (0x600000 + 0x100 * p + 8 * i) % 8 = 0 := by omega
  have inPorts : 0x100 * p + 8 * i < 0x400 ∧ (0x100 * p + 8 * i) / 0x100 = p ∧ (0x100 * p + 8 * i) % 0x100 = 8 * i := by omega
  obtain ⟨ho, hport, hword⟩ := inPorts
  have reads (u : State) : ctlRead u d (0x600000 + 0x100 * p + 8 * i) = some (u.hp p i) := by
    have h5 : i ≠ 5 := by omega
    have h38 : 8 * i < 0x38 := by omega
    simp [ctlRead, hq, hr, hostRead, ho, hport, hword, h38, hpRead, h5]
  refine ⟨hpWrite s p i v, ?_, (reads _).trans (congrArg some (hp_hpWrite s p v hi))⟩
  have hphase : ¬ ((s.die d).bootPhase = 0 ∨ (s.die d).bootPhase = 5) := not_or.mpr ⟨h0, h5⟩
  show execControlRegisterWrite true d _ 8 v s = _
  simpa [execControlRegisterWrite, he, h8, hq, hr, reads, mgmtWrite, ho, hport, hword] using fun h => absurd h hphase

/-! The obligation -/

/-- Settles O52: each register of the lists is one that reads back its mask or one that takes nothing, and what a write of either kind
does follows from that; the registers with clamped or W1C fields and those of the host ports have lemmas of their own. -/
theorem controlRegistersKeepTheirAccess : Obligations.ControlRegistersKeepTheirAccess := by
  intro s d c i p v old he h0 h5 hc hi hp
  have up := And.intro he (And.intro h0 h5)
  have hm8 : i % 8 < 8 := Nat.mod_lt _ (by decide)
  have hm16 : i % 16 < 16 := Nat.mod_lt _ (by decide)
  refine ⟨fun r hr => ?_, fun o ho => ?_, fun o h8 hr => unassigned_answers up v h8 hr, ?_, ?_, ?_, ?_, ?_, ?_⟩
  · have rows : ∀ r ∈ spireRw ++ ([(0x400008 + 0x100 * c, 0x1FFFF)] ++ ([(0x502000 + 8 * i, 0x1F)] ++ (alogRw ++ ([(0x601000 + 16 * i, 0x3FFFFFFFF00F)]
        ++ ([(0x601008 + 16 * i, BitVec.allOnes 64)] ++ (walkRw c ++ (stopAreaRw ++ (watchRw (i % 8) ++ bootRw)))))))), ReadsBack s d r.1 r.2 := by
      simp only [List.forall_mem_append, List.forall_mem_singleton]
      exact ⟨spire_readsBack s d, fbNotify_readsBack s d hc, route_readsBack s d hi, alog_readsBack s d, regionLow_readsBack s d hi,
        regionHigh_readsBack s d hi, walk_readsBack s d hc, stopArea_readsBack s d, watch_readsBack s d hm8, boot_readsBack s d⟩
    have back := rows r hr
    exact ⟨readsBack_whole up v back, fun hold => ⟨readsBack_low up v back hold, readsBack_high up v back hold⟩⟩
  · have single {o : Nat} (h : o ∈ singleRo) := single_takesNothing s d o h
    have nothing : TakesNothing s d o := by
      revert o
      simp only [List.forall_mem_cons]
      exact ⟨harvest_takesNothing s d (by omega) (by omega), harvest_takesNothing s d (by omega) (by omega), harvest_takesNothing s d (by omega) (by omega),
        harvest_takesNothing s d (by omega) (by omega), harvest_takesNothing s d (by omega) (by omega), harvest_takesNothing s d (by omega) (by omega),
        harvest_takesNothing s d (by omega) (by omega), harvest_takesNothing s d (by omega) (by omega),
        single (by decide), single (by decide), faultBuffer_takesNothing s d hc hm16, single (by decide), single (by decide), single (by decide),
        host_takesNothing s d (o := 0x100 * p + 8 * (i % 7)) (by omega) (by omega) (by omega),
        host_takesNothing s d (o := 0x10000 + 8 * i) (by omega) (by omega) (by omega),
        single (by decide), single (by decide), single (by decide),
        walk_takesNothing s d (o := 0x18) hc (by omega) rfl (by decide) (by decide), walk_takesNothing s d (o := 0x20) hc (by omega) rfl (by decide) (by decide),
        walk_takesNothing s d (o := 0x28) hc (by omega) rfl (by decide) (by decide), walk_takesNothing s d (o := 0x30) hc (by omega) rfl (by decide) (by decide),
        single (by decide), single (by decide), single (by decide), nofun⟩
    have h8 := nothing.1
    exact ⟨takesNothing_answers up v nothing (.inr rfl) h8 (by omega), takesNothing_answers up v nothing (.inl rfl) (by omega) (by omega),
      takesNothing_answers up v nothing (.inl rfl) (by omega) (by omega)⟩
  · exact ⟨_, whole_does up v rfl rfl, congrArg some (astabRead_written s v)⟩
  · obtain ⟨rise, fall, between, start, above⟩ := govCfg_fields v
    exact ⟨_, whole_does up v rfl rfl, _, rfl, rise, fall, between, start, above, rfl⟩
  · refine ⟨_, whole_does up v rfl rfl, ?_⟩
    have := clampTo_range 1 (2 ^ 32 - 1) v.toNat (by omega)
    exact (BitVec.toNat_ofNat ..).trans (Nat.mod_eq_of_lt (by omega))
  · exact ⟨_, whole_does up v rfl rfl, lqCfg_fields s.spire.lqCfg v⟩
  · refine ⟨_, whole_does up v rfl rfl, ?_⟩
    show (s.spire.jobStat &&& ~~~(v &&& 0x1000000000)).getLsbD 36 = _
    simp
  · simp only [List.forall_mem_cons, List.not_mem_nil, false_implies, implies_true, and_true]
    exact ⟨port_readsBack (i := 0) v up hp (by decide), port_readsBack (i := 1) v up hp (by decide), port_readsBack (i := 2) v up hp (by decide),
      port_readsBack (i := 3) v up hp (by decide), port_readsBack (i := 4) v up hp (by decide)⟩

end Sys2Proof.Machine
end

section
/-! PROOFS. What scheduling, the governor and the error log leave of the dies: their maps and which of them are enabled. -/

namespace Sys2Proof.Machine

open Sys2Proof.Safety

/-- The dies and which of them are enabled. -/
def State.dieSide (s : State) : Sparse Die × BitVec 8 := (s.dies, s.enabled)

theorem State.dies_of_dieSide {s t : State} (h : t.dieSide = s.dieSide) : t.dies = s.dies := congrArg Prod.fst h
theorem State.die_of_dieSide {s t : State} (h : t.dieSide = s.dieSide) (d : Nat) : t.die d = s.die d := by
  unfold State.die; rw [State.dies_of_dieSide h]
theorem State.dieEnabled_of_dieSide {s t : State} (h : t.dieSide = s.dieSide) : t.dieEnabled = s.dieEnabled := by
  funext d; unfold State.dieEnabled; rw [show t.enabled = s.enabled from congrArg Prod.snd h]

/-- A fold of steps that each keep a part of the state keeps it. -/
theorem foldl_keeps {α β σ : Type} (p : σ → β) (f : σ → α → σ) (h : ∀ x a, p (f x a) = p x) (l : List α) (x : σ) : p (l.foldl f x) = p x := by
  induction l generalizing x with
  | nil => rfl
  | cons a l ih => exact (ih (f x a)).trans (h x a)

@[simp] theorem dieSide_foldl {α : Type} (f : State → α → State) (h : ∀ x a, (f x a).dieSide = x.dieSide) (l : List α) (s : State) :
    (l.foldl f s).dieSide = s.dieSide := foldl_keeps State.dieSide f h l s

/-! Updates -/

@[simp] theorem dieSide_onTask (s : State) (t : BitVec 48) (f : Task → Task) : (s.onTask t f).dieSide = s.dieSide := rfl
@[simp] theorem dieSide_onCore (s : State) (k : Nat) (f : Core → Core) : (s.onCore k f).dieSide = s.dieSide := rfl
@[simp] theorem dieSide_onCounter (s : State) (k n : Nat) (f : Counter → Counter) : (s.onCounter k n f).dieSide = s.dieSide := rfl
@[simp] theorem dieSide_onJob (s : State) (j : W32) (f : Job → Job) : (s.onJob j f).dieSide = s.dieSide := rfl
@[simp] theorem dieSide_post (s : State) (m : Msg) : (s.post m).dieSide = s.dieSide := rfl
@[simp] theorem dieSide_withGov (s : State) (g : Gov) : ({ s with gov := g } : State).dieSide = s.dieSide := rfl
@[simp] theorem dieSide_setHp (s : State) (p i : Nat) (v : W64) : (s.setHp p i v).dieSide = s.dieSide := rfl

@[simp] theorem dieSide_write (s : State) (a : Nat) (bs : List Byte) : (s.write a bs).dieSide = s.dieSide := by
  rw [State.write_same s bs a]; rfl

/-! The state log and the issue slots -/

@[simp] theorem dieSide_ringPut (s : State) (r : Ring) (bs : List Byte) : (ringPut s r bs).1.dieSide = s.dieSide := by
  unfold ringPut
  split
  · rfl
  · dsimp only
    split
    · rfl
    · exact dieSide_write s _ bs

@[simp] theorem dieSide_ringPuts (l : List (List Byte)) (x : State × Ring) :
    (l.foldl (fun (x : State × Ring) b => ringPut x.1 x.2 b) x).1.dieSide = x.1.dieSide :=
  foldl_keeps (fun x : State × Ring => x.1.dieSide) _ (fun x b => dieSide_ringPut x.1 x.2 b) l x

@[simp] theorem dieSide_logSlot (s : State) (k : Nat) : (logSlot s k).dieSide = s.dieSide := by
  unfold logSlot
  dsimp only
  split
  · rfl
  · simp

/-- The high-level half of `dispatch`: a free slot takes the task that has been ready longest (R309, R310). -/
def fillHigh (s : State) (k : Nat) : State :=
  match (s.core k).slotHigh, (s.core k).readyHigh with
  | none, t :: ts =>
    if trapFirst s k || (s.boundTo k).isSome then s
    else (s.onTask t fun x => { x with status := .running, since := s.timebase }).onCore k fun c => { c with slotHigh := some t, readyHigh := ts }
  | _, _ => s

/-- The base-level half of `dispatch` (R309). -/
def fillBase (s : State) (k : Nat) : State :=
  match (s.core k).slotHigh, (s.core k).slotBase, nextBase s k with
  | none, none, some t => (s.onTask t fun x => { x with status := .running, since := s.timebase }).onCore k fun c =>
    { c with slotBase := some t, readyBase := c.readyBase.filter (· ≠ t) }
  | _, _, _ => s

/-- The base-level holder is SUSPENDED while a high-level task is on the core (R310). -/
def markSuspended (s : State) (k : Nat) : State :=
  match (s.core k).slotBase with
  | some t =>
    (s.onTask t fun x => { x with status := if (suspender s k).isSome then .suspended else .running }).onCore k fun c => { c with suspBy := suspender s k }
  | none => s.onCore k fun c => { c with suspBy := none }

theorem dispatch_eq (s : State) (k : Nat) : dispatch s k = logSlot (markSuspended (fillBase (fillHigh s k) k) k) k := rfl

@[simp] theorem dieSide_fillHigh (s : State) (k : Nat) : (fillHigh s k).dieSide = s.dieSide := by
  unfold fillHigh
  split
  · split <;> rfl
  · rfl

@[simp] theorem dieSide_fillBase (s : State) (k : Nat) : (fillBase s k).dieSide = s.dieSide := by unfold fillBase; split <;> rfl

@[simp] theorem dieSide_markSuspended (s : State) (k : Nat) : (markSuspended s k).dieSide = s.dieSide := by unfold markSuspended; split <;> rfl

@[simp] theorem dieSide_dispatch (s : State) (k : Nat) : (dispatch s k).dieSide = s.dieSide := by simp [dispatch_eq]

@[simp] theorem dieSide_makeReady (s : State) (t : BitVec 48) : (makeReady s t).dieSide = s.dieSide := by simp [makeReady]

/-! The governor -/

@[simp] theorem dieSide_settleBallast (s : State) (k : Nat) : (s.settleBallast k).dieSide = s.dieSide := rfl
@[simp] theorem dieSide_settleHeld (s : State) (k : Nat) (j : Option W32) (now : W64) : (settleHeld s k j now).dieSide = s.dieSide := dieSide_onCore ..
@[simp] theorem dieSide_endBallast (s : State) (k : Nat) : (endBallast s k).dieSide = s.dieSide := 
  (dieSide_withGov ..).trans ((dieSide_onCore ..).trans (dieSide_settleBallast s k))

@[simp] theorem dieSide_onWork (s : State) (k : Nat) (f : Core → Core) : (s.onWork k f).dieSide = s.dieSide := by
  simp only [State.onWork]
  split <;> simp

@[simp] theorem dieSide_setGovKind (s : State) (k : Nat) (g : GovKind) : (setGovKind s k g).dieSide = s.dieSide := by
  simp only [setGovKind]
  split <;> simp

@[simp] theorem dieSide_takeTicket (s : State) (k : Nat) (pinned : Bool) : (takeTicket s k pinned).dieSide = s.dieSide := by
  simp only [takeTicket]
  split <;> simp

@[simp] theorem dieSide_govStart (s : State) (k : Nat) (pinned : Bool) : (govStart s k pinned).1.dieSide = s.dieSide := by
  unfold govStart
  split
  · rfl
  · simp
  · dsimp only
    have ticket : (if startDue s k then s else takeTicket s k pinned).dieSide = s.dieSide := by split <;> simp
    generalize (if startDue s k then s else takeTicket s k pinned) = u at ticket ⊢
    split <;> simp [ticket]

@[simp] theorem dieSide_releaseHeldAt (s : State) (k : Nat) (now : W64) : (releaseHeldAt s k now).dieSide = s.dieSide := by simp [releaseHeldAt]

@[simp] theorem dieSide_releaseHeld (s : State) (k : Nat) : (releaseHeld s k).dieSide = s.dieSide := by simp [releaseHeld]

@[simp] theorem dieSide_releaseStart (s : State) (k : Nat) (now : W64) : (releaseStart s k now).dieSide = s.dieSide := by simp [releaseStart]

@[simp] theorem dieSide_wake (s : State) (t : BitVec 48) : (wake s t).dieSide = s.dieSide := by
  unfold wake
  dsimp only
  split
  · rfl
  · split
    · simp
    · split <;> simp

/-! Counter slots and the error log -/

@[simp] theorem dieSide_ragUpdate (s : State) (k n : Nat) (v : W32) : (ragUpdate s k n v).dieSide = s.dieSide := by
  simp only [ragUpdate]
  split <;> simp

@[simp] theorem dieSide_jobRaise (s : State) (j : W32) : (jobRaise s j).dieSide = s.dieSide := rfl

@[simp] theorem dieSide_testCounterTrigger (s : State) (k n : Nat) : (testCounterTrigger s k n).dieSide = s.dieSide := by
  unfold testCounterTrigger
  dsimp only
  split
  · rfl
  · split <;> simp

@[simp] theorem dieSide_completionViolation (s : State) (k n : Nat) (ws : List Task) : (completionViolation s k n ws).dieSide = s.dieSide := by
  unfold completionViolation
  split
  · split <;> simp
  · rfl

@[simp] theorem dieSide_wakeSlot (s : State) (k n : Nat) (completed : Bool) : (wakeSlot s k n completed).dieSide = s.dieSide := by
  cases completed <;> simp [wakeSlot]

@[simp] theorem dieSide_slotUpdate (s : State) (k n : Nat) (f : Counter → Counter) : (slotUpdate s k n f).dieSide = s.dieSide := by simp [slotUpdate]

@[simp] theorem dieSide_notify (s : State) (w : W64) : (notify s w).dieSide = s.dieSide := by
  simp only [notify, slotAdd]
  split
  · split <;> simp
  · rfl

/-! The ramp slot boundary (R423, R426, R429) -/

@[simp] theorem dieSide_closeSlot (s : State) : (closeSlot s).dieSide = s.dieSide :=
  (dieSide_withGov _ _).trans ((dieSide_foldl _ (fun _ _ => dieSide_onCore ..) _ _).trans (dieSide_foldl _ (fun _ _ => dieSide_onCore ..) _ s))

@[simp] theorem dieSide_openSlot (s : State) : (openSlot s).dieSide = s.dieSide := rfl

@[simp] theorem dieSide_taperCore (s : State) (b k : Nat) : (taperCore s b k).1.dieSide = s.dieSide := by
  unfold taperCore
  dsimp only
  split
  · rfl
  · split
    · exact dieSide_logSlot _ k
    · rfl

@[simp] theorem dieSide_taper (s : State) : (taper s).dieSide = s.dieSide :=
  foldl_keeps (fun x : State × Nat => x.1.dieSide) _ (fun x k => dieSide_taperCore x.1 x.2 k) s.gov.order (s, s.gov.fcap - s.gov.fall)

@[simp] theorem dieSide_dueStart (wakes : Bool) (s : State) (k : Nat) : (dueStart wakes s k).dieSide = s.dieSide := by
  cases wakes <;> simp [dueStart]

end Sys2Proof.Machine
end

section
/-! PROOFS. Boot phases, firmware verification, training, full service and recovery (R454 to R459, R462, R463). -/

namespace Sys2Proof.Machine

open Sys2Proof.Safety

/-! Maps built from lists of keys -/

theorem sget_map_keys {α : Type} (d : α) (f : Nat → α) (l : List Nat) {k : Nat} (h : k ∈ l) : sget d (l.map fun k => (k, f k)) k = f k := by
  induction l with
  | nil => simp at h
  | cons a l ih =>
    by_cases ha : k = a
    · simp [sget, ha]
    · simpa [sget, ha] using ih (by simpa [ha] using h)

theorem sget_foldl_sset {α : Type} [DecidableEq α] (d : α) (f : Nat → α) (l : List Nat) (m : List (Nat × α)) (k : Nat) :
    sget d (l.foldl (fun m w => sset d m w (f w)) m) k = if k ∈ l then f k else sget d m k := by
  induction l generalizing m with
  | nil => simp
  | cons a l ih =>
    rw [List.foldl_cons, ih, sget_sset]
    by_cases ha : k = a <;> simp [ha]

/-- A register group reads as the words that were loaded into it. -/
theorem sget_wordsOf {n w : Nat} (f : Nat → W64) (h : w < n) : sget 0 (wordsOf n f) w = f w := by simp [wordsOf, sget_foldl_sset, h]

/-- A change of each die of a list. -/
theorem die_foldl_onDie (f : Die → Die) {l : List Nat} (hl : l.Nodup) (s : State) (d : Nat) :
    (l.foldl (fun s d => s.onDie d f) s).die d = if d ∈ l then f (s.die d) else s.die d := by
  induction l generalizing s with
  | nil => simp
  | cons a l ih =>
    obtain ⟨hna, hn⟩ := List.nodup_cons.mp hl
    by_cases ha : d = a
    · subst ha; simp [ih hn, hna]
    · simp [ih hn, State.die_onDie, ha]

/-! Verification (R458, R459) -/

theorem accepts_iff (s : State) (img : List Byte) : s.accepts img = true ↔
    Config.imageVerifies img = true ∧ (s.trust.floor.getD Config.rollback).toNat ≤ (Config.imageVersion img).toNat := by
  rw [State.accepts, State.floor, Bool.and_eq_true, decide_eq_true_iff]

/-- An image that the ROM accepts has its version fused. -/
theorem verifyFirmware_good {s : State} {img : List Byte} (hi : s.trust.image = some img) (ha : s.accepts img = true) :
    verifyFirmware s = ({ s with trust := { s.trust with floor := some (Config.imageVersion img) } }, true) := by
  simp [verifyFirmware, hi, ha]

/-- Without one the part enters recovery. -/
theorem verifyFirmware_bad {s : State} (h : ∀ img, s.trust.image = some img → s.accepts img ≠ true) : verifyFirmware s = (enterRecovery s, false) := by
  unfold verifyFirmware
  split
  · rename_i img hi
    rw [if_neg (h img hi)]
  · rfl

theorem hp_setHp (s : State) (a i p j : Nat) (v : W64) : (s.setHp a i v).hp p j = if 8 * p + j = 8 * a + i then v else s.hp p j := sget_sset ..

theorem hp_foldl_setHp (l : List Nat) (s : State) (p : Nat) : (l.foldl (fun s p => s.setHp p 5 0) s).hp p 5 = if p ∈ l then 0 else s.hp p 5 := by
  induction l generalizing s with
  | nil => simp
  | cons a l ih =>
    rw [List.foldl_cons, ih, hp_setHp]
    by_cases ha : p = a
    · simp [ha]
    · have hne : 8 * p + 5 ≠ 8 * a + 5 := by omega
      simp only [hne, if_false, List.mem_cons, ha, false_or]

/-- The part is in recovery: every die in phase 5, the host links down. -/
def Recovers (u : State) : Prop := (∀ d < 8, (u.die d).bootPhase = 5) ∧ ∀ p < 4, (u.hp p 5).getLsbD 0 = false

theorem enterRecovery_recovers (s : State) : Recovers (enterRecovery s) := by
  refine ⟨fun d hd => ?_, fun p hp => ?_⟩
  · have links : (enterRecovery s).dieSide = (setPhase s 5).dieSide := dieSide_foldl _ (fun _ _ => dieSide_setHp ..) _ _
    rw [State.die_of_dieSide links, setPhase, die_foldl_onDie _ List.nodup_range]
    simp [hd]
  · rw [enterRecovery, hp_foldl_setHp]
    simp [hp]

/-! The start of phase 0 (R5, R49, R454) -/

theorem core_resetCores {k : Nat} (now : W64) (hk : k < 2560) : sget Core.zero (resetCores now) k = { Core.zero with cycle0 := now } := by
  unfold resetCores
  split
  · subst now; rfl
  · exact sget_map_keys Core.zero _ _ (List.mem_range.mpr hk)

/-- u is the part at the start of phase 0 at a time, with an image that verified and the trust that s has beside it. -/
def Boots (s : State) (now : W64) (u : State) (img : List Byte) : Prop :=
  u.power = .on ∧ u.trust = ⟨some img, s.trust.index, some (Config.imageVersion img)⟩ ∧ (∀ d, (u.die d).bootPhase = 0) ∧ u.tasks = [] ∧ u.net = []
  ∧ (∀ k < 2560, u.core k = { Core.zero with cycle0 := now }) ∧ u.timebase = now ∧ u.gov = { Gov.zero with slot := now.toNat / 1600 }

/-- A restart, whatever it keeps of memory, boots the image that the ROM accepts. -/
theorem restart_boots {s : State} {img : List Byte} (now : W64) (mem : List Host.Cell) (tags : Sparse Tag) (ue : List Nat)
    (hi : s.trust.image = some img) (ha : s.accepts img = true) :
    let u := (verifyFirmware { restart s now with mem := mem, tags := tags, ue := ue }).1
    Boots s now u img ∧ u.mem = mem ∧ u.tags = tags ∧ u.ue = ue := by
  intro u
  have hu : u = { restart s now with mem := mem, tags := tags, ue := ue, trust := { s.trust with floor := some (Config.imageVersion img) } } :=
    congrArg Prod.fst (verifyFirmware_good (s := { restart s now with mem := mem, tags := tags, ue := ue }) hi ha)
  rw [hu]
  exact ⟨⟨rfl, congrArg (fun i => (⟨i, s.trust.index, some (Config.imageVersion img)⟩ : Trust)) hi, fun _ => rfl, rfl, rfl,
    fun k hk => core_resetCores now hk, rfl, rfl⟩, rfl, rfl, rfl⟩

/-- A restart without such an image ends in recovery. -/
theorem restart_recovers {s : State} (now : W64) (mem : List Host.Cell) (tags : Sparse Tag) (ue : List Nat)
    (h : ∀ img, s.trust.image = some img → s.accepts img ≠ true) :
    Recovers (verifyFirmware { restart s now with mem := mem, tags := tags, ue := ue }).1 := by
  rw [verifyFirmware_bad (s := { restart s now with mem := mem, tags := tags, ue := ue }) h]
  exact enterRecovery_recovers _

theorem exec_packageReset {s : State} (h : s.power ≠ .off) :
    exec .packageReset s = .next (verifyFirmware { restart s s.timebase with mem := s.mem, tags := s.tags, ue := s.ue }).1 :=
  congrArg Host.Outcome.next (if_neg h)

/-- In recovery an image that the ROM accepts is written and boots (R459). -/
theorem recoveryImage_boots {s : State} {new : List Byte} (hp : s.power = .on) (h5 : (s.die 0).bootPhase = 5) (ha : s.accepts new = true) :
    Does (.recoveryImage new) s fun u => Boots s s.timebase u new := by
  have off : s.power ≠ .off := by rw [hp]; decide
  refine ⟨_, ?_, (restart_boots (s := { s with trust := { s.trust with image := some new } }) s.timebase s.mem s.tags s.ue rfl ha).1⟩
  refine Eq.trans ?_ (exec_packageReset (s := { s with trust := { s.trust with image := some new } }) off)
  show execRecoveryImage new s = _
  rw [execRecoveryImage, if_neg (by simp [hp, State.inRecovery, h5, ha])]
  rfl

theorem recoveryImage_refused {s : State} {new : List Byte} (h : s.power ≠ .on ∨ (s.die 0).bootPhase ≠ 5 ∨ s.accepts new ≠ true) :
    Answers (.recoveryImage new) s s := by
  show execRecoveryImage new s = _
  rw [execRecoveryImage, if_pos (by simpa [State.inRecovery, or_assoc] using h)]

/-- Power lost in recovery leaves no valid image (R459). -/
theorem powerLoss_does (s : State) : Does .powerLoss s fun u =>
    u.power = .off ∧ ((s.die 0).bootPhase = 5 → u.trust.image = none) ∧ ((s.die 0).bootPhase ≠ 5 → u.trust = s.trust) := by
  by_cases h : (s.die 0).bootPhase = 5
  · exact ⟨_, congrArg Host.Outcome.next (if_pos (decide_eq_true h)), rfl, fun _ => rfl, fun n => absurd h n⟩
  · exact ⟨_, congrArg Host.Outcome.next (if_neg (by rwa [State.inRecovery, decide_eq_true_iff])), rfl, fun e => absurd e h, fun _ => rfl⟩

/-! The phases of a die (R454) -/

/-- A die does not advance without power, and there are eight. -/
theorem bootPhaseAdvance_down {s : State} {die : Nat} (h : ¬ (s.power = .on ∧ die < 8)) : Answers (.bootPhaseAdvance die) s s := by
  show execBootPhaseAdvance die s = _
  rw [execBootPhaseAdvance, if_pos (by simpa [imp_iff_not_or] using h)]

theorem getLsbD_one_shiftLeft (a : Nat) {d : Nat} (hd : d < 8) : (1#8 <<< a).getLsbD d = decide (d = a) := by
  rw [BitVec.getLsbD_shiftLeft, BitVec.getLsbD_one, Bool.eq_iff_iff]
  simp [hd]
  omega

theorem getLsbD_foldl_set (c : Nat → Bool) (l : List Nat) (m : BitVec 8) {d : Nat} (hd : d < 8) :
    (l.foldl (fun m d => if c d then m ||| (1#8 <<< d) else m) m).getLsbD d = (m.getLsbD d || (decide (d ∈ l) && c d)) := by
  induction l generalizing m with
  | nil => simp
  | cons a l ih =>
    rw [List.foldl_cons, ih]
    by_cases ha : d = a
    · subst ha
      cases c d <;> simp [getLsbD_one_shiftLeft _ hd]
    · cases c a <;> simp [ha, getLsbD_one_shiftLeft _ hd]

/-- A die that the fuses enable and that has a lattice lane (R1, R462). -/
def Fused (d : Nat) : Prop := d < 8 ∧ Config.enabledDies.getLsbD d = true ∧ Config.latmap d ≠ 0xFF

theorem loadHarvest_enabled (s : State) (die d : Nat) : (loadHarvest s die).dieEnabled d = true ↔ Fused d := by
  show (fusedDies.getLsbD d && decide (d < 8)) = true ↔ _
  rw [Bool.and_eq_true, decide_eq_true_iff, Fused, and_comm, and_congr_right_iff]
  intro hd
  rw [fusedDies, getLsbD_foldl_set (fun d => Config.enabledDies.getLsbD d && decide (Config.latmap d ≠ 0xFF)) _ _ hd]
  simp [hd]


/-- Phase 0 with an image that verifies: its version is fused, the fuses are loaded, and a die in service enters phase 1. -/
theorem bootPhaseAdvance_0 {s : State} {die : Nat} {img : List Byte} (up : s.power = .on ∧ die < 8) (h0 : (s.die die).bootPhase = 0)
    (hi : s.trust.image = some img) (ha : s.accepts img = true) : Does (.bootPhaseAdvance die) s fun u =>
      u.trust.floor = some (Config.imageVersion img) ∧ (∀ w < 5, sget 0 (u.die die).hmap w = Config.hmap die w)
      ∧ (∀ d < 8, u.dieEnabled d = true ↔ Fused d)
      ∧ (Fused die → (u.die die).bootPhase = 1 ∧ (u.die die).fwVer = Config.imageVersion img) ∧ (¬ Fused die → (u.die die).bootPhase = 0) := by
  obtain ⟨hp, hd⟩ := up
  let t := loadHarvest { s with trust := { s.trust with floor := some (Config.imageVersion img) } } die
  have harvest : t.die die = { s.die die with hmap := wordsOf 5 (Config.hmap die) } := State.die_onDie_same ..
  have enabled (d : Nat) : t.dieEnabled d = true ↔ Fused d := loadHarvest_enabled _ die d
  have version : runningVersion t = Config.imageVersion img := by
    show (match s.trust.image with | some img => Config.imageVersion img | none => 0) = _
    rw [hi]
  have runs : exec (.bootPhaseAdvance die) s = .next (if t.dieEnabled die then
      (t.onDie die fun x => { x with fwVer := runningVersion t }).onDie die fun x => { x with bootPhase := 1 } else t) := by
    show execBootPhaseAdvance die s = _
    rw [execBootPhaseAdvance, if_neg (by simpa [hp] using hd)]
    simp only [h0, verifyFirmware_good hi ha]
    rfl
  refine ⟨_, runs, ?_⟩
  by_cases hf : t.dieEnabled die = true
  · rw [if_pos hf]
    refine ⟨rfl, fun w hw => ?_, fun d _ => enabled d, fun _ => ⟨?_, ?_⟩, fun n => absurd ((enabled die).mp hf) n⟩
    · rw [State.die_onDie_same, State.die_onDie_same, harvest]
      exact sget_wordsOf _ hw
    · rw [State.die_onDie_same]
    · rw [State.die_onDie_same, State.die_onDie_same]
      exact version
  · rw [if_neg hf]
    refine ⟨rfl, fun w hw => ?_, fun d _ => enabled d, fun f => absurd ((enabled die).mpr f) hf, fun _ => ?_⟩
    · rw [harvest]
      exact sget_wordsOf _ hw
    · rw [harvest]
      exact h0

theorem bootPhaseAdvance_0_recovers {s : State} {die : Nat} (up : s.power = .on ∧ die < 8) (h0 : (s.die die).bootPhase = 0)
    (h : ∀ img, s.trust.image = some img → s.accepts img ≠ true) : Does (.bootPhaseAdvance die) s Recovers := by
  obtain ⟨hp, hd⟩ := up
  refine ⟨enterRecovery s, ?_, enterRecovery_recovers s⟩
  show execBootPhaseAdvance die s = _
  rw [execBootPhaseAdvance, if_neg (by simpa [hp] using hd)]
  simp only [h0, verifyFirmware_bad h]
  rfl

/-- In phase 1 a die waits until every enabled die answers (R454). -/
theorem exec_bootPhaseAdvance_1 {s : State} {die : Nat} (up : s.power = .on ∧ die < 8) (h1 : (s.die die).bootPhase = 1) :
    exec (.bootPhaseAdvance die) s = .next (if (List.range 8).all fun d => !s.dieEnabled d || (s.die d).bootPhase ≠ 0 then
      (loadDegradation s die).onDie die fun x => { x with bootPhase := 2 } else s) := by
  obtain ⟨hp, hd⟩ := up
  show execBootPhaseAdvance die s = _
  rw [execBootPhaseAdvance, if_neg (by simpa [hp] using hd)]
  simp only [h1]
  rfl

/-- Phase 1 ends with the degradation registers loaded (R454, R462). -/
theorem bootPhaseAdvance_1 {s : State} {die : Nat} (up : s.power = .on ∧ die < 8) (h1 : (s.die die).bootPhase = 1)
    (h : ∀ d < 8, s.dieEnabled d = true → (s.die d).bootPhase ≠ 0) : Does (.bootPhaseAdvance die) s fun u =>
      (u.die die).bootPhase = 2 ∧ (∀ w < 5, sget 0 (u.die die).qmap w = Config.qmap die w)
      ∧ (∀ w < 2, sget 0 (u.die die).pcmap w = Config.pcmap die w) ∧ (∀ w < 8, sget 0 (u.die die).wlmap w = Config.wlmap die w)
      ∧ (u.die die).latmap = Config.latmap die := by
  have all : ((List.range 8).all fun d => !s.dieEnabled d || (s.die d).bootPhase ≠ 0) = true :=
    List.all_eq_true.mpr fun d hd => by
      cases he : s.dieEnabled d
      · rfl
      · simpa using h d (List.mem_range.mp hd) he
  refine ⟨_, (exec_bootPhaseAdvance_1 up h1).trans (congrArg Host.Outcome.next (if_pos all)), ?_⟩
  beta_reduce
  rw [State.die_onDie_same, loadDegradation, State.die_onDie_same]
  exact ⟨rfl, fun _ => sget_wordsOf _, fun _ => sget_wordsOf _, fun _ => sget_wordsOf _, rfl⟩

theorem bootPhaseAdvance_1_waits {s : State} {die : Nat} (up : s.power = .on ∧ die < 8) (h1 : (s.die die).bootPhase = 1)
    (h : ∃ d < 8, s.dieEnabled d = true ∧ (s.die d).bootPhase = 0) : Answers (.bootPhaseAdvance die) s s := by
  obtain ⟨d, hd, he, h0⟩ := h
  refine (exec_bootPhaseAdvance_1 up h1).trans (congrArg Host.Outcome.next (if_neg fun all => ?_))
  simpa [he, h0] using List.all_eq_true.mp all d (List.mem_range.mpr hd)

/-! The first supervisor tasks (R31, R306) -/

/-- What stands in the run queues of a core. -/
def Core.queued (c : Core) : List RunEntry := c.runHigh ++ c.runBase

theorem queued_noteHeld (s : State) (k : Nat) (job : W32) (j : Nat) : ((noteHeld s k job).core j).queued = (s.core j).queued := by
  simp only [noteHeld]
  split_ifs
  · rw [State.core_onCore]
    split
    · subst j; rfl
    · rfl
  · rfl

/-- A descriptor enters one of its core's queues, and everything queued stays. -/
theorem queueDesc_queued (s : State) (k : Nat) (d : TaskDesc) : .desc d ∈ ((queueDesc s k d).core k).queued
    ∧ ∀ j, ∀ e ∈ (s.core j).queued, e ∈ ((queueDesc s k d).core j).queued := by
  have high (s : State) : .desc d ∈ ((s.onCore k fun c => { c with runHigh := c.runHigh ++ [.desc d] }).core k).queued
      ∧ ∀ j, ∀ e ∈ (s.core j).queued, e ∈ ((s.onCore k fun c => { c with runHigh := c.runHigh ++ [.desc d] }).core j).queued := by
    refine ⟨by simp [Core.queued], fun j e he => ?_⟩
    rw [State.core_onCore]
    split
    · subst j
      simp only [Core.queued, List.mem_append] at he ⊢
      exact he.imp_left .inl
    · exact he
  have base (s : State) : .desc d ∈ ((s.onCore k fun c => { c with runBase := c.runBase ++ [.desc d] }).core k).queued
      ∧ ∀ j, ∀ e ∈ (s.core j).queued, e ∈ ((s.onCore k fun c => { c with runBase := c.runBase ++ [.desc d] }).core j).queued := by
    refine ⟨by simp [Core.queued], fun j e he => ?_⟩
    rw [State.core_onCore]
    split
    · subst j
      simp only [Core.queued, List.mem_append] at he ⊢
      exact he.imp_right .inl
    · exact he
  unfold queueDesc
  split
  · exact high s
  · dsimp only
    split
    · exact base s
    · obtain ⟨new, old⟩ := base (noteHeld s k d.job)
      exact ⟨new, fun j e he => old j e (by rwa [queued_noteHeld])⟩

/-- The descriptor of a first task of a die, and the core that it is for. -/
def firstDesc (s : State) (die : Nat) (f : Config.FirstTask) : TaskDesc :=
  { entry := ⟨f.entry ||| (1#128 <<< 121), .entry⟩, args := f.args.map fun v => ⟨v, .data⟩, job := f.job, asid := f.asid,
    src := s.here (die * 320 + f.core % 320), by_ := 0, am := false, launched := false, onCore := 0, pinned := false, binder := none }

def queueFirst (die : Nat) (s : State) (f : Config.FirstTask) : State :=
  queueDesc (jobRaise s f.job) (die * 320 + f.core % 320) (firstDesc s die f)

theorem startFirst_eq (s : State) (die : Nat) :
    startFirst s die = ((Config.firstTasks die).filter fun f => !s.harvested (die * 320 + f.core % 320)).foldl (queueFirst die) s := rfl

theorem queueFirst_keeps (die : Nat) (l : List Config.FirstTask) (s : State) (j : Nat) (e : RunEntry) (he : e ∈ (s.core j).queued) :
    e ∈ ((l.foldl (queueFirst die) s).core j).queued := by
  induction l generalizing s with
  | nil => exact he
  | cons f l ih => exact ih _ ((queueDesc_queued (jobRaise s f.job) _ _).2 j e he)

/-- Every first task of the list stands in its core's queue. -/
theorem queueFirst_queues (die : Nat) (l : List Config.FirstTask) (s : State) {f : Config.FirstTask} (hf : f ∈ l) : ∃ d : TaskDesc,
    .desc d ∈ ((l.foldl (queueFirst die) s).core (die * 320 + f.core % 320)).queued
    ∧ d.entry = ⟨f.entry ||| (1#128 <<< 121), .entry⟩ ∧ d.job = f.job ∧ d.asid = f.asid := by
  induction l generalizing s with
  | nil => simp at hf
  | cons a l ih =>
    rcases List.mem_cons.mp hf with rfl | hl
    · exact ⟨firstDesc s die f, queueFirst_keeps die l _ _ _ (queueDesc_queued (jobRaise s f.job) _ _).1, rfl, rfl, rfl⟩
    · exact ih _ hl

/-- Phase 3 begins with the first tasks queued on the cores that are in service. -/
theorem bootPhaseAdvance_2 {s : State} {die : Nat} (up : s.power = .on ∧ die < 8) (h2 : (s.die die).bootPhase = 2) :
    Does (.bootPhaseAdvance die) s fun u => (u.die die).bootPhase = 3
      ∧ ∀ f ∈ Config.firstTasks die, s.harvested (die * 320 + f.core % 320) = false → ∃ d : TaskDesc,
        .desc d ∈ (u.core (die * 320 + f.core % 320)).queued
        ∧ d.entry = ⟨f.entry ||| (1#128 <<< 121), .entry⟩ ∧ d.job = f.job ∧ d.asid = f.asid := by
  obtain ⟨hp, hd⟩ := up
  refine ⟨(startFirst s die).onDie die fun x => { x with bootPhase := 3 }, ?_, by rw [State.die_onDie_same], fun f hf hh => ?_⟩
  · show execBootPhaseAdvance die s = _
    rw [execBootPhaseAdvance, if_neg (by simpa [hp] using hd)]
    simp only [h2]
    rfl
  · rw [startFirst_eq]
    exact queueFirst_queues die _ s (List.mem_filter.mpr ⟨hf, by simp [hh]⟩)

/-- From phase 3 on the ROM advances no die. -/
theorem bootPhaseAdvance_3 {s : State} {die : Nat} (up : s.power = .on ∧ die < 8) (h3 : 3 ≤ (s.die die).bootPhase.toNat) :
    Answers (.bootPhaseAdvance die) s s := by
  obtain ⟨hp, hd⟩ := up
  show execBootPhaseAdvance die s = _
  rw [execBootPhaseAdvance, if_neg (by simpa [hp] using hd)]
  dsimp only
  split
  case h_4 => rfl
  all_goals omega

/-! Training (R454, R457, R463) -/

/-- y is x but for the write position of its error log. -/
def Die.logged (x y : Die) : Prop := y = { x with elogWr := y.elogWr }

theorem Die.logged_refl (x : Die) : x.logged x := rfl

theorem Die.logged_trans {x y z : Die} (h : x.logged y) (k : y.logged z) : x.logged z := by
  unfold Die.logged at *
  rw [k, h]

/-- An error log record moves nothing of the dies but a write position. -/
theorem die_errorLog (s : State) (d kind : Nat) (gtid : BitVec 48) (info : W64) (e : Nat) :
    (s.die e).logged ((errorLog s d kind gtid info).die e) := by
  simp only [errorLog]
  split
  · rfl
  · rw [State.die_of_dieSide (dieSide_notify _ _), State.die_onDie]
    simp only [State.die_of_dieSide (dieSide_write s _ _)]
    split
    · subst e; rfl
    · rfl

/-- A die after its training. -/
def Die.train (x : Die) : Die :=
  { x with trained := true, hbmTop := BitVec.ofNat 38 ((128 - (channelsOut x).length) * 2 ^ 30), hbmFail := channelsOut x ≠ [] }

theorem Die.train_logged {x y : Die} (h : x.logged y) : x.train.logged y.train := by
  unfold Die.logged at *
  rw [h]
  rfl

theorem die_foldl_errorLog (l : List Nat) (g : Nat → W64) (d : Nat) (s : State) (e : Nat) :
    (s.die e).logged ((l.foldl (fun s j => errorLog s d 4 0 (g j)) s).die e) := by
  induction l generalizing s with
  | nil => rfl
  | cons a l ih => exact Die.logged_trans (die_errorLog s d 4 0 (g a) e) (ih _)

theorem trainDie_eq (s : State) (d : Nat) : trainDie s d =
    (channelsOut (s.die d)).foldl (fun s j => errorLog s d 4 0 (Config.eventInfo (128 * d + j))) (s.onDie d Die.train) := by
  simp only [trainDie, State.onDie, Die.train]

theorem die_trainDie (s : State) (d e : Nat) : (if e = d then (s.die d).train else s.die e).logged ((trainDie s d).die e) := by
  rw [trainDie_eq, ← State.die_onDie]
  exact die_foldl_errorLog _ _ d _ e

/-- Training each die of a list. -/
theorem die_foldl_trainDie {l : List Nat} (hl : l.Nodup) (s : State) (e : Nat) :
    (if e ∈ l then (s.die e).train else s.die e).logged ((l.foldl trainDie s).die e) := by
  induction l generalizing s with
  | nil => simpa using Die.logged_refl _
  | cons a l ih =>
    obtain ⟨hna, hn⟩ := List.nodup_cons.mp hl
    have now := die_trainDie s a e
    have later := ih hn (trainDie s a)
    by_cases ha : e = a
    · subst ha
      rw [if_neg hna] at later
      rw [if_pos rfl] at now
      simpa using Die.logged_trans now later
    · rw [if_neg ha] at now
      by_cases hm : e ∈ l
      · rw [if_pos hm] at later
        simpa [hm] using Die.logged_trans (Die.train_logged now) later
      · rw [if_neg hm] at later
        simpa [hm, ha] using Die.logged_trans now later

theorem mem_enabledList (s : State) (d : Nat) : d ∈ enabledList s ↔ d < 8 ∧ s.dieEnabled d = true := by simp [enabledList]

theorem nodup_enabledList (s : State) : (enabledList s).Nodup := List.nodup_range.filter _

/-- The dies that train are those in service, all in phase 3. -/
theorem training_iff (s : State) : ((enabledList s).all fun d => (s.die d).bootPhase = 3 && !(s.die d).trained) = true ↔
    ∀ d < 8, s.dieEnabled d = true → (s.die d).bootPhase = 3 ∧ (s.die d).trained = false := by
  simp [List.all_eq_true, mem_enabledList, and_imp]

/-- Training ends with HBM_TOP at one GiB for each pseudo-channel in service. -/
theorem hbmTrainingDone_trains {s : State} (h : ∀ d < 8, s.dieEnabled d = true → (s.die d).bootPhase = 3 ∧ (s.die d).trained = false) :
    Does .hbmTrainingDone s fun u => ∀ d < 8, s.dieEnabled d = true → (u.die d).trained = true
      ∧ (u.die d).hbmTop.toNat = (128 - (channelsOut (s.die d)).length) * 2 ^ 30 ∧ (u.die d).hbmFail = decide ((channelsOut (s.die d)).length ≠ 0) := by
  refine ⟨_, congrArg Host.Outcome.next (if_pos ((training_iff s).mpr h)), fun d hd he => ?_⟩
  have done := die_foldl_trainDie (nodup_enabledList s) s d
  rw [if_pos ((mem_enabledList s d).mpr ⟨hd, he⟩)] at done
  rw [done]
  refine ⟨rfl, ?_, ?_⟩
  · show (BitVec.ofNat 38 ((128 - (channelsOut (s.die d)).length) * 2 ^ 30)).toNat = _
    rw [BitVec.toNat_ofNat, Nat.mod_eq_of_lt (by omega)]
  · show decide (channelsOut (s.die d) ≠ []) = _
    simp

theorem hbmTrainingDone_waits {s : State} (h : ¬ ∀ d < 8, s.dieEnabled d = true → (s.die d).bootPhase = 3 ∧ (s.die d).trained = false) :
    Answers .hbmTrainingDone s s := congrArg Host.Outcome.next (if_neg fun all => h ((training_iff s).mp all))

/-! Full service (R456) -/

theorem serviceDue_iff (s : State) : serviceDue s = true ↔ ∀ d < 8, s.dieEnabled d = true → (s.die d).bootPhase = 3 ∧ (s.die d).trained = true := by
  simp [serviceDue, List.all_eq_true, mem_enabledList, and_imp]

theorem slotPassed_iff (s : State) : slotPassed s = true ↔ s.gov.slot < s.timebase.toNat / 1600 := decide_eq_true_iff

/-- What a slot boundary does before full service begins. -/
def turnSlot (s : State) : State :=
  let s := taper (openSlot (closeSlot s))
  (dueCores s).foldl (fun u k => dueStart (!(s.heldStarts k).isEmpty) u k) s

theorem slotBoundary_eq (s : State) : slotBoundary s = startService (turnSlot s) := rfl

theorem dieSide_turnSlot (s : State) : (turnSlot s).dieSide = s.dieSide := by simp [turnSlot]

/-- Full service is due by the dies alone. -/
theorem serviceDue_of_dieSide {s t : State} (h : t.dieSide = s.dieSide) : serviceDue t = serviceDue s := by
  have he : enabledList t = enabledList s := by unfold enabledList; rw [State.dieEnabled_of_dieSide h]
  simp only [serviceDue, he, State.die_of_dieSide h]

/-- At a slot boundary every trained die in service enters full service. -/
theorem fullServiceStart_serves {s : State} (hs : s.gov.slot < s.timebase.toNat / 1600)
    (h : ∀ d < 8, s.dieEnabled d = true → (s.die d).bootPhase = 3 ∧ (s.die d).trained = true) :
    Does .fullServiceStart s fun u => ∀ d < 8, (u.die d).bootPhase = if s.dieEnabled d then 4 else (s.die d).bootPhase := by
  have due := (serviceDue_iff s).mpr h
  have side := dieSide_turnSlot s
  refine ⟨slotBoundary s, congrArg Host.Outcome.next (if_pos (by simp [(slotPassed_iff s).mpr hs, due])), fun d hd => ?_⟩
  rw [slotBoundary_eq, startService, if_pos (by rw [serviceDue_of_dieSide side, due]), die_foldl_onDie _ (nodup_enabledList _), State.die_of_dieSide side]
  simp only [mem_enabledList, State.dieEnabled_of_dieSide side, hd, true_and]
  split <;> rfl

theorem fullServiceStart_waits {s : State} (h : s.timebase.toNat / 1600 ≤ s.gov.slot
    ∨ ¬ ∀ d < 8, s.dieEnabled d = true → (s.die d).bootPhase = 3 ∧ (s.die d).trained = true) : Answers .fullServiceStart s s := by
  refine congrArg Host.Outcome.next (if_neg fun both => ?_)
  obtain ⟨passed, due⟩ := (Bool.and_eq_true _ _).mp both
  exact h.elim (Nat.not_le.mpr ((slotPassed_iff s).mp passed)) fun n => n ((serviceDue_iff s).mp due)

/-! The obligation -/

/-- Settles O49: each clause is the lemma of its event, once the accepted image is read as the ROM's test of it. -/
theorem bootPhasesAndRecovery : Obligations.BootPhasesAndRecovery := by
  intro s die img new floor good boots recovers phase up fused training trained out
  have accepts {img : List Byte} (h : good img) : s.accepts img = true := (accepts_iff s img).mpr h
  have refuses {img : List Byte} (h : ¬ good img) : s.accepts img ≠ true := fun ha => h ((accepts_iff s img).mp ha)
  have noImage (h : ∀ img, s.trust.image = some img → ¬ good img) (img : List Byte) (hi : s.trust.image = some img) : s.accepts img ≠ true :=
    refuses (h img hi)
  refine ⟨fun hi hg => ⟨_, rfl, restart_boots 0 [] [] [] hi (accepts hg)⟩, fun h => ⟨_, rfl, restart_recovers 0 [] [] [] (noImage h)⟩,
    fun off => congrArg Host.Outcome.next (if_pos off),
    fun on hi hg => ⟨_, exec_packageReset on, restart_boots s.timebase s.mem s.tags s.ue hi (accepts hg)⟩,
    fun on h => ⟨_, exec_packageReset on, restart_recovers s.timebase s.mem s.tags s.ue (noImage h)⟩,
    powerLoss_does s, fun on h5 hg => recoveryImage_boots on h5 (accepts hg),
    fun h => recoveryImage_refused (h.imp_right (Or.imp_right refuses)),
    bootPhaseAdvance_down, fun hup h0 hi hg => bootPhaseAdvance_0 hup h0 hi (accepts hg),
    fun hup h0 h => bootPhaseAdvance_0_recovers hup h0 (noImage h), bootPhaseAdvance_1, bootPhaseAdvance_1_waits, bootPhaseAdvance_2, bootPhaseAdvance_3,
    hbmTrainingDone_trains, hbmTrainingDone_waits, fullServiceStart_serves, fullServiceStart_waits⟩

end Sys2Proof.Machine
end

section
/-! PROOFS. Compares and predicates (R24, R124 to R126), the level that an instruction needs (R35, R274 to R277), and memory after reset. -/

namespace Sys2Proof.Machine

open Sys2Proof.Safety

/-- Settles O59: after reset no byte of memory has been written. -/
theorem resetMemoryIsCanonical : Obligations.ResetMemoryIsCanonical := by
  show swf 0 State.reset.mem = true
  rfl

/-! Conditions (R124) -/

theorem cond_eq (u v : W64) : cond 0 u v = decide (u = v) := rfl
theorem cond_ne (u v : W64) : cond 1 u v = decide (u ≠ v) := rfl
theorem cond_lt (u v : W64) : cond 2 u v = decide (u.toInt < v.toInt) := BitVec.slt_eq_decide
theorem cond_le (u v : W64) : cond 3 u v = decide (u.toInt ≤ v.toInt) := BitVec.sle_eq_decide
theorem cond_ltu (u v : W64) : cond 4 u v = decide (u.toNat < v.toNat) := rfl
theorem cond_leu (u v : W64) : cond 5 u v = decide (u.toNat ≤ v.toNat) := rfl

/-- A condition as a relation decides it is what a compare writes. -/
theorem setPred_completes {i : Instr} {g : Guard} {s : State} {p : BitVec 3} {c r : Task → Bool} (h : exec i s = alu g 4 s fun x => x.setPred p (c x))
    (hg : s.curTask.guardOk g = true) (hr : ∀ x, c x = r x) : Completes i 4 s fun x => x.setPred p (r x) := by
  obtain rfl : c = r := funext hr
  exact alu_completes h hg

/-- Settles O3: each compare writes its condition, and the other instructions are their own task functions. -/
theorem comparesAndPredicates : Obligations.ComparesAndPredicates := by
  refine ⟨fun s g p a b i hg => ⟨?_, ?_, ?_, ?_, ?_, ?_, ?_, ?_, ?_, ?_, ?_, ?_⟩, fun s g p q r b d a e hg =>
    ⟨alu_completes rfl hg, alu_completes rfl hg, alu_completes rfl hg, alu_completes rfl hg, ?_, alu_completes rfl hg, alu_completes rfl hg⟩⟩
  · exact setPred_completes rfl hg fun x => cond_eq _ _
  · exact setPred_completes rfl hg fun x => cond_ne _ _
  · exact setPred_completes rfl hg fun x => cond_lt _ _
  · exact setPred_completes rfl hg fun x => cond_le _ _
  · exact setPred_completes rfl hg fun x => cond_ltu _ _
  · exact setPred_completes rfl hg fun x => cond_leu _ _
  · exact setPred_completes rfl hg fun x => cond_eq _ _
  · exact setPred_completes rfl hg fun x => cond_ne _ _
  · exact setPred_completes rfl hg fun x => cond_lt _ _
  · exact setPred_completes rfl hg fun x => cond_le _ _
  · exact setPred_completes rfl hg fun x => cond_ltu _ _
  · exact setPred_completes rfl hg fun x => cond_leu _ _
  · exact setPred_completes rfl hg fun x => by revert b; decide

/-! Traps of a level (R35) -/

theorem failIf_true {c : Bool} {e : Stop} (h : c = true) : failIf c e = .error e := if_pos h
theorem failIf_false {c : Bool} {e : Stop} (h : c = false) : failIf c e = .ok () := if_neg (by simp [h])

/-- An instruction whose effect ends in a trap. -/
theorem traps_of_error {i : Instr} {g : Guard} {len : Nat} {s : State} {e : State → Eff State} {c : Cause} {w : W64}
    (h : exec i s = guarded g len s e) (hg : s.curTask.guardOk g = true) (he : e s = .error (.trap c w)) : Traps i s c w := by
  rw [Traps, h, guarded_on hg, he]; rfl

theorem headInfo_of_encode {i : Instr} {w : W32} (h : encode i = [w]) : headInfo i = w.setWidth 64 := by
  unfold headInfo; rw [h]

theorem srCheck_priv {s : State} {n : BitVec 12} {i : Instr} (hn : supervisorSr n.toNat = true) (hp : s.curTask.sup.priv = false) :
    srCheck s n i = .error (.trap .priv (headInfo i)) := by
  unfold srCheck
  rw [failIf_true (by simp [hn, hp])]
  rfl

/-- Settles O16: the level is the first check of each. -/
theorem privilegedInstructionsTrapAtTaskLevel : Obligations.PrivilegedInstructionsTrapAtTaskLevel := by
  intro s g a k n w hg hp sup
  have level (h : sup) : supervisorSr n.toNat = true := by
    simp only [supervisorSr, Bool.or_eq_true, Bool.and_eq_true, decide_eq_true_eq]
    omega
  refine ⟨fun h => ?_, fun h => ?_, fun hs h => ?_, fun hs h => ?_⟩ <;> rw [← headInfo_of_encode h]
  · refine traps_of_error (show execSret g s = _ from rfl) hg ?_
    rw [failIf_true (by simp [hp])]; rfl
  · refine traps_of_error (show execTlbi g a k s = _ from rfl) hg ?_
    rw [failIf_true (by simp [hp])]; rfl
  · refine traps_of_error (show execMfs g a n s = _ from rfl) hg ?_
    rw [srCheck_priv (level hs) hp]; rfl
  · refine traps_of_error (show execMts g a n s = _ from rfl) hg ?_
    rw [srCheck_priv (level hs) hp]; rfl

end Sys2Proof.Machine
end

section
/-! PROOFS. Control transfers and hardware loops (R26, R94, R135 to R140). -/

namespace Sys2Proof.Machine

open Sys2Proof.Safety

/-! Addresses -/

theorem branchTarget_eq (pc : W64) (x : BitVec 21) : branchTarget pc x = BitVec.ofInt 64 (pc.toNat + 4 * x.toInt) := by
  unfold branchTarget
  apply BitVec.eq_of_toInt_eq
  simp only [BitVec.toInt_add, BitVec.toInt_mul, BitVec.toInt_ofInt, BitVec.toInt_signExtend_of_le (by decide : 21 ≤ 64)]
  have h4 : (4 : W64).toInt = 4 := by decide
  rw [h4, Int.mul_comm 4]
  simp [Int.bmod_add_bmod, BitVec.toInt_eq_toNat_bmod]

theorem loopEnd_eq (pc : W64) (dist : BitVec 20) : pc + 8 + dist.setWidth 64 * 4 = pc + 8 + BitVec.ofNat 64 (4 * dist.toNat) := by
  bv_omega

theorem aligned_iff (c : W64) : c.extractLsb' 0 2 = 0 ↔ c.toNat % 4 = 0 := by
  rw [BitVec.toNat_eq]
  simp only [BitVec.extractLsb'_toNat]
  exact Iff.rfl

/-! Transfers (R135 to R138) -/

/-- A transfer is a change of the executing task, of its acknowledgement as well (R431). -/
theorem transfers_of_next {i : Instr} {s : State} {f : Task → Task} {k : Task → Task} {p : GVal} (h : exec i s = .next (s.onCur k))
    (hk : k s.curTask = { f s.curTask with pcc := p, rvAck := (k s.curTask).rvAck }) : Transfers i s f p :=
  ⟨_, h, onlyTask_onCur s _, by rw [State.task_onCur, if_pos rfl]; exact hk⟩

theorem completes_of_advance {i : Instr} {s : State} {f k : Task → Task} {len : Nat} (h : exec i s = .next (s.onCur k))
    (hk : k s.curTask = (f s.curTask).advance len) : Completes i len s f :=
  ⟨_, h, onlyTask_onCur s _, by rw [State.task_onCur, if_pos rfl, hk]; exact Task.advance_retired _ _⟩

theorem exec_jr {s : State} {g : Guard} {d a : BitVec 5} (hg : s.curTask.guardOk g = true) (ht : (s.curTask.reg a).tag = .mem)
    (hx : capPerm (s.curTask.reg a).bits &&& permEx ≠ 0) (ha : (cursor (s.curTask.reg a).bits).toNat % 4 = 0) :
    exec (.jr g d a) s = .next (s.onCur fun x => (x.setReg d x.link).jump (s.curTask.reg a)) := by
  rw [show exec (.jr g d a) s = execJr g d a s from rfl, execJr, guarded_on hg]
  dsimp only
  rw [failIf_false (by simp [ht]), failIf_false (decide_eq_false hx),
    failIf_false (by simp [(aligned_iff _).mpr ha])]
  rfl

theorem loopEffect_zero {s : State} {n : BitVec 1} {count : W32} {dist : BitVec 20} {b : Bool} {d : BitVec 5} {st : BitVec 11} (h : count = 0) :
    loopEffect s n count dist b d st = s.onCur fun x => x.jump (moveCursor x.pcc (afterInstr s (s.curTask.pc + 8 + dist.setWidth 64 * 4))) :=
  if_pos h

theorem loopEffect_nonzero {s : State} {n : BitVec 1} {count : W32} {dist : BitVec 20} {b : Bool} {d : BitVec 5} {st : BitVec 11} (h : count ≠ 0) :
    loopEffect s n count dist b d st = s.onCur fun x =>
      (x.arm n ⟨count, s.curTask.pc + 8, s.curTask.pc + 8 + dist.setWidth 64 * 4, b, d, st⟩).advance 8 :=
  if_neg h

/-! The loop-end test (R139, R140) -/

theorem Task.advance_turn1 {x : Task} {len : Nat} (h : x.l1.atEnd x.pc = true) (h1 : 1 < x.l1.lc) : x.advance len = x.settle.turn1 := by
  simp only [Task.advance, h, h1, decide_true, Bool.and_self, if_true]

theorem Task.advance_leave1 {x : Task} {len : Nat} (h : x.l1.atEnd x.pc = true) (h1 : x.l1.lc = 1) (h0 : x.l0.atEnd x.pc = false) :
    x.advance len = x.settle.leave1.setPc (x.pc + BitVec.ofNat 64 len) := by
  simp [Task.advance, h, h1, h0]

theorem Task.advance_turn0 {x : Task} {len : Nat} (h : x.l1.atEnd x.pc = false) (h0 : x.l0.atEnd x.pc = true) (hl : 1 < x.l0.lc) :
    x.advance len = x.settle.turn0 := by
  simp only [Task.advance, h, h0, hl, decide_true, Bool.and_self, Bool.false_and, Bool.false_eq_true, if_true, if_false]

theorem Task.advance_leave0 {x : Task} {len : Nat} (h : x.l1.atEnd x.pc = false) (h0 : x.l0.atEnd x.pc = true) (hl : x.l0.lc = 1) :
    x.advance len = x.settle.leave0.setPc (x.pc + BitVec.ofNat 64 len) := by
  simp [Task.advance, h, h0, hl]

theorem Task.advance_leave1_turn0 {x : Task} {len : Nat} (h : x.l1.atEnd x.pc = true) (h1 : x.l1.lc = 1) (h0 : x.l0.atEnd x.pc = true)
    (hl : 1 < x.l0.lc) : x.advance len = x.settle.leave1.turn0 := by
  simp only [Task.advance, h, h1, h0, hl, (by decide : ¬ (1 : W32) < 1), decide_true, decide_false, Bool.and_self, Bool.and_false, Bool.false_eq_true, if_true, if_false]

theorem Task.advance_leave1_leave0 {x : Task} {len : Nat} (h : x.l1.atEnd x.pc = true) (h1 : x.l1.lc = 1) (h0 : x.l0.atEnd x.pc = true)
    (hl : x.l0.lc = 1) : x.advance len = x.settle.leave1.leave0.setPc (x.pc + BitVec.ofNat 64 len) := by
  simp [Task.advance, h, h1, h0, hl]

/-- A register after a LOOPI index advances. -/
def bumped (l : LoopRegs) (r : BitVec 5) (v : GVal) : GVal :=
  if l.isIdx = true ∧ r = l.idx ∧ r ≠ 0 then
    ⟨BitVec.ofNat 128 ((v.bits.extractLsb' 0 64 + BitVec.ofInt 64 l.step.toInt).toNat), .data⟩
  else v

theorem Task.reg_bump_eq (x : Task) (l : LoopRegs) (r : BitVec 5) : (x.bump l).reg r = bumped l r (x.reg r) := by
  unfold Task.bump bumped
  by_cases hi : l.isIdx = true
  · rw [if_pos hi, Task.setR64, Task.reg_setReg]
    by_cases hr : r = l.idx
    · subst hr
      simp only [hi, true_and, data64, Task.r64, BitVec.ofNat_toNat]
      rfl
    · rw [if_neg (fun h => hr h.1), if_neg (fun h => hr h.2.1)]
  · rw [if_neg hi, if_neg (fun h => hi h.1)]

theorem Task.turn1_fields (x : Task) : x.turn1.l1 = { x.l1 with lc := x.l1.lc - 1 } ∧ x.turn1.l0 = x.l0
    ∧ x.turn1.pcc = moveCursor x.pcc x.l1.lb ∧ ∀ r, x.turn1.reg r = bumped x.l1 r (x.reg r) := by
  obtain ⟨hp, h0, -⟩ := Task.bump_fields x x.l1
  exact ⟨rfl, h0, congrArg (moveCursor · x.l1.lb) hp, Task.reg_bump_eq x x.l1⟩

theorem Task.turn0_fields (x : Task) : x.turn0.l1 = x.l1 ∧ x.turn0.l0 = { x.l0 with lc := x.l0.lc - 1 }
    ∧ x.turn0.pcc = moveCursor x.pcc x.l0.lb ∧ ∀ r, x.turn0.reg r = bumped x.l0 r (x.reg r) := by
  obtain ⟨hp, -, h1⟩ := Task.bump_fields x x.l0
  exact ⟨h1, rfl, congrArg (moveCursor · x.l0.lb) hp, Task.reg_bump_eq x x.l0⟩

theorem Task.leave1_fields (x : Task) : x.leave1.l1 = { x.l1 with lc := 0 } ∧ x.leave1.l0 = x.l0 ∧ x.leave1.pcc = x.pcc
    ∧ ∀ r, x.leave1.reg r = bumped x.l1 r (x.reg r) := by
  obtain ⟨hp, h0, -⟩ := Task.bump_fields x x.l1
  exact ⟨rfl, h0, hp, Task.reg_bump_eq x x.l1⟩

theorem Task.leave0_fields (x : Task) : x.leave0.l1 = x.l1 ∧ x.leave0.l0 = { x.l0 with lc := 0 } ∧ x.leave0.pcc = x.pcc
    ∧ ∀ r, x.leave0.reg r = bumped x.l0 r (x.reg r) := by
  obtain ⟨hp, -, h1⟩ := Task.bump_fields x x.l0
  exact ⟨h1, rfl, hp, Task.reg_bump_eq x x.l0⟩

theorem LoopRegs.atEnd_iff (l : LoopRegs) (a : W64) : l.atEnd a = true ↔ l.lc ≠ 0 ∧ l.le = a := by
  simp [LoopRegs.atEnd]

theorem exec_nop (g : Guard) (s : State) : exec (.nop g) s = .next (s.onCur fun x => x.advance 4) := by
  show alu g 4 s (fun x => x) = _
  unfold alu
  simp only [ite_self]

/-- Settles O14: transfers jump, armed loops retire, and the loop-end test of NOP is each branch of the retirement. -/
theorem branchesCallsAndLoops : Obligations.BranchesCallsAndLoops := by
  refine ⟨fun s g x d a step n dist hg => ?_, fun s g => ?_⟩
  · intro pc pcc link target t c ex count le arm
    have ht : target = moveCursor s.curTask.pcc (branchTarget s.curTask.pc x) := by rw [branchTarget_eq]
    have hle : le = s.curTask.pc + 8 + dist.setWidth 64 * 4 := (loopEnd_eq _ _).symm
    have loop : exec (.loop g a n dist) s = .next (loopEffect s n count dist false 0 0) :=
      (show execLoop g a n dist s = _ from guarded_on hg)
    have loopi : exec (.loopi g d a step n dist) s = .next (loopEffect s n count dist true d step) :=
      (show execLoopi g d a step n dist s = _ from guarded_on hg)
    refine ⟨?_, ?_, fun tag ok al => ?_, fun tag => ?_, fun tag ok => ?_, fun tag ok al => ?_, fun hc => ⟨?_, ?_⟩, fun hc v hv => ⟨?_, ?_⟩⟩
    · exact transfers_of_next rfl (by rw [if_pos hg, ht]; rfl)
    · exact transfers_of_next rfl (by rw [if_pos hg, ht]; rfl)
    · exact transfers_of_next (exec_jr hg tag ok al) rfl
    · refine traps_of_error (show execJr g d a s = _ from rfl) hg ?_
      dsimp only
      rw [failIf_true (by simpa using tag)]; rfl
    · refine traps_of_error (show execJr g d a s = _ from rfl) hg ?_
      dsimp only
      rw [failIf_false (by simp [show (s.curTask.reg a).tag = .mem from tag]), failIf_true (by simpa [ex, t] using ok)]; rfl
    · refine traps_of_error (show execJr g d a s = _ from rfl) hg ?_
      dsimp only
      rw [failIf_false (by simp [show (s.curTask.reg a).tag = .mem from tag]), failIf_false (by simpa [ex, t] using ok),
        failIf_true (by simpa using fun h => al ((aligned_iff c).mp h))]; rfl
    · exact completes_of_advance (loop.trans (by rw [loopEffect_nonzero hc, ← hle])) rfl
    · exact completes_of_advance (loopi.trans (by rw [loopEffect_nonzero hc, ← hle])) rfl
    · exact transfers_of_next (loop.trans (by rw [loopEffect_zero hc, ← hle])) (by rw [hv]; rfl)
    · exact transfers_of_next (loopi.trans (by rw [loopEffect_zero hc, ← hle])) (by rw [hv]; rfl)
  · intro x at_ bumped'
    refine ⟨_, exec_nop g s, ?_⟩
    dsimp only
    have hy : (s.onCur fun x => x.advance 4).task s.curTid = x.advance 4 := by rw [State.task_onCur, if_pos rfl]
    have on {l : LoopRegs} (h : at_ l) : l.atEnd x.pc = true := (LoopRegs.atEnd_iff l x.pc).mpr h
    have off {l : LoopRegs} (h : ¬ at_ l) : l.atEnd x.pc = false := by
      simpa using mt (LoopRegs.atEnd_iff l x.pc).mp h
    have several {l : LoopRegs} (h : 1 < l.lc.toNat) : 1 < l.lc := h
    refine ⟨onlyTask_onCur s _, fun h1 n1 => ?_, fun h1 n1 h0 => ?_, fun h1 h0 n0 => ?_, fun h1 h0 n0 => ?_, fun h1 n1 h0 n0 => ?_, fun h1 n1 h0 n0 => ?_⟩
    · rw [hy, Task.advance_turn1 (on h1) (several n1)]
      exact Task.turn1_fields x.settle
    · rw [hy, Task.advance_leave1 (on h1) n1 (off h0)]
      obtain ⟨e1, e0, ep, er⟩ := Task.leave1_fields x.settle
      exact ⟨e1, e0, congrArg (moveCursor · (x.pc + 4)) ep, er⟩
    · rw [hy, Task.advance_turn0 (off h1) (on h0) (several n0)]
      exact Task.turn0_fields x.settle
    · rw [hy, Task.advance_leave0 (off h1) (on h0) n0]
      obtain ⟨e1, e0, ep, er⟩ := Task.leave0_fields x.settle
      exact ⟨e1, e0, congrArg (moveCursor · (x.pc + 4)) ep, er⟩
    · rw [hy, Task.advance_leave1_turn0 (on h1) n1 (on h0) (several n0)]
      obtain ⟨e1, e0, ep, er⟩ := Task.leave1_fields x.settle
      obtain ⟨f1, f0, fp, fr⟩ := Task.turn0_fields x.settle.leave1
      exact ⟨f1.trans e1, by rw [f0, e0]; rfl, by rw [fp, ep, e0]; rfl, fun r => by rw [fr, er, e0]; rfl⟩
    · rw [hy, Task.advance_leave1_leave0 (on h1) n1 (on h0) n0]
      obtain ⟨e1, e0, ep, er⟩ := Task.leave1_fields x.settle
      obtain ⟨f1, f0, fp, fr⟩ := Task.leave0_fields x.settle.leave1
      exact ⟨f1.trans e1, by rw [Task.l0_setPc, f0, e0]; rfl, by rw [Task.pcc_setPc, fp, ep]; rfl,
        fun r => (fr r).trans (by rw [er, e0]; rfl)⟩

end Sys2Proof.Machine
end

section
/-! PROOFS. What scheduling leaves (R308 to R310, R425 to R428): beside memory, the governor and the issue slots, logs and ballast of cores,
only status, wait and counts of tasks move. -/

namespace Sys2Proof.Machine

open Sys2Proof.Safety

/-- y is x in another place of its schedule. -/
def Task.Rescheduled (x y : Task) : Prop := y = { x with status := y.status, wait := y.wait, since := y.since, counts := y.counts }

/-- d is c with other issue slots, ready orders, state log, trace and governor. -/
def Core.Rescheduled (c d : Core) : Prop :=
  d = { c with slotHigh := d.slotHigh, slotBase := d.slotBase, readyHigh := d.readyHigh, readyBase := d.readyBase, suspBy := d.suspBy,
               slog := d.slog, logState := d.logState, logTask := d.logTask, logAt := d.logAt, trc := d.trc, gov := d.gov }

/-- What scheduling may change of the state. -/
structure Scheduled (s t : State) : Prop where
  rest : t = { s with mem := t.mem, tags := t.tags, ue := t.ue, tasks := t.tasks, cores := t.cores, gov := t.gov }
  task : ∀ u, (s.task u).Rescheduled (t.task u)
  core : ∀ k, (s.core k).Rescheduled (t.core k)

theorem Task.Rescheduled.refl (x : Task) : x.Rescheduled x := rfl
theorem Core.Rescheduled.refl (c : Core) : c.Rescheduled c := rfl

theorem Task.Rescheduled.trans {x y z : Task} (h : x.Rescheduled y) (k : y.Rescheduled z) : x.Rescheduled z := by
  unfold Task.Rescheduled at *
  rw [k, h]

theorem Core.Rescheduled.trans {x y z : Core} (h : x.Rescheduled y) (k : y.Rescheduled z) : x.Rescheduled z := by
  unfold Core.Rescheduled at *
  rw [k, h]

theorem Scheduled.refl (s : State) : Scheduled s s := ⟨rfl, fun _ => .refl _, fun _ => .refl _⟩

theorem Scheduled.trans {s t u : State} (h : Scheduled s t) (k : Scheduled t u) : Scheduled s u :=
  ⟨by rw [k.rest, h.rest], fun v => (h.task v).trans (k.task v), fun c => (h.core c).trans (k.core c)⟩

theorem Scheduled.onTask {s u : State} (h : Scheduled s u) {t : BitVec 48} {f : Task → Task} (hf : ∀ x : Task, x.Rescheduled (f x)) :
    Scheduled s (u.onTask t f) := by
  refine h.trans ⟨rfl, fun v => ?_, fun _ => .refl _⟩
  rw [State.task_onTask]
  split
  · next e => exact e ▸ hf _
  · exact .refl _

theorem Scheduled.onCore {s u : State} (h : Scheduled s u) {k : Nat} {f : Core → Core} (hf : ∀ c : Core, c.Rescheduled (f c)) :
    Scheduled s (u.onCore k f) := by
  refine h.trans ⟨rfl, fun _ => .refl _, fun j => ?_⟩
  rw [State.core_onCore]
  split
  · next e => exact e ▸ hf _
  · exact .refl _

theorem Scheduled.withGov {s u : State} (h : Scheduled s u) {g : Gov} : Scheduled s { u with gov := g } :=
  h.trans ⟨rfl, fun _ => .refl _, fun _ => .refl _⟩

theorem Scheduled.write {s u : State} (h : Scheduled s u) {a : Nat} {bs : List Byte} : Scheduled s (u.write a bs) := by
  have hw := State.write_same u bs a
  have ht : (u.write a bs).tasks = u.tasks := by rw [hw]
  have hc : (u.write a bs).cores = u.cores := by rw [hw]
  exact h.trans ⟨by rw [hw], fun v => by unfold State.task; rw [ht]; rfl, fun k => by unfold State.core; rw [hc]; rfl⟩

theorem Scheduled.foldl {α : Type} {f : State → α → State} (hf : ∀ x a, Scheduled x (f x a)) {s u : State} (h : Scheduled s u) (l : List α) :
    Scheduled s (l.foldl f u) := by
  induction l generalizing u with
  | nil => exact h
  | cons a l ih => exact ih (h.trans (hf u a))

/-! The state log (R435) -/

theorem Scheduled.ringPut {s u : State} (h : Scheduled s u) {r : Ring} {bs : List Byte} : Scheduled s (ringPut u r bs).1 := by
  unfold Machine.ringPut
  split
  · exact h
  · dsimp only
    split
    · exact h
    · exact .write h

theorem Scheduled.ringPuts {s : State} (l : List (List Byte)) {x : State × Ring} (h : Scheduled s x.1) :
    Scheduled s (l.foldl (fun (x : State × Ring) b => Machine.ringPut x.1 x.2 b) x).1 := by
  induction l generalizing x with
  | nil => exact h
  | cons b l ih => exact ih (.ringPut h)

theorem Scheduled.logSlot {s u : State} (h : Scheduled s u) {k : Nat} : Scheduled s (logSlot u k) := by
  unfold Machine.logSlot
  dsimp only
  split
  · exact h
  · exact .onCore (.ringPuts _ h) fun _ => by rfl

theorem Scheduled.traceRecord {s u : State} (h : Scheduled s u) {k kind code : Nat} {t : BitVec 48} {a b : W64} :
    Scheduled s (traceRecord u k kind code t a b) := by
  unfold Machine.traceRecord
  dsimp only
  split
  · exact .onCore (.ringPut h) fun _ => rfl
  · exact h

/-- What discarding operand-reuse copies leaves (R440). -/
theorem Scheduled.discardCopies {s u : State} (h : Scheduled s u) {x : Task} {rs : List Nat} : Scheduled s (discardCopies u x rs) := by
  unfold Machine.discardCopies
  dsimp only
  have counted {n : BitVec 48} : Scheduled s (u.onTask x.gtid fun y => { y with counts := { y.counts with hint := y.counts.hint + n } }) :=
    .onTask h fun _ => by rfl
  split
  · exact h
  · split
    · exact .foldl (fun y r => .traceRecord (.refl y)) counted _
    · exact counted

/-! The issue slots (R309, R310) -/

theorem Scheduled.fillHigh {s u : State} (h : Scheduled s u) {k : Nat} : Scheduled s (fillHigh u k) := by
  unfold Machine.fillHigh
  split
  · split
    · exact h
    · exact .onCore (.onTask h fun _ => by rfl) fun _ => by rfl
  · exact h

theorem Scheduled.fillBase {s u : State} (h : Scheduled s u) {k : Nat} : Scheduled s (fillBase u k) := by
  unfold Machine.fillBase
  split
  · exact .onCore (.onTask h fun _ => by rfl) fun _ => by rfl
  · exact h

theorem Scheduled.markSuspended {s u : State} (h : Scheduled s u) {k : Nat} : Scheduled s (markSuspended u k) := by
  unfold Machine.markSuspended
  split
  · exact .onCore (.onTask h fun _ => by rfl) fun _ => by rfl
  · exact .onCore h fun _ => by rfl

theorem Scheduled.dispatch {s u : State} (h : Scheduled s u) {k : Nat} : Scheduled s (dispatch u k) := by
  rw [dispatch_eq]
  exact .logSlot (.markSuspended (.fillBase (.fillHigh h)))

theorem Scheduled.makeReady {s u : State} (h : Scheduled s u) {t : BitVec 48} : Scheduled s (makeReady u t) := by
  unfold Machine.makeReady
  refine .dispatch (.onCore (.onTask h fun _ => by rfl) fun c => ?_)
  dsimp only
  split <;> rfl

/-! The governor (R425 to R430) -/

theorem Scheduled.settleHeld {s u : State} (h : Scheduled s u) {k : Nat} {j : Option W32} {now : W64} : Scheduled s (settleHeld u k j now) :=
  .onCore h fun _ => by rfl

theorem Scheduled.endBallast {s u : State} (h : Scheduled s u) {k : Nat} : Scheduled s (endBallast u k) :=
  .withGov (.onCore (.onCore h fun _ => by rfl) fun _ => by rfl)

theorem Scheduled.setGovKind {s u : State} (h : Scheduled s u) {k : Nat} {g : GovKind} : Scheduled s (setGovKind u k g) := by
  unfold Machine.setGovKind
  dsimp only
  split
  · exact .onCore (.settleHeld h) fun _ => by rfl
  · exact .onCore h fun _ => by rfl

theorem Scheduled.takeTicket {s u : State} (h : Scheduled s u) {k : Nat} {pinned : Bool} : Scheduled s (takeTicket u k pinned) := by
  unfold Machine.takeTicket
  split
  · exact h
  · exact .onCore (.withGov h) fun _ => by rfl

theorem Scheduled.govStart {s u : State} (h : Scheduled s u) {k : Nat} {pinned : Bool} : Scheduled s (govStart u k pinned).1 := by
  unfold Machine.govStart
  split
  · exact h
  · exact .setGovKind (.endBallast h)
  · have ticket : Scheduled s (if startDue u k then u else Machine.takeTicket u k pinned) := by
      split
      · exact h
      · exact .takeTicket h
    dsimp only
    generalize (if startDue u k then u else Machine.takeTicket u k pinned) = v at ticket ⊢
    split
    · exact .setGovKind (.onCore ticket fun _ => by rfl)
    · exact ticket

theorem Scheduled.idleCore {s u : State} (h : Scheduled s u) {k : Nat} {pinned : Bool} : Scheduled s (idleCore u k pinned) := by
  unfold Machine.idleCore
  dsimp only
  split
  · exact h
  · split
    · exact .setGovKind (.withGov h)
    · split
      · exact .setGovKind h
      · exact .withGov (.onCore h fun _ => by rfl)

theorem Scheduled.govIdle {s u : State} (h : Scheduled s u) {k : Nat} : Scheduled s (govIdle u k) := .idleCore h

/-! Leaving the slot, waking (R308, R309, R426) -/

/-- A task off its slots. -/
def offSlot (s : State) (t : BitVec 48) (st : TStatus) : State :=
  (s.onTask t fun x => { x with status := st }).onCore (s.task t).core fun c => unslot c t

theorem leaveSlot_eq (s : State) (t : BitVec 48) (st : TStatus) :
    leaveSlot s t st = dispatch (govIdle (offSlot s t st) (s.task t).core) (s.task t).core := rfl

theorem Scheduled.offSlot {s u : State} (h : Scheduled s u) {t : BitVec 48} {st : TStatus} : Scheduled s (offSlot u t st) :=
  .onCore (.onTask h fun _ => by rfl) fun _ => by rfl

theorem Scheduled.leaveSlot {s u : State} (h : Scheduled s u) {t : BitVec 48} {st : TStatus} : Scheduled s (leaveSlot u t st) := by
  rw [leaveSlot_eq]
  exact .dispatch (.govIdle (.offSlot h))

theorem Scheduled.releaseHeldAt {s u : State} (h : Scheduled s u) {k : Nat} {now : W64} : Scheduled s (releaseHeldAt u k now) :=
  .foldl (fun x _ => .makeReady (.onCore (.refl x) fun _ => by rfl)) h _

theorem Task.rescheduled_countWait (x : Task) (now : W64) : x.Rescheduled (x.countWait now) := by
  unfold Task.countWait
  dsimp only
  split <;> rfl

theorem Scheduled.wake {s u : State} (h : Scheduled s u) {t : BitVec 48} : Scheduled s (wake u t) := by
  unfold Machine.wake
  dsimp only
  split
  · exact h
  · have counted : Scheduled s (u.onTask t fun x => x.countWait u.timebase) := .onTask h fun x => x.rescheduled_countWait _
    split
    · exact .makeReady counted
    · split
      · exact .releaseHeldAt (.makeReady (.govStart counted))
      · exact .logSlot (.onTask (.govStart counted) fun _ => by rfl)

/-! Who runs -/

/-- The issue slots and ready orders of a core. -/
def Core.slots (c : Core) : Option (BitVec 48) × Option (BitVec 48) × List (BitVec 48) × List (BitVec 48) :=
  (c.slotHigh, c.slotBase, c.readyHigh, c.readyBase)

/-- A core has the task in none of its issue slots and ready orders. -/
def Core.Lacks (c : Core) (t : BitVec 48) : Prop := c.slotHigh ≠ some t ∧ c.slotBase ≠ some t ∧ t ∉ c.readyHigh ∧ t ∉ c.readyBase

theorem Core.Lacks.of_slots {c d : Core} {t : BitVec 48} (h : d.slots = c.slots) (l : c.Lacks t) : d.Lacks t := by
  obtain ⟨h1, h2, h3, h4⟩ : d.slotHigh = c.slotHigh ∧ d.slotBase = c.slotBase ∧ d.readyHigh = c.readyHigh ∧ d.readyBase = c.readyBase := by
    simpa [Core.slots] using h
  unfold Core.Lacks
  rw [h1, h2, h3, h4]
  exact l

theorem unslot_lacks (c : Core) (t : BitVec 48) : (unslot c t).Lacks t := by
  refine ⟨?_, ?_, by simp [unslot], by simp [unslot]⟩
  · simp only [unslot]; split <;> simp_all
  · simp only [unslot]; split <;> simp_all

/-- The state log and the governor move no task. -/
def State.tasksAndSlots (s : State) :
    Sparse Task × (Nat → Option (BitVec 48) × Option (BitVec 48) × List (BitVec 48) × List (BitVec 48)) :=
  (s.tasks, fun k => (s.core k).slots)

theorem task_of_tasksAndSlots {s u : State} (e : u.tasksAndSlots = s.tasksAndSlots) (t : BitVec 48) : u.task t = s.task t := by
  unfold State.task; rw [show u.tasks = s.tasks from congrArg Prod.fst e]

theorem tasksAndSlots_onCore (s : State) (k : Nat) {f : Core → Core} (h : ∀ c, (f c).slots = c.slots) :
    (s.onCore k f).tasksAndSlots = s.tasksAndSlots := by
  refine Prod.ext rfl (funext fun j => ?_)
  show ((s.onCore k f).core j).slots = (s.core j).slots
  rw [State.core_onCore]
  split
  · next e => rw [e, h]
  · rfl

theorem tasksAndSlots_withGov (s : State) (g : Gov) : ({ s with gov := g } : State).tasksAndSlots = s.tasksAndSlots := rfl

theorem tasksAndSlots_write (s : State) (a : Nat) (bs : List Byte) : (s.write a bs).tasksAndSlots = s.tasksAndSlots := by
  rw [State.write_same s bs a]; rfl

theorem tasksAndSlots_ringPut (s : State) (r : Ring) (bs : List Byte) : (ringPut s r bs).1.tasksAndSlots = s.tasksAndSlots := by
  unfold ringPut
  split
  · rfl
  · dsimp only
    split
    · rfl
    · exact tasksAndSlots_write ..

theorem tasksAndSlots_logSlot (s : State) (k : Nat) : (logSlot s k).tasksAndSlots = s.tasksAndSlots := by
  unfold logSlot
  dsimp only
  split
  · rfl
  · exact (tasksAndSlots_onCore _ k fun _ => by rfl).trans
      (foldl_keeps (fun x : State × Ring => x.1.tasksAndSlots) _ (fun x b => tasksAndSlots_ringPut x.1 x.2 b) _ _)

theorem tasksAndSlots_setGovKind (s : State) (k : Nat) (g : GovKind) : (setGovKind s k g).tasksAndSlots = s.tasksAndSlots := by
  unfold setGovKind
  dsimp only
  split
  · exact (tasksAndSlots_onCore _ k fun _ => by rfl).trans (tasksAndSlots_onCore s k fun _ => by rfl)
  · exact tasksAndSlots_onCore s k fun _ => by rfl

theorem tasksAndSlots_idleCore (s : State) (k : Nat) (pinned : Bool) : (idleCore s k pinned).tasksAndSlots = s.tasksAndSlots := by
  unfold idleCore
  dsimp only
  split
  · rfl
  · split
    · exact tasksAndSlots_setGovKind _ k _
    · split
      · exact tasksAndSlots_setGovKind s k _
      · exact (tasksAndSlots_withGov _ _).trans (tasksAndSlots_onCore s k fun _ => by rfl)

/-- A state as far as one task of a core is concerned: the task, and that the core's slots and orders are without it. -/
def Idle (s : State) (k : Nat) (t : BitVec 48) (x : Task) : Prop := s.task t = x ∧ (s.core k).Lacks t

theorem Idle.of_tasksAndSlots {s u : State} {k : Nat} {t : BitVec 48} {x : Task} (e : u.tasksAndSlots = s.tasksAndSlots) (h : Idle s k t x) :
    Idle u k t x := by
  exact ⟨(task_of_tasksAndSlots e t).trans h.1, h.2.of_slots (congrFun (congrArg Prod.snd e) k)⟩

theorem Idle.fillHigh {s : State} {k : Nat} {t : BitVec 48} {x : Task} (h : Idle s k t x) : Idle (fillHigh s k) k t x := by
  obtain ⟨hx, h1, h2, h3, h4⟩ := h
  unfold Machine.fillHigh
  split
  · next u us e0 e =>
    split
    · exact ⟨hx, h1, h2, h3, h4⟩
    · rw [e] at h3
      obtain ⟨hu, hus⟩ : t ≠ u ∧ t ∉ us := by simpa using h3
      refine ⟨by rw [State.task_onCore, State.task_onTask, if_neg hu, hx], ?_⟩
      rw [State.core_onCore_same]
      exact ⟨fun e => hu (Option.some.inj e).symm, h2, hus, h4⟩
  · exact ⟨hx, h1, h2, h3, h4⟩

theorem nextBase_mem {s : State} {k : Nat} {t : BitVec 48} (h : nextBase s k = some t) : t ∈ (s.core k).readyBase := by
  unfold nextBase at h
  dsimp only at h
  split at h
  · exact List.mem_of_find?_eq_some h
  · exact List.mem_of_head? h

theorem Idle.fillBase {s : State} {k : Nat} {t : BitVec 48} {x : Task} (h : Idle s k t x) : Idle (fillBase s k) k t x := by
  obtain ⟨hx, h1, h2, h3, h4⟩ := h
  unfold Machine.fillBase
  split
  · next u e0 e1 e =>
    have hu : t ≠ u := fun c => h4 (c ▸ nextBase_mem e)
    refine ⟨by rw [State.task_onCore, State.task_onTask, if_neg hu, hx], ?_⟩
    rw [State.core_onCore_same]
    exact ⟨h1, fun e => hu (Option.some.inj e).symm, h3, fun m => h4 (List.mem_filter.mp m).1⟩
  · exact ⟨hx, h1, h2, h3, h4⟩

theorem Idle.markSuspended {s : State} {k : Nat} {t : BitVec 48} {x : Task} (h : Idle s k t x) : Idle (markSuspended s k) k t x := by
  obtain ⟨hx, h1, h2, h3, h4⟩ := h
  unfold Machine.markSuspended
  split
  · next u e =>
    have hu : t ≠ u := fun c => h2 (c ▸ e)
    refine ⟨by rw [State.task_onCore, State.task_onTask, if_neg hu, hx], ?_⟩
    rw [State.core_onCore_same]
    exact ⟨h1, h2, h3, h4⟩
  · refine ⟨by rw [State.task_onCore, hx], ?_⟩
    rw [State.core_onCore_same]
    exact ⟨h1, h2, h3, h4⟩

/-- A dispatch runs none but the tasks of its core's slots and orders. -/
theorem Idle.dispatch {s : State} {k : Nat} {t : BitVec 48} {x : Task} (h : Idle s k t x) : Idle (dispatch s k) k t x := by
  rw [dispatch_eq]
  exact .of_tasksAndSlots (tasksAndSlots_logSlot _ k) (.markSuspended (.fillBase (.fillHigh h)))

/-- A task that leaves its slot stands in the state it takes. -/
theorem task_leaveSlot (s : State) (t : BitVec 48) (st : TStatus) : (leaveSlot s t st).task t = { s.task t with status := st } := by
  rw [leaveSlot_eq]
  have off : Idle (offSlot s t st) (s.task t).core t { s.task t with status := st } := by
    refine ⟨by simp [offSlot], ?_⟩
    rw [offSlot, State.core_onCore_same]
    exact unslot_lacks _ t
  have idle := off.of_tasksAndSlots (tasksAndSlots_idleCore _ (s.task t).core ((offSlot s t st).pinnedCore (s.task t).core))
  exact idle.dispatch.1

theorem task_blockTask (s : State) (t : BitVec 48) (w : Wait) :
    (blockTask s t w).task t = { s.task t with wait := some w, parkedAt := s.timebase, status := .waitMsg } := by
  rw [blockTask, task_leaveSlot, State.task_onTask_same]

end Sys2Proof.Machine
end

section
/-! PROOFS. Trap entry, returns and breakpoints (R32, R269 to R274, R445). -/

namespace Sys2Proof.Machine

open Sys2Proof.Safety

/-! What leaves every task where it stands -/

/-- Every task stands where it stood: its pcc and its core are as before. -/
def Stands (s u : State) : Prop := ∀ t, (u.task t).pcc = (s.task t).pcc ∧ (u.task t).core = (s.task t).core

theorem Stands.refl (s : State) : Stands s s := fun _ => ⟨rfl, rfl⟩

theorem Stands.trans {s u v : State} (h : Stands s u) (k : Stands u v) : Stands s v :=
  fun t => ⟨(k t).1.trans (h t).1, (k t).2.trans (h t).2⟩

theorem Stands.onTask {s u : State} (h : Stands s u) {t : BitVec 48} {f : Task → Task} (hf : ∀ x, (f x).pcc = x.pcc ∧ (f x).core = x.core) :
    Stands s (u.onTask t f) := by
  refine h.trans fun v => ?_
  rw [State.task_onTask]
  split
  · next e => exact e ▸ hf _
  · exact ⟨rfl, rfl⟩

theorem Stands.onCore {s u : State} (h : Stands s u) {k : Nat} {f : Core → Core} : Stands s (u.onCore k f) := h

theorem Stands.onDie {s u : State} (h : Stands s u) {d : Nat} {f : Die → Die} : Stands s (u.onDie d f) := h

theorem Stands.withDbg {s u : State} (h : Stands s u) {d : Debug} : Stands s { u with dbg := d } := h

theorem Stands.scheduled {s u v : State} (k : Scheduled u v) (h : Stands s u) : Stands s v := by
  refine h.trans fun t => ?_
  rw [k.task t]
  exact ⟨rfl, rfl⟩

theorem Stands.foldl {α : Type} {f : State → α → State} (hf : ∀ x a, Stands x (f x a)) {s u : State} (h : Stands s u) (l : List α) :
    Stands s (l.foldl f u) := by
  induction l generalizing u with
  | nil => exact h
  | cons a l ih => exact ih (h.trans (hf u a))

theorem Stands.wake {s u : State} (h : Stands s u) {t : BitVec 48} : Stands s (wake u t) := .scheduled (.wake (.refl u)) h

theorem Stands.ragUpdate {s u : State} (h : Stands s u) {k n : Nat} {v : W32} : Stands s (ragUpdate u k n v) := by
  unfold Machine.ragUpdate State.onWork
  dsimp only
  split
  · exact h
  · split
    · exact .scheduled (.logSlot (.refl _)) (.onCore (.onCore h))
    · exact .onCore (.onCore h)

theorem Stands.testCounterTrigger {s u : State} (h : Stands s u) {k n : Nat} : Stands s (testCounterTrigger u k n) := by
  unfold Machine.testCounterTrigger
  dsimp only
  split
  · exact h
  · split <;> exact h

theorem Stands.completionViolation {s u : State} (h : Stands s u) {k n : Nat} {ws : List Task} : Stands s (completionViolation u k n ws) := by
  unfold Machine.completionViolation
  split
  · split
    · exact .onTask h fun _ => ⟨rfl, rfl⟩
    · exact h
  · exact h

theorem Stands.wakeSlot {s u : State} (h : Stands s u) {k n : Nat} {completed : Bool} : Stands s (wakeSlot u k n completed) := by
  unfold Machine.wakeSlot
  dsimp only
  refine .foldl (fun x _ => .wake (.refl x)) (.foldl (fun x _ => .wake (.onTask (.refl x) fun _ => ⟨by rfl, by rfl⟩)) ?_ _) _
  split
  · exact .completionViolation h
  · exact h

theorem Stands.slotUpdate {s u : State} (h : Stands s u) {k n : Nat} {f : Counter → Counter} : Stands s (slotUpdate u k n f) := by
  unfold Machine.slotUpdate
  exact .testCounterTrigger (.wakeSlot (.ragUpdate (.onCore h)))

theorem Stands.notify {s u : State} (h : Stands s u) {w : W64} : Stands s (notify u w) := by
  unfold Machine.notify
  split
  · dsimp only
    split
    · exact .slotUpdate h
    · exact h
  · exact h

theorem Stands.errorLog {s u : State} (h : Stands s u) {d kind : Nat} {g : BitVec 48} {i : W64} : Stands s (errorLog u d kind g i) := by
  unfold Machine.errorLog
  dsimp only
  split
  · exact h
  · exact .notify (.onDie (.scheduled (.write (.refl u)) h))

theorem Stands.raiseAsync {s u : State} (h : Stands s u) {t : BitVec 48} {c : Cause} {i : W64} : Stands s (raiseAsync u t c i) := by
  unfold Machine.raiseAsync logUe
  split
  · exact h
  · refine .onTask ?_ fun _ => ⟨rfl, rfl⟩
    split
    · exact .errorLog h
    · exact h

theorem Stands.freeMember {s u : State} (h : Stands s u) {k : Nat} : Stands s (freeMember u k) := h

theorem Stands.shareEnergy {s u : State} (h : Stands s u) {x : Task} : Stands s (shareEnergy u x) := 
  .foldl (fun y _ => .onCore (.refl y)) h _

theorem Stands.dissolveTower {s u : State} (h : Stands s u) {t : BitVec 48} : Stands s (dissolveTower u t) := by
  unfold Machine.dissolveTower
  dsimp only
  split
  · exact h
  · refine .foldl (fun y k => .scheduled (.dispatch (.idleCore (.refl _))) (.freeMember (.refl y))) (.onTask ?_ fun _ => ⟨by rfl, by rfl⟩) _
    split
    · exact h
    · exact .shareEnergy h

theorem Stands.charge {s u : State} (h : Stands s u) {k e : Nat} : Stands s (u.charge k e) := h

theorem Stands.flushVec {s u : State} (h : Stands s u) {t : BitVec 48} : Stands s (flushVec u t) := by
  unfold Machine.flushVec
  dsimp only
  refine .onCore (.foldl (fun x e => ?_) (.charge (.foldl (fun x _ => .raiseAsync (.refl x)) h _)) _)
  split
  · exact .raiseAsync (.refl x)
  · exact .onTask (.refl x) fun _ => ⟨rfl, rfl⟩

theorem Stands.dropRequest {s u : State} (h : Stands s u) {t : BitVec 48} : Stands s (dropRequest u t) := h

theorem Stands.atStop {s u : State} (h : Stands s u) {t : BitVec 48} : Stands s (atStop u t) := by
  unfold Machine.atStop
  dsimp only
  refine .onTask (.dropRequest (.flushVec (.dissolveTower h))) fun x => ?_
  rw [x.rescheduled_countWait]
  exact ⟨rfl, rfl⟩

/-! Entry (R32, R269 to R271) -/

theorem Stands.writeChunks {s u : State} (h : Stands s u) {a : Nat} {cs : List Chunk} : Stands s (writeChunks u a cs) := by
  induction cs generalizing u a with
  | nil => exact h
  | cons c cs ih =>
    have written : Stands s (u.write a c.1) := .scheduled (.write (.refl u)) h
    refine ih (u := if c.2 = .data then u.write a c.1 else (u.write a c.1).setTag a c.2) ?_
    split
    · exact written
    · exact written

/-- The debugger's stop takes its task off the slot, with every task where it stood. -/
theorem debugStop_leaves (s : State) (t : BitVec 48) (info : W64) :
    ∃ v, Stands s v ∧ ∃ k p, debugStop s t info = traceRecord (leaveSlot v t .stopped) k 2 0 t info p := by
  refine ⟨_, ?_, _, _, rfl⟩
  have stopped : Stands s (atStop s t) := .atStop (.refl s)
  refine .onTask ?_ fun _ => ⟨by rfl, by rfl⟩
  split
  · exact .onTask (.withDbg stopped) fun _ => ⟨by rfl, by rfl⟩
  · exact .onTask (.withDbg (.writeChunks stopped)) fun _ => ⟨by rfl, by rfl⟩

theorem task_traceRecord (s : State) (k kind code : Nat) (t : BitVec 48) (a b : W64) (u : BitVec 48) :
    (traceRecord s k kind code t a b).task u = s.task u := by
  unfold traceRecord
  dsimp only
  split
  · exact task_of_tasksAndSlots (tasksAndSlots_ringPut s (s.core k).trc _) u
  · rfl

/-- A task that the debugger stops is STOPPED at its instruction. -/
theorem debugStop_stops (s : State) (t : BitVec 48) (info : W64) :
    ((debugStop s t info).task t).status = .stopped ∧ ((debugStop s t info).task t).pcc = (s.task t).pcc := by
  obtain ⟨v, stood, k, p, e⟩ := debugStop_leaves s t info
  rw [e, task_traceRecord, task_leaveSlot]
  exact ⟨rfl, (stood t).1⟩

/-- The error log of a die that notifies nobody touches no task. -/
theorem errorLog_quiet {s : State} {d : Nat} (h : (s.die d).elogNotify.getLsbD 16 = false) (kind : Nat) (g : BitVec 48) (i : W64) (t : BitVec 48) :
    (errorLog s d kind g i).task t = s.task t := by
  unfold errorLog
  dsimp only
  split
  · rfl
  · rw [show ∀ u, notify u (s.die d).elogNotify = u from fun u => if_neg (ne_true_of_eq_false h)]
    show ((s.write _ _).onDie _ _).task t = _
    rw [State.write_same]
    rfl

@[simp] theorem dieSide_idleCore (s : State) (k : Nat) (pinned : Bool) : (idleCore s k pinned).dieSide = s.dieSide := by
  unfold idleCore
  dsimp only
  split
  · rfl
  · split
    · exact dieSide_setGovKind ..
    · split
      · exact dieSide_setGovKind ..
      · rfl

@[simp] theorem dieSide_leaveSlot (s : State) (t : BitVec 48) (st : TStatus) : (leaveSlot s t st).dieSide = s.dieSide := by
  rw [leaveSlot_eq, dieSide_dispatch, govIdle, dieSide_idleCore]
  rfl

@[simp] theorem dieSide_dissolveTower (s : State) (t : BitVec 48) : (dissolveTower s t).dieSide = s.dieSide := by
  unfold dissolveTower
  dsimp only
  split
  · rfl
  · refine (dieSide_foldl _ (fun x k => ?_) _ _).trans ?_
    · rw [dieSide_dispatch, dieSide_idleCore]
      rfl
    · rw [dieSide_onTask]
      split
      · rfl
      · exact dieSide_foldl _ (fun _ _ => dieSide_onCore ..) _ s

/-- A double fault stops its task at its instruction (R32). -/
theorem doubleFault_stops (s : State) (t : BitVec 48) (code : Byte)
    (quiet : (s.die (dieOf (s.task t).core)).elogNotify.getLsbD 16 = false) :
    ((doubleFault s t code).task t).status = .stopped ∧ ((doubleFault s t code).task t).pcc = (s.task t).pcc := by
  unfold doubleFault
  dsimp only
  have dies : ∀ u : State, u.dieSide = s.dieSide → (u.die (dieOf (s.task t).core)).elogNotify.getLsbD 16 = false :=
    fun u e => by rw [State.die_of_dieSide e, quiet]
  rw [errorLog_quiet (dies _ (by rw [dieSide_leaveSlot, dieSide_onTask, dieSide_dissolveTower])), task_leaveSlot, State.task_onTask_same]
  exact ⟨rfl, (Stands.dissolveTower (.refl s) t).1⟩

/-- The causes that go to the task's own handler (R269). -/
theorem routedToTask_iff (c : Cause) : routedToTask (causeCode c) = true ↔
    (causeCode c).toNat ∈ [0x04, 0x05, 0x06, 0x07, 0x09, 0x0A, 0x0B, 0x0C, 0x0D, 0x0E, 0x0F, 0x11, 0x12, 0x15] := by
  cases c <;> decide

/-- A trap of a cause that is neither logged nor counted is its entry alone. -/
theorem raise_eq (s : State) (t : BitVec 48) {c : Cause} (info : W64) (async : Bool) (h1 : c ≠ .memUe) (h2 : c ≠ .rampViolation) :
    raise s t c info async = takeTrap s t (causeCode c) info async := by
  simp only [raise, logUe, h1, h2, if_false]

/-- The capability that supervisor code runs under (R271). -/
theorem supervisorPcc_fields (a : W64) : (supervisorPcc a).tag = .mem ∧ cursor (supervisorPcc a).bits = a
    ∧ memBounds (supervisorPcc a).bits = (0, 2 ^ 56) ∧ capPerm (supervisorPcc a).bits = permEx := by
  have high (start len : Nat) (h : 64 ≤ start) : (supervisorPcc a).bits.extractLsb' start len = (supervisorPcc 0).bits.extractLsb' start len :=
    (BitVec.extractLsb'_append_eq_of_le h).trans (BitVec.extractLsb'_append_eq_of_le h).symm
  have exp : capExp (supervisorPcc a).bits = 38 := by unfold capExp; rw [high _ _ (by omega)]; decide
  have base : capBaseM (supervisorPcc a).bits = 0 := by unfold capBaseM; rw [high _ _ (by omega)]; decide
  have len : capLen (supervisorPcc a).bits = 0x40000 := by unfold capLen; rw [high _ _ (by omega)]; decide
  refine ⟨rfl, ?_, ?_, ?_⟩
  · exact BitVec.extractLsb'_append_eq_right
  · simp [memBounds, exp, base, len]
  · unfold capPerm; rw [high _ _ (by omega)]; decide

/-! Returns and breakpoints (R274, R445) -/

theorem exec_tret {s : State} {g : Guard} (hg : s.curTask.guardOk g = true) :
    Transfers (.tret g) s (fun x => { x with tr := { x.tr with inTrap := false } }) (moveCursor s.curTask.pcc s.curTask.tr.tepc) :=
  transfers_of_next rfl (by rw [if_pos hg]; rfl)

/-- SRET at supervisor level. -/
theorem exec_sret {s : State} {g : Guard} (hg : s.curTask.guardOk g = true) (hp : s.curTask.sup.priv = true) :
    exec (.sret g) s = .next (takeHeld (s.onCur fun x => x.settle.sret) s.curTid) := by
  rw [show exec (.sret g) s = execSret g s from rfl, execSret, guarded_on hg, failIf_false (by simp [hp])]
  rfl

theorem takeHeld_none {s : State} {t : BitVec 48} (h : (s.task t).held = []) : takeHeld s t = s := by
  unfold takeHeld
  dsimp only
  rw [h]
  rfl

/-- A running task that may take its first held trap enters it. -/
theorem takeHeld_first {s : State} {t : BitVec 48} {p : PendTrap} {l : List PendTrap} (h : (s.task t).held = p :: l)
    (ok : (s.task t).takeable p = true) (hc : p.cause ≠ 0x13) (hr : (s.task t).status ≠ .waitMsg) :
    Scheduled ((takeTrap (s.onTask t fun x => { x with held := l }) t p.cause p.info true).onTask t fun y => { y with blockLen := 0 })
      (takeHeld s t) := by
  unfold takeHeld
  dsimp only
  have first : (s.task t).held.find? (s.task t).takeable = some p := by rw [h, List.find?_cons, ok]
  have dropped : (s.onTask t fun x => { x with held := x.held.erase p }) = s.onTask t fun x => { x with held := l } := by
    simp only [State.onTask, h, List.erase_cons_head]
  rw [first]
  dsimp only
  rw [if_neg (show ¬ (s.task t).status = .waitMsg from hr), if_neg (show ¬ p.cause = causeCode .rampViolation from hc), dropped]
  exact .dispatch (.discardCopies (.refl _))

theorem Task.Rescheduled.entered {x y : Task} (h : x.Rescheduled y) : y.held = x.held ∧ y.tr = x.tr ∧ y.sup = x.sup := by
  rw [h]; exact ⟨rfl, rfl, rfl⟩

/-- What a running task's entry of its first held trap saves, where no supervisor trap is in progress (R270, R274). -/
theorem takeHeld_entry {s : State} {t : BitVec 48} {p : PendTrap} {l : List PendTrap} (h : (s.task t).held = p :: l)
    (hs : (s.task t).sup.inStrap = false) (hc : p.cause ≠ 0x13) (hr : (s.task t).status ≠ .waitMsg) :
    ((takeHeld s t).task t).held = l
    ∧ (routedToTask p.cause = true → (s.task t).tr.inTrap = false → (s.task t).tr.tvec ≠ 0 →
      ((takeHeld s t).task t).tr = ⟨true, (s.task t).tr.tvec, (s.task t).pc, BitVec.ofNat 64 (p.cause.toNat + 512), p.info⟩)
    ∧ (routedToTask p.cause = false → ((takeHeld s t).task t).sup.sepc = (s.task t).pc
      ∧ ((takeHeld s t).task t).sup.prevPriv = (s.task t).sup.priv
      ∧ ((takeHeld s t).task t).sup.scause = BitVec.ofNat 64 (p.cause.toNat + 512)) := by
  obtain ⟨eh, et, es⟩ := ((takeHeld_first h (by simp [Task.takeable, hs]) hc hr).task t).entered
  rw [State.task_onTask_same] at eh et es
  rw [eh, et, es]
  have dropped : (s.onTask t fun x => { x with held := l }).task t = { s.task t with held := l } := State.task_onTask_same ..
  generalize (s.onTask t fun x => { x with held := l }) = u at dropped ⊢
  have ht : (u.task t).tr = (s.task t).tr := by rw [dropped]
  cases hd : routedToTask p.cause && !(u.task t).tr.inTrap && (u.task t).tr.tvec ≠ 0 with
  | true =>
    obtain ⟨⟨routed, -⟩, -⟩ : (routedToTask p.cause = true ∧ (!(u.task t).tr.inTrap) = true) ∧ _ := by
      simpa only [Bool.and_eq_true] using hd
    rw [Laws.takeTrap_task u t _ _ _ hd, State.task_onTask_same, dropped]
    exact ⟨rfl, fun _ _ _ => rfl, fun no => absurd (routed.symm.trans no) (by decide)⟩
  | false =>
    rw [Laws.takeTrap_sup u t _ _ _ hd (by rw [dropped]; exact hs), State.task_onTask_same, dropped]
    refine ⟨rfl, fun routed free set => ?_, fun no => ⟨rfl, rfl, by rw [no]; rfl⟩⟩
    rw [ht, routed, free] at hd
    exact absurd hd (by simpa using set)

/-- Settles O15: the entry of a trap is one of `takeTrap`'s three, and the returns and the breakpoint are their own lemmas. -/
theorem trapEntryReturnAndBreakpoint : Obligations.TrapEntryReturnAndBreakpoint := by
  refine ⟨fun s g i => ?_, fun s g hg => ?_⟩
  · intro t x
    refine ⟨fun hg => ?_, fun c info h1 h2 _ _ => ?_⟩
    · rw [BitVec.ofNat_toNat]
      exact traps_of_error (show execTrap g i s = _ from rfl) hg rfl
    intro u own handler saved
    have hu : u = takeTrap s t (causeCode c) info false := raise_eq s t info false h1 h2
    have taken : (routedToTask (causeCode c) && !(s.task t).tr.inTrap && (s.task t).tr.tvec ≠ 0) = true ↔ own ∧ handler := by
      simp only [Bool.and_eq_true, Bool.not_eq_true', decide_eq_true_eq, routedToTask_iff, and_assoc]
      exact Iff.rfl
    refine ⟨fun ho hh => ?_, fun hn hs => ?_, fun hn hs quiet => ?_⟩
    · rw [hu, Laws.takeTrap_task s t _ info false (taken.mpr ⟨ho, hh⟩)]
      exact ⟨onlyTask_onCur s _, by rw [State.task_onTask_same]; rfl⟩
    · have hu' := hu.trans (Laws.takeTrap_sup s t _ info false (by simpa only [Bool.not_eq_true] using mt taken.mp hn) hs)
      have hx : u.task t = x.trapSup (s.core x.core).stvec (causeCode c) info (routedToTask (causeCode c)) false := by
        rw [hu', State.task_onTask_same]; rfl
      refine ⟨hu' ▸ onlyTask_onCur s _, fun ho => ?_, fun ho => ?_, hx ▸ supervisorPcc_fields _⟩
      · rw [hx, (routedToTask_iff c).mpr ho]; rfl
      · rw [hx, show routedToTask (causeCode c) = false by simpa using mt (routedToTask_iff c).mp ho]; rfl
    · have hd : u = doubleFault s t (causeCode c) := by
        rw [hu, takeTrap]
        simp only [show (routedToTask (causeCode c) && !(s.task t).tr.inTrap && (s.task t).tr.tvec ≠ 0) = false by
          simpa only [Bool.not_eq_true] using mt taken.mp hn, show (s.task t).sup.inStrap = true from hs, Bool.false_eq_true, if_false, if_true]
      rw [hd]
      exact doubleFault_stops s t _ quiet
  · intro x back lowered
    refine ⟨exec_tret hg, fun hp hh => ?_, fun p l hp hh hc hr => ?_, fun hd => ?_, fun hd => ?_⟩
    · have none : takeHeld (s.onCur fun x => x.settle.sret) s.curTid = s.onCur fun x => x.settle.sret :=
        takeHeld_none (by rw [State.task_onCur, if_pos rfl]; exact hh)
      exact transfers_of_next (k := fun x => x.settle.sret) ((exec_sret hg hp).trans (by rw [none])) rfl
    · have now : (s.onCur fun x => x.settle.sret).task s.curTid = x.settle.sret := by rw [State.task_onCur, if_pos rfl]
      obtain ⟨e1, e2, e3⟩ := takeHeld_entry (s := s.onCur fun x => x.settle.sret) (t := s.curTid) (p := p) (l := l) (by rw [now]; exact hh)
        (by rw [now]; rfl) hc (by rw [now]; simp [Task.sret, Task.settle, show x.status = _ from hr])
      rw [now] at e2 e3
      exact ⟨_, exec_sret hg hp, e1, e2, e3⟩
    · exact traps_of_error (show execBrk g s = _ from rfl) hg (by rw [hd]; rfl)
    · refine ⟨debugStop s s.curTid 0, ?_, debugStop_stops s s.curTid 0⟩
      rw [show exec (.brk g) s = execBrk g s from rfl, execBrk, guarded_on hg, hd]
      rfl

end Sys2Proof.Machine
end

section
/-! PROOFS. Memory as the executing task's accesses see it (R47, R148, R149, R367): what placing an access leaves of that, and the tags of a
store through a loop-back path. -/

namespace Sys2Proof.Machine

open Sys2Proof.Safety Sys2Proof.Laws

/-! The same view of memory -/

/-- The executing task meets the same memory, through the same stores of its own. -/
structure SameView (s u : State) : Prop where
  cur : u.cur = s.cur
  tid : u.curTid = s.curTid
  loop : u.me.loop = s.me.loop
  mem : u.mem = s.mem
  tags : u.tags = s.tags
  ue : u.ue = s.ue

theorem SameView.refl (s : State) : SameView s s := ⟨rfl, rfl, rfl, rfl, rfl, rfl⟩

theorem SameView.trans {s u v : State} (h : SameView s u) (k : SameView u v) : SameView s v :=
  ⟨k.cur.trans h.cur, k.tid.trans h.tid, k.loop.trans h.loop, k.mem.trans h.mem, k.tags.trans h.tags, k.ue.trans h.ue⟩

section
variable {s u : State} (h : SameView s u)
include h

theorem SameView.byte (a : Nat) : u.byte a = s.byte a := by unfold State.byte; rw [h.mem]
theorem SameView.tagAt (a : Nat) : u.tagAt a = s.tagAt a := by unfold State.tagAt; rw [h.tags]

theorem SameView.readBytes (a n : Nat) : u.readBytes a n = s.readBytes a n := by
  induction n generalizing a with
  | zero => rfl
  | succ n ih => rw [State.readBytes, State.readBytes, h.byte, ih]

theorem SameView.badByte : u.badByte = s.badByte := by funext a; unfold State.badByte; rw [h.ue]

theorem SameView.firstBad (a n : Nat) : u.firstBad a n = s.firstBad a n := by
  induction n generalizing a with
  | zero => rfl
  | succ n ih => rw [State.firstBad, State.firstBad, h.badByte, ih]

theorem SameView.loopMine : u.loopMine = s.loopMine := by unfold State.loopMine; rw [h.loop, h.tid]
theorem SameView.ahead (g : Bool) : u.ahead g = s.ahead g := by unfold State.ahead; rw [h.loopMine]
theorem SameView.ownOffset (pa : Nat) : ownOffset u pa = ownOffset s pa := by unfold Machine.ownOffset; rw [h.cur]

theorem SameView.seenByte (a : W64) (pa : Nat) : u.seenByte a pa = s.seenByte a pa := by
  unfold State.seenByte; rw [h.ownOffset, h.byte, h.loopMine]
theorem SameView.seenTag (a : W64) (pa : Nat) : u.seenTag a pa = s.seenTag a pa := by
  unfold State.seenTag; rw [h.ownOffset, h.tagAt, h.loopMine]
theorem SameView.foundByte (a : W64) (pa : Nat) : u.foundByte a pa = s.foundByte a pa := by
  unfold State.foundByte; rw [h.ownOffset, h.byte, h.ahead]
theorem SameView.under (a : W64) (pa : Nat) : u.under a pa = s.under a pa := by
  unfold State.under; rw [h.ownOffset, h.ahead]
theorem SameView.tagUnder (a : W64) (pa : Nat) : u.tagUnder a pa = s.tagUnder a pa := by
  unfold State.tagUnder; rw [h.ownOffset, h.ahead]
theorem SameView.seenNat (a : W64) (pa n : Nat) : u.seenNat a pa n = s.seenNat a pa n := by
  unfold State.seenNat State.seen; simp only [h.seenByte]
theorem SameView.foundNat (a : W64) (pa n : Nat) : u.foundNat a pa n = s.foundNat a pa n := by
  unfold State.foundNat; simp only [h.foundByte]

end

/-- Memory as before, for a state that this one saw as it was. -/
theorem SameView.memorySame {s u : State} (h : SameView s u) : MemorySame s u := ⟨h.byte, h.tagAt, h.ue⟩

/-! What placing an access leaves of the view -/

/-- The loop-back stores of every core. -/
def State.loops (s : State) (k : Nat) : List LoopStore := (s.core k).loop

theorem loops_onCore (s : State) (k : Nat) {f : Core → Core} (hf : ∀ c, (f c).loop = c.loop) : (s.onCore k f).loops = s.loops := by
  funext j
  unfold State.loops
  rw [State.core_onCore]
  split
  · next e => rw [e, hf]
  · rfl

theorem loops_keepRoot (s : State) (p : Path) (asid : W16) (r : Option Nat) : (s.keepRoot p asid r).loops = s.loops := by
  unfold State.keepRoot
  split <;> rfl

theorem loops_fillPath (s : State) (p : Path) (asid : W16) (va level : Nat) (leaf : W64) (walked : Bool) :
    (s.fillPath p asid va level leaf walked).loops = s.loops := by
  obtain ⟨core, cl, die⟩ := p
  have shared : (State.fillPath s ⟨none, cl, die⟩ asid va level leaf walked).loops = s.loops := by
    cases cl <;> cases walked <;> rfl
  cases core with
  | none => exact shared
  | some e =>
    obtain ⟨k, i⟩ := e
    cases i
    · exact (loops_onCore _ k fun _ => by rfl).trans shared
    · exact (loops_onCore _ k fun _ => by rfl).trans shared

theorem loops_translate (s : State) (p : Path) (asid : W16) (va : Nat) (u : Use) (sup : Bool) :
    (s.translate p asid va u sup).1.loops = s.loops := by
  unfold State.translate
  dsimp only
  split
  · rfl
  · rfl
  · exact loops_keepRoot ..
  · split
    · split
      · exact (loops_fillPath ..).trans (loops_keepRoot ..)
      · exact loops_keepRoot ..
    · exact loops_keepRoot ..

/-- What translating leaves: caches and counters, no loop-back store. -/
theorem translated (s : State) (a : W64) (u : Use) {x : Task} :
    let r := s.translate ⟨some (s.cur, u = .fetch), some (clusterOf s.cur), dieOf s.cur⟩ x.asid a.toNat u x.sup.priv
    Placed s (countLookup r.1 r.2.1 u) ∧ (countLookup r.1 r.2.1 u).loops = s.loops :=
  ⟨placed_trans (placed_of_caches (translate_caches ..)) (countLookup_placed ..), loops_translate ..⟩

/-- An access as its stop or its success leaves the state: placed, with the loop-back stores as they were. -/
def PlacedView (s u : State) : Prop := Placed s u ∧ u.loops = s.loops

theorem PlacedView.refl (s : State) : PlacedView s s := ⟨placed_refl s, rfl⟩
theorem PlacedView.trans {s u v : State} (h : PlacedView s u) (k : PlacedView u v) : PlacedView s v :=
  ⟨placed_trans h.1 k.1, k.2.trans h.2⟩

theorem PlacedView.view {s u : State} (h : PlacedView s u) : SameView s u := by
  obtain ⟨⟨acc, mem, tags, ue, -⟩, loops⟩ := h
  have hc : u.cur = s.cur := by rw [acc.1]
  refine ⟨hc, accessed_curTid acc, ?_, mem, tags, ue⟩
  unfold State.me
  rw [hc]
  exact congrFun loops s.cur

/-- The executing task after a placed access: its two lookup counters apart, as before. -/
theorem PlacedView.counted {s u : State} (h : PlacedView s u) : Counted s.curTask u.curTask := h.1.2.2.2.2

theorem translate5_view {s t : State} {a : W64} {u : Use} {r : Nat × Bool} (h : translate5 s a u = .ok (t, r)) : PlacedView s t := by
  unfold translate5 at h
  split at h
  · cases h
  · dsimp only at h
    have kept := translated s a u (x := s.curTask)
    split at h
    · cases h
    · cases h
    · cases h
    · split at h
      · cases h
      · cases h; exact kept

theorem place_view {s t : State} {a : W64} {n : Nat} {u : Use} {g : Target} (h : place s a n u = .ok (t, g)) : PlacedView s t := by
  unfold place at h
  split at h
  · cases h; exact .refl s
  · split at h
    · next s1 pa sup he =>
      unfold target6 at h
      split at h
      · cases h; exact translate5_view he
      · cases h
    · cases h

theorem resolve_view {s t : State} {c : GVal} {perm : Byte} {a : W64} {n al : Nat} {u : Use} {e : Bool} {g : Target}
    (h : resolve s c perm a n al u e = .ok (t, g)) : PlacedView s t := place_view (resolve_place h)

/-! The granules of a core's own scratchpad -/

/-- The scratchpad is whole granules. -/
theorem ownOffset_granule (s : State) {a b : Nat} (h : a / 16 = b / 16) : (ownOffset s a).map (· / 16) = (ownOffset s b).map (· / 16) := by
  have hp : ∃ k, spadPa s.cur = 16 * k := by
    unfold spadPa dieOf
    exact ⟨s.cur / 320 * 2 ^ 39 + 0x006000000000 + s.cur % 320 * 0x8000, by omega⟩
  obtain ⟨k, hk⟩ := hp
  unfold ownOffset
  rw [hk]
  simp only [Bool.and_eq_true, decide_eq_true_eq]
  split
  · rw [if_pos (by omega)]
    simp only [Option.map_some, Option.some.injEq]
    omega
  · rw [if_neg (by omega)]

theorem ownOffset_isSome_granule (s : State) {a b : Nat} (h : a / 16 = b / 16) : (ownOffset s a).isSome = (ownOffset s b).isSome := by
  simpa using congrArg Option.isSome (ownOffset_granule s h)

theorem tagAt_granule (s : State) {a b : Nat} (h : a / 16 = b / 16) : s.tagAt a = s.tagAt b := by unfold State.tagAt; rw [h]

theorem tagUnder_granule (s : State) (a : W64) {p b : Nat} (h : p / 16 = b / 16) : s.tagUnder a p = s.tagUnder a b := by
  have e := ownOffset_granule s h
  unfold State.tagUnder
  generalize ownOffset s p = x at e ⊢
  generalize ownOffset s b = y at e ⊢
  cases x <;> cases y <;> simp_all

theorem foundTag_granule (s : State) (a : W64) {p b : Nat} (h : p / 16 = b / 16) : s.foundTag a p = s.foundTag a b := by
  have e := ownOffset_granule s h
  unfold State.foundTag
  rw [tagAt_granule s h]
  generalize ownOffset s p = x at e ⊢
  generalize ownOffset s b = y at e ⊢
  cases x <;> cases y <;> simp_all

theorem tagUnder_own {s : State} {a : W64} {b : Nat} (h : s.tagUnder a b = true) : (ownOffset s b).isSome = true := by
  unfold State.tagUnder at h
  generalize ownOffset s b = o at h
  cases o with
  | none => exact h
  | some o => rfl

/-- A store that lies under none finds what memory holds. -/
theorem foundByte_free {s : State} {a : W64} {b : Nat} (h : s.under a b = false) : s.foundByte a b = s.byte b := by
  unfold State.under at h
  unfold State.foundByte
  generalize ownOffset s b = o at h ⊢
  cases o with
  | none => rfl
  | some o =>
    simp only [Option.elim, decide_eq_false_iff_not, ne_eq, not_not] at h
    simp only [Option.elim, h]
    rfl

theorem foundTag_free {s : State} {a : W64} {b : Nat} (h : s.tagUnder a b = false) : s.foundTag a b = s.tagAt b := by
  unfold State.tagUnder at h
  unfold State.foundTag
  generalize ownOffset s b = o at h ⊢
  cases o with
  | none => rfl
  | some o =>
    simp only [Option.elim, decide_eq_false_iff_not, ne_eq, not_not] at h
    simp only [Option.elim, h]
    rfl

theorem tagAt_found (s : State) (a : W64) (ps : List Nat) (b : Nat) :
    (s.found a ps).tagAt b = if ∃ p ∈ ps, p / 16 = b / 16 then s.foundTag a b else s.tagAt b := by
  have key : ∀ t : State, (ps.foldl (fun t pa => (t.putByte pa (s.foundByte a pa)).setTag pa (s.foundTag a pa)) t).tagAt b
      = if ∃ p ∈ ps, p / 16 = b / 16 then s.foundTag a b else t.tagAt b := by
    induction ps with
    | nil => intro t; simp
    | cons p ps ih =>
      intro t
      rw [List.foldl_cons, ih, tagAt_setTag, tagAt_putByte]
      by_cases h : p / 16 = b / 16
      · simp [h, foundTag_granule s a h]
      · simp [h, show ¬ b / 16 = p / 16 from fun e => h e.symm]
  exact key s

theorem tagAt_giveBack (s : State) (a : W64) (ps : List Nat) (t : State) (b : Nat) :
    (s.giveBack a ps t).tagAt b = if (∃ p ∈ ps, p / 16 = b / 16) ∧ s.tagUnder a b = true then s.tagAt b else t.tagAt b := by
  unfold State.giveBack
  induction ps generalizing t with
  | nil => simp
  | cons p ps ih =>
    rw [List.foldl_cons, ih]
    have byte : (if s.under a p = true then t.putByte p (s.byte p) else t).tagAt b = t.tagAt b := by split <;> rfl
    generalize (if s.under a p = true then t.putByte p (s.byte p) else t) = v at byte ⊢
    by_cases h : p / 16 = b / 16
    · rw [tagUnder_granule s a h, tagAt_granule s h]
      by_cases hu : s.tagUnder a b = true
      · simp [hu, h]
      · simp [hu, byte]
    · have tag : (if s.tagUnder a p = true then v.setTag p (s.tagAt p) else v).tagAt b = t.tagAt b := by
        split
        · rw [tagAt_setTag, if_neg fun e => h e.symm, byte]
        · exact byte
      simp [tag, h]

/-! Bytes and tags of a store through a path (R47, R367) -/

theorem mem_ownCells_iff (s : State) (pas : List Nat) (b : Nat) : b ∈ s.ownCells pas ↔ b ∈ pas ∧ (ownOffset s b).isSome = true := by
  unfold State.ownCells; rw [List.mem_filter]

/-- What a store through a path does to a byte: one that lies under a store of the other path stays, any other becomes what the store makes
of it. -/
theorem byte_through (s : State) (a : W64) (pas : List Nat) {f : State → State} {F : Nat → Byte → Byte}
    (hf : ∀ x b, (f x).byte b = F b (x.byte b)) (out : ∀ b v, b ∉ pas → F b v = v) (b : Nat) :
    (s.through a pas f).byte b = if s.under a b = true then s.byte b else F b (s.byte b) := by
  have base (free : s.under a b = false) : (if s.me.loop = [] then s else s.found a (s.ownCells pas)).byte b = s.byte b := by
    split
    · rfl
    · rw [byte_found, foundByte_free free, ite_self]
  have lacks (h : b ∉ s.ownCells pas) (hu : s.under a b = true) : b ∉ pas :=
    fun hb => h ((mem_ownCells_iff s pas b).mpr ⟨hb, under_own hu⟩)
  unfold State.through
  extract_lets ps c d t e es u
  split
  · next h =>
    rw [hf]
    split
    · next hu => exact out b _ (lacks (by rw [show s.ownCells pas = ps from rfl, h]; exact List.not_mem_nil) hu)
    · rfl
  · rw [byte_setLoop]
    have ht : t.byte b = F b (d.byte b) := hf d b
    show State.byte (if es = [] then t else s.giveBack a ps t) b = _
    split
    · next h =>
      have free := (not_under h b).1
      rw [ht, show d.byte b = s.byte b from base free, free]
      rfl
    · rw [byte_giveBack]
      by_cases hu : s.under a b = true
      · by_cases hb : b ∈ ps
        · rw [if_pos ⟨hb, hu⟩, if_pos hu]
        · have hd : d.byte b = s.byte b := by
            show (if s.me.loop = [] then s else s.found a ps).byte b = _
            split
            · rfl
            · rw [byte_found, if_neg hb]
          rw [if_neg (fun h => hb h.1), if_pos hu, ht, out b _ (lacks hb hu), hd]
      · rw [if_neg (fun h => hu h.2), if_neg hu, ht, show d.byte b = s.byte b from base (by simpa using hu)]

/-- What such a store does to a tag: G says which granules it writes, g with which tag. -/
theorem tagAt_through (s : State) (a : W64) (pas : List Nat) {f : State → State} {G : Nat → Prop} [DecidablePred G] {g : Nat → Tag}
    (hf : ∀ x b, (f x).tagAt b = if G b then g b else x.tagAt b)
    (own : ∀ b, G b → (ownOffset s b).isSome = true → ∃ p ∈ pas, p / 16 = b / 16) (b : Nat) :
    (s.through a pas f).tagAt b = if G b ∧ s.tagUnder a b = false then g b else s.tagAt b := by
  have reached (hG : G b) (hu : s.tagUnder a b = true) : ∃ p ∈ s.ownCells pas, p / 16 = b / 16 := by
    obtain ⟨p, hp, e⟩ := own b hG (tagUnder_own hu)
    exact ⟨p, (mem_ownCells_iff s pas p).mpr ⟨hp, (ownOffset_isSome_granule s e).trans (tagUnder_own hu)⟩, e⟩
  have base (free : s.tagUnder a b = false) : (if s.me.loop = [] then s else s.found a (s.ownCells pas)).tagAt b = s.tagAt b := by
    split
    · rfl
    · rw [tagAt_found, foundTag_free free, ite_self]
  unfold State.through
  extract_lets ps c d t e es u
  split
  · next h =>
    rw [hf]
    by_cases hG : G b
    · have free : s.tagUnder a b = false := by
        by_contra hu
        obtain ⟨p, hp, -⟩ := reached hG (by simpa using hu)
        rw [show s.ownCells pas = ps from rfl, h] at hp
        cases hp
      simp [hG, free]
    · simp [hG]
  · have ht : t.tagAt b = if G b then g b else d.tagAt b := hf d b
    rw [show State.tagAt (State.setLoop u _) b = u.tagAt b from rfl]
    show State.tagAt (if es = [] then t else s.giveBack a ps t) b = _
    split
    · next h =>
      have free := (not_under h b).2
      rw [ht, show d.tagAt b = s.tagAt b from base free]
      simp [free]
    · rw [tagAt_giveBack, ht]
      cases hu : s.tagUnder a b with
      | false => simp [show d.tagAt b = s.tagAt b from base hu]
      | true =>
        by_cases hp : ∃ p ∈ ps, p / 16 = b / 16
        · simp [hp]
        · have hd : d.tagAt b = s.tagAt b := by
            show (if s.me.loop = [] then s else s.found a ps).tagAt b = _
            split
            · rfl
            · rw [tagAt_found, if_neg hp]
          have hG : ¬ G b := fun hG => hp (reached hG hu)
          simp [hp, hG, hd]

/-! Stores (R47, R48) -/

/-- What a write of bytes makes of one byte. -/
def overlaid (a : Nat) (bs : List Byte) (b : Nat) (v : Byte) : Byte := if a ≤ b ∧ b < a + bs.length then bs.getD (b - a) 0 else v

theorem byte_write (s : State) (a : Nat) (bs : List Byte) (b : Nat) : (s.write a bs).byte b = overlaid a bs b (s.byte b) := by
  unfold overlaid
  split
  · next h =>
    obtain ⟨k, hk, rfl⟩ : ∃ k, k < bs.length ∧ b = a + k := ⟨b - a, by omega, by omega⟩
    rw [State.byte_write_inside s bs a k hk, Nat.add_sub_cancel_left, List.getD_eq_getElem _ _ hk]
  · rw [State.byte_write_outside s bs a b (by omega)]

theorem mem_range_add {pa n b : Nat} : b ∈ (List.range n).map (pa + ·) ↔ pa ≤ b ∧ b < pa + n := by
  simp only [List.mem_map, List.mem_range]
  exact ⟨fun ⟨k, hk, e⟩ => by omega, fun h => ⟨b - pa, by omega, by omega⟩⟩

/-- Some byte of a range lies in each granule that it overlaps. -/
theorem overlapped_mem {pa n b : Nat} (hn : 0 < n) (h : pa / 16 ≤ b / 16 ∧ b / 16 ≤ (pa + n - 1) / 16) :
    ∃ p ∈ (List.range n).map (pa + ·), p / 16 = b / 16 := by
  by_cases hb : pa ≤ b / 16 * 16
  · exact ⟨b / 16 * 16, mem_range_add.mpr ⟨hb, by omega⟩, by omega⟩
  · exact ⟨pa, mem_range_add.mpr ⟨by omega, by omega⟩, by omega⟩

theorem length_pos_of_ne_nil {α : Type} {l : List α} (h : l ≠ []) : 0 < l.length := List.length_pos_iff.mpr h

/-- The tags of a store through a path. -/
theorem taggedVia_store (s : State) (a : W64) (pa : Nat) (bs : List Byte) (h : bs ≠ []) : TaggedVia s (s.store a pa bs) a pa bs.length .data := by
  intro b
  rw [State.store, tagAt_through s a _ (G := fun b => pa / 16 ≤ b / 16 ∧ b / 16 ≤ (pa + bs.length - 1) / 16) (g := fun _ => .data)
    (fun x b => tagged_write x pa bs h b) (fun b hb _ => overlapped_mem (length_pos_of_ne_nil h) hb) b]
  simp only [and_assoc]

/-- A store of bytes at a placed address, in full. -/
theorem stored_store (s : State) (a : W64) (pa : Nat) (bs : List Byte) (h : bs ≠ []) : Stored s (s.store a pa bs) a pa bs .data := by
  have bytes := wroteVia_store s a pa bs
  have tags := taggedVia_store s a pa bs h
  refine ⟨fun none => ?_, bytes, tags⟩
  have free (pa : Nat) := (loopless s a none pa).2.2.2
  refine ⟨⟨fun k hk => ?_, bytes.2⟩, fun b => ?_⟩
  · rw [bytes.1 k hk, (free _).1]; rfl
  · rw [tags b, (free b).2]; simp only [and_true]

theorem leBytes_length (n v : Nat) : (leBytes n v).length = n := by
  induction n generalizing v with
  | zero => rfl
  | succ n ih => simp [leBytes, ih]

theorem tagAt_writeCap (s : State) (pa : Nat) (v : GVal) (b : Nat) : (writeCap s pa v).tagAt b =
    if pa / 16 ≤ b / 16 ∧ b / 16 ≤ (pa + 15) / 16 then (if b / 16 = pa / 16 then v.tag else .data) else s.tagAt b := by
  have len := leBytes_length 16 v.bits.toNat
  have tags := tagged_write s pa (leBytes 16 v.bits.toNat) (List.length_pos_iff.mp (by omega)) b
  rw [writeCap, tagAt_setTag, tags, len]
  split
  · next e => rw [if_pos (by omega)]
  · rfl

theorem byte_writeCap (s : State) (pa : Nat) (v : GVal) (b : Nat) :
    (writeCap s pa v).byte b = overlaid pa (leBytes 16 v.bits.toNat) b (s.byte b) := byte_write s pa _ b

theorem overlaid_outside {a b : Nat} {bs : List Byte} {v : Byte} (h : b < a ∨ a + bs.length ≤ b) : overlaid a bs b v = v := if_neg (by omega)

theorem overlaid_inside {a k : Nat} {bs : List Byte} {v : Byte} (h : k < bs.length) : overlaid a bs (a + k) v = bs[k] := by
  rw [overlaid, if_pos (by omega), Nat.add_sub_cancel_left, List.getD_eq_getElem _ _ h]

/-- The bytes of a store with a tag. -/
theorem wroteVia_storeCap (s : State) (a : W64) (pa : Nat) (v : GVal) : WroteVia s (storeCap s a pa v) a pa (leBytes 16 v.bits.toNat) := by
  have len := leBytes_length 16 v.bits.toNat
  have bytes (b : Nat) := byte_through s a ((List.range 16).map (pa + ·)) (F := overlaid pa (leBytes 16 v.bits.toNat))
    (fun x b => byte_writeCap x pa v b) (fun b v h => overlaid_outside (by rw [len]; rw [mem_range_add] at h; omega)) b
  constructor
  · intro k hk
    rw [storeCap, bytes, overlaid_inside hk]
  · intro b hb
    rw [storeCap, bytes, overlaid_outside hb, ite_self]

/-- Its tags. -/
theorem tagAt_storeCap (s : State) (a : W64) (pa : Nat) (v : GVal) (b : Nat) : (storeCap s a pa v).tagAt b =
    if (pa / 16 ≤ b / 16 ∧ b / 16 ≤ (pa + 15) / 16) ∧ s.tagUnder a b = false then (if b / 16 = pa / 16 then v.tag else .data) else s.tagAt b :=
  tagAt_through s a _ (G := fun b => pa / 16 ≤ b / 16 ∧ b / 16 ≤ (pa + 15) / 16) (fun x b => tagAt_writeCap x pa v b)
    (fun _ hb _ => overlapped_mem (by omega) hb) b

/-! The view under stores -/

theorem SameView.putByte {s u : State} (h : SameView s u) {a : Nat} {b : Byte} : SameView (s.putByte a b) (u.putByte a b) :=
  ⟨h.cur, h.tid, h.loop, congrArg (sset 0 · a b) h.mem, h.tags, h.ue⟩

theorem SameView.setTag {s u : State} (h : SameView s u) {a : Nat} {g : Tag} : SameView (s.setTag a g) (u.setTag a g) :=
  ⟨h.cur, h.tid, h.loop, h.mem, congrArg (sset Tag.data · (a / 16) g) h.tags, h.ue⟩

theorem SameView.foldl {α : Type} {f g : State → α → State} (hf : ∀ x y a, SameView x y → SameView (f x a) (g y a)) {s u : State}
    (h : SameView s u) (l : List α) : SameView (l.foldl f s) (l.foldl g u) := by
  induction l generalizing s u with
  | nil => exact h
  | cons a l ih => exact ih (hf s u a h)

theorem SameView.storeBytes {s u : State} (h : SameView s u) {a : Nat} {bs : List Byte} : SameView (s.storeBytes a bs) (u.storeBytes a bs) := by
  induction bs generalizing s u a with
  | nil => exact h
  | cons b bs ih => exact ih (.setTag (.putByte h))

theorem SameView.mend {s u : State} (h : SameView s u) {a n : Nat} : SameView (s.mend a n) (u.mend a n) := by
  unfold State.mend
  rw [h.ue]
  split
  · exact h
  · exact ⟨h.cur, h.tid, h.loop, h.mem, h.tags, rfl⟩

theorem SameView.write {s u : State} (h : SameView s u) {a : Nat} {bs : List Byte} : SameView (s.write a bs) (u.write a bs) :=
  .mend (.storeBytes h)

theorem SameView.found {s u : State} (h : SameView s u) {a : W64} {ps : List Nat} : SameView (s.found a ps) (u.found a ps) := by
  unfold State.found
  refine .foldl (fun x y p k => ?_) h ps
  rw [h.foundByte, show u.foundTag a p = s.foundTag a p by unfold State.foundTag; rw [h.ownOffset, h.tagAt, h.ahead]]
  exact .setTag (.putByte k)

theorem SameView.giveBack {s u : State} (h : SameView s u) {a : W64} {ps : List Nat} {x y : State} (k : SameView x y) :
    SameView (s.giveBack a ps x) (u.giveBack a ps y) := by
  unfold State.giveBack
  refine .foldl (fun x y p k => ?_) k ps
  dsimp only
  rw [h.under, h.byte, h.tagUnder, h.tagAt]
  have bytes : SameView (if s.under a p = true then x.putByte p (s.byte p) else x) (if s.under a p = true then y.putByte p (s.byte p) else y) := by
    split
    · exact .putByte k
    · exact k
  split
  · exact .setTag bytes
  · exact bytes

theorem curTid_setLoop (s : State) (es : List LoopStore) : (s.setLoop es).curTid = s.curTid := by
  have hi : (s.setLoop es).me.issuing = s.me.issuing := by
    unfold State.me State.setLoop
    rw [State.onCore_cur, State.core_onCore_same]
    rfl
  unfold State.curTid
  rw [hi]
  rfl

theorem loop_setLoop (s : State) (es : List LoopStore) : (s.setLoop es).me.loop = s.me.loop.filter (fun e => e.task ≠ s.curTid) ++ es := by
  unfold State.me State.setLoop
  rw [State.onCore_cur, State.core_onCore_same]

theorem SameView.setLoop {s u : State} (h : SameView s u) {es : List LoopStore} : SameView (s.setLoop es) (u.setLoop es) :=
  ⟨h.cur, by rw [curTid_setLoop, curTid_setLoop, h.tid], by rw [loop_setLoop, loop_setLoop, h.loop, h.tid], h.mem, h.tags, h.ue⟩

theorem SameView.through {s u : State} (h : SameView s u) {a : W64} {pas : List Nat} {f g : State → State}
    (hf : ∀ x y, SameView x y → SameView (f x) (g y)) : SameView (s.through a pas f) (u.through a pas g) := by
  have cells : u.ownCells pas = s.ownCells pas := by unfold State.ownCells; simp only [h.ownOffset]
  have base : SameView (if s.me.loop = [] then s else s.found a (s.ownCells pas)) (if u.me.loop = [] then u else u.found a (u.ownCells pas)) := by
    rw [h.loop, cells]
    split
    · exact h
    · exact .found h
  unfold State.through
  dsimp only
  rw [cells] at base ⊢
  split
  · exact hf s u h
  · rw [h.ahead, h.loopMine, h.tid, h.cur]
    generalize (if s.me.loop = [] then s else s.found a (s.ownCells pas)) = x at base ⊢
    generalize (if u.me.loop = [] then u else u.found a (s.ownCells pas)) = y at base ⊢
    have written := hf x y base
    simp only [base.byte, base.tagAt, written.byte, written.tagAt]
    refine .setLoop ?_
    split
    · exact written
    · exact .giveBack h written

theorem SameView.store {s u : State} (h : SameView s u) {a : W64} {pa : Nat} {bs : List Byte} : SameView (s.store a pa bs) (u.store a pa bs) :=
  .through h fun _ _ k => .write k

/-! Beside memory -/

theorem SameView.onTask {s u : State} (h : SameView s u) {t : BitVec 48} {f : Task → Task} : SameView s (u.onTask t f) :=
  ⟨h.cur, h.tid, h.loop, h.mem, h.tags, h.ue⟩

theorem SameView.onCur {s u : State} (h : SameView s u) {f : Task → Task} : SameView s (u.onCur f) := h.onTask

/-- A change of the executing core that leaves its slots and loop-back stores. -/
theorem SameView.onCore {s u : State} (h : SameView s u) {k : Nat} {f : Core → Core}
    (hf : ∀ c, (f c).slotHigh = c.slotHigh ∧ (f c).slotBase = c.slotBase ∧ (f c).loop = c.loop) : SameView s (u.onCore k f) := by
  have me : (u.onCore k f).me.slotHigh = u.me.slotHigh ∧ (u.onCore k f).me.slotBase = u.me.slotBase ∧ (u.onCore k f).me.loop = u.me.loop := by
    unfold State.me
    rw [State.onCore_cur, State.core_onCore]
    split
    · next e => rw [← e]; exact hf _
    · exact ⟨rfl, rfl, rfl⟩
  have tid : (u.onCore k f).curTid = u.curTid := by
    unfold State.curTid Core.issuing
    rw [me.1, me.2.1]
    rfl
  exact ⟨h.cur, tid.trans h.tid, me.2.2.trans h.loop, h.mem, h.tags, h.ue⟩

theorem SameView.charge {s u : State} (h : SameView s u) {k e : Nat} : SameView s (u.charge k e) := h.onCore fun _ => ⟨rfl, rfl, rfl⟩
theorem SameView.chargeOut {s u : State} (h : SameView s u) {pa n : Nat} : SameView s (u.chargeOut pa n) := h.charge
theorem SameView.chargeCur {s u : State} (h : SameView s u) {pa n : Nat} : SameView s (u.chargeCur pa n) := h.charge
theorem SameView.owe {s u : State} (h : SameView s u) {n : Nat} : SameView s (u.owe n) := h.onCur
theorem SameView.retire {s u : State} (h : SameView s u) {n : Nat} : SameView s (retire u n) :=
  (h.onTask : SameView s (u.onTask u.curTid fun x => x.advance n))

/-! Who executes is no matter of memory -/

/-- A change of memory and of loop-back stores alone. -/
structure Stores (s u : State) : Prop where
  acc : Accessed s u
  tasks : u.tasks = s.tasks

theorem Stores.refl (s : State) : Stores s s := ⟨accessed_refl s, rfl⟩
theorem Stores.trans {s u v : State} (h : Stores s u) (k : Stores u v) : Stores s v := ⟨accessed_trans h.acc k.acc, k.tasks.trans h.tasks⟩
theorem Stores.tid {s u : State} (h : Stores s u) : u.curTid = s.curTid := accessed_curTid h.acc
theorem Stores.task {s u : State} (h : Stores s u) (t : BitVec 48) : u.task t = s.task t := by unfold State.task; rw [h.tasks]
theorem Stores.curTask {s u : State} (h : Stores s u) : u.curTask = s.curTask := by unfold State.curTask; rw [h.tid, h.task]

theorem Stores.sameButMemory {s u v : State} (h : Stores s u) (k : u.sameButMemory v) : Stores s v := by
  have k : v = { u with mem := v.mem, tags := v.tags, ue := v.ue } := k
  refine h.trans ⟨⟨by rw [k], fun t _ => ?_, fun c => ?_, fun c => ?_, fun d => ?_⟩, by rw [k]⟩ <;> rw [k] <;> rfl

theorem Stores.onCore {s u : State} (h : Stores s u) {k : Nat} {f : Core → Core}
    (hf : ∀ c, f c = { c with loop := (f c).loop, gov := { c.gov with energy := (f c).gov.energy } }) : Stores s (u.onCore k f) := by
  refine h.trans ⟨⟨rfl, fun _ _ => rfl, fun j => ?_, fun _ => rfl, fun _ => rfl⟩, rfl⟩
  rw [State.core_onCore]
  split
  · next e =>
    rw [e]
    generalize u.core k = c
    have := hf c
    rw [this]
  · rfl

theorem Stores.charge {s u : State} (h : Stores s u) {k e : Nat} : Stores s (u.charge k e) := h.onCore fun _ => rfl
theorem Stores.chargeOut {s u : State} (h : Stores s u) {pa n : Nat} : Stores s (u.chargeOut pa n) := h.charge
theorem Stores.chargeCur {s u : State} (h : Stores s u) {pa n : Nat} : Stores s (u.chargeCur pa n) := h.charge
theorem Stores.setLoop {s u : State} (h : Stores s u) {es : List LoopStore} : Stores s (u.setLoop es) := h.onCore fun _ => rfl
theorem Stores.putByte {s u : State} (h : Stores s u) {a : Nat} {b : Byte} : Stores s (u.putByte a b) := h.sameButMemory rfl
theorem Stores.setTag {s u : State} (h : Stores s u) {a : Nat} {g : Tag} : Stores s (u.setTag a g) := h.sameButMemory rfl
theorem Stores.write {s u : State} (h : Stores s u) {a : Nat} {bs : List Byte} : Stores s (u.write a bs) := h.sameButMemory (State.write_same u bs a)

theorem Stores.foldl {α : Type} {f : State → α → State} (hf : ∀ x a, Stores x (f x a)) {s u : State} (h : Stores s u) (l : List α) :
    Stores s (l.foldl f u) := by
  induction l generalizing u with
  | nil => exact h
  | cons a l ih => exact ih (h.trans (hf u a))

theorem Stores.found {s u : State} (h : Stores s u) {a : W64} {ps : List Nat} : Stores s (u.found a ps) :=
  .foldl (fun x _ => .setTag (.putByte (.refl x))) h ps

theorem Stores.giveBack {s u v : State} (h : Stores s v) {a : W64} {ps : List Nat} : Stores s (u.giveBack a ps v) := by
  refine .foldl (fun x p => ?_) h ps
  dsimp only
  have bytes : Stores x (if u.under a p = true then x.putByte p (u.byte p) else x) := by
    split
    · exact .putByte (.refl x)
    · exact .refl x
  split
  · exact .setTag bytes
  · exact bytes

theorem Stores.through {s u : State} (h : Stores s u) {a : W64} {pas : List Nat} {f : State → State} (hf : ∀ x, Stores x (f x)) :
    Stores s (u.through a pas f) := by
  unfold State.through
  extract_lets ps c d t e es v
  have base : Stores s d := by
    show Stores s (if u.me.loop = [] then u else u.found a ps)
    split
    · exact h
    · exact .found h
  split
  · exact h.trans (hf u)
  · refine .setLoop ?_
    show Stores s (if es = [] then t else u.giveBack a ps t)
    split
    · exact base.trans (hf d)
    · exact .giveBack (base.trans (hf d))

theorem Stores.store {s u : State} (h : Stores s u) {a : W64} {pa : Nat} {bs : List Byte} : Stores s (u.store a pa bs) :=
  .through h fun x => .write (.refl x)

theorem Stores.storeCap {s u : State} (h : Stores s u) {a : W64} {pa : Nat} {v : GVal} : Stores s (storeCap u a pa v) :=
  .through h fun x => .setTag (.write (.refl x))

/-! Access instructions that complete -/

theorem accessed_onCur {s u : State} (h : Accessed s u) {f : Task → Task} : Accessed s (u.onCur f) :=
  accessed_trans h ⟨rfl, fun v hv => by rw [State.task_onCur, if_neg hv], fun _ => rfl, fun _ => rfl, fun _ => rfl⟩

/-- An access of the executing task that changed memory, then its task. -/
theorem completesFrom_onCur {v s u : State} {i : Instr} {len : Nat} {f k : Task → Task} {m : State → Prop} {x : Task} (h : exec i s = .next (u.onCur k))
    (acc : Accessed v u) (tid : u.curTid = s.curTid) (hm : m (u.onCur k)) (hx : Counted s.curTask x) (hk : k u.curTask = (f x).advance len) :
    CompletesFrom v i len s f m :=
  ⟨_, x, h, accessed_onCur acc, hm, hx, by rw [State.task_onCur, if_pos tid.symm, hk]; exact Task.advance_retired _ _⟩

/-- A write that is performed, owed and retired, as one change of the task. -/
theorem task_retire_owe (u : State) (len : Nat) : (retire (u.owe 4) len).task u.curTid = (owing u.curTask).advance len := by
  rw [retire, retireOf, State.owe, State.onCur, State.curTid_onTask, State.task_onTask_same, State.task_onTask_same]
  rfl

/-- A store that is performed at a place: counted, owed, its instruction retired. -/
def posted (u : State) (pa n len : Nat) : State := retire ((u.chargeOut pa n).owe 4) len

theorem sameView_posted (u : State) (pa n len : Nat) : SameView u (posted u pa n len) := .retire (.owe (.chargeOut (.refl u)))

@[simp] theorem byte_posted (u : State) (pa n len b : Nat) : (posted u pa n len).byte b = u.byte b := (sameView_posted ..).byte b
@[simp] theorem tagAt_posted (u : State) (pa n len b : Nat) : (posted u pa n len).tagAt b = u.tagAt b := (sameView_posted ..).tagAt b

theorem accessed_posted {s u : State} {pa n len : Nat} (h : Accessed s (u.chargeOut pa n)) : Accessed s (posted u pa n len) := by
  have retired (x : State) (k : Accessed s x) : Accessed s (retire x len) := accessed_onCur k
  exact retired _ (accessed_onCur h)

/-- A store of the executing task that completes. -/
theorem completes_posted {s s1 u : State} {i : Instr} {pa n len : Nat} {m : State → Prop} (h : exec i s = .next (posted u pa n len))
    (placed : PlacedView s s1) (st : Stores s1 u) (hm : m (posted u pa n len)) : CompletesFrom s i len s owing m := by
  have charged : Stores s1 (u.chargeOut pa n) := st.chargeOut
  refine ⟨_, s1.curTask, h, accessed_posted (accessed_trans placed.1.1 charged.acc), hm, placed.counted, ?_⟩
  rw [← placed.view.tid, ← charged.tid, posted, task_retire_owe, charged.curTask]
  exact Task.advance_retired _ _

/-! Stores of a state with the same view -/

theorem SameView.wroteVia {s u t : State} (h : SameView s u) {a : W64} {pa : Nat} {bs : List Byte} (w : WroteVia u t a pa bs) :
    WroteVia s t a pa bs := by
  unfold WroteVia at *
  simpa only [h.under, h.byte] using w

theorem wroteVia_posted {s u : State} {a : W64} {pa k n len : Nat} {bs : List Byte} (w : WroteVia s u a pa bs) :
    WroteVia s (posted u k n len) a pa bs := by
  unfold WroteVia at *
  simpa only [byte_posted] using w

theorem stored_posted {s u : State} {a : W64} {pa k n len : Nat} {bs : List Byte} {g : Tag} (w : Stored s u a pa bs g) :
    Stored s (posted u k n len) a pa bs g := by
  unfold Stored Wrote Tagged TaggedVia at *
  simp only [byte_posted, tagAt_posted]
  exact ⟨w.1, wroteVia_posted w.2.1, w.2.2⟩

theorem SameView.stored {s u t : State} (h : SameView s u) {a : W64} {pa : Nat} {bs : List Byte} {g : Tag} (w : Stored u t a pa bs g) :
    Stored s t a pa bs g := by
  obtain ⟨plain, bytes, tags⟩ := w
  unfold Wrote Tagged at plain
  unfold TaggedVia at tags
  simp only [h.loopMine, h.byte, h.tagAt] at plain
  simp only [h.tagUnder, h.tagAt] at tags
  exact ⟨plain, h.wroteVia bytes, tags⟩

end Sys2Proof.Machine
end

section
/-! PROOFS. Capabilities in memory (R46, R48, R156) and stores of bytes and elements (R47, R67 to R73, R155, R157). -/

namespace Sys2Proof.Machine

open Sys2Proof.Safety Sys2Proof.Laws

/-! What the checks of an access say -/

theorem resolve_check1 {s : State} {c : GVal} {perm : Byte} {a : W64} {n al : Nat} {u : Use} {e : Bool} {r : State × Target}
    (h : resolve s c perm a n al u e = .ok r) : check1 c perm a n e = .ok () := by
  unfold resolve at h
  simp only [bind, Except.bind] at h
  split at h
  · cases h
  · assumption

theorem readBytes_eq_map (s : State) (a n : Nat) : s.readBytes a n = (List.range n).map fun k => s.byte (a + k) := by
  induction n generalizing a with
  | zero => rfl
  | succ n ih =>
    rw [State.readBytes, ih, List.range_succ_eq_map, List.map_cons, List.map_map]
    congr 1
    exact List.map_congr_left fun k _ => by simp only [Function.comp, Nat.succ_eq_add_one]; congr 1; omega

theorem seenNat_loopless {s : State} (h : s.loopMine = []) (a : W64) (pa n : Nat) : s.seenNat a pa n = s.readNat pa n := by
  unfold State.seenNat State.seen State.readNat
  rw [readBytes_eq_map]
  exact congrArg leNat (List.map_congr_left fun k _ => (loopless s a h (pa + k)).1)

theorem foundNat_loopless {s : State} (h : s.loopMine = []) (a : W64) (pa n : Nat) : s.foundNat a pa n = s.readNat pa n := by
  unfold State.foundNat State.readNat
  rw [readBytes_eq_map]
  exact congrArg leNat (List.map_congr_left fun k _ => (loopless s a h (pa + k)).2.2.1)

/-- A range is clean where no byte of it is bad. -/
theorem firstBad_isSome (s : State) (pa n : Nat) : (s.firstBad pa n).isSome = false ↔ Clean s pa n := by
  unfold Clean
  induction n generalizing pa with
  | zero => simp [State.firstBad]
  | succ n ih =>
    rw [State.firstBad]
    cases hb : s.badByte pa with
    | true => exact ⟨fun h => absurd h (by simp), fun h => absurd (h 0 (by omega)) (by simp [hb])⟩
    | false =>
      rw [if_neg (by simp), ih]
      constructor
      · intro h k hk
        cases k with
        | zero => exact hb
        | succ k => rw [show pa + (k + 1) = pa + 1 + k by omega]; exact h k (by omega)
      · intro h k hk
        rw [show pa + 1 + k = pa + (k + 1) by omega]; exact h (k + 1) (by omega)

theorem loadable_ok {s : State} {a : W64} {pa n : Nat} (h : Clean s pa n) : loadable s a pa n = .ok () :=
  failIf_false ((firstBad_isSome s pa n).mpr h)

theorem loadable_bad {s : State} {a : W64} {pa n : Nat} (h : ¬ Clean s pa n) :
    loadable s a pa n = .error (.after (closeFrames s pa n) (.trap .memUe a)) :=
  failIf_true (eq_true_of_ne_false fun e => h ((firstBad_isSome s pa n).mp e))

theorem SameView.clean {s u : State} (h : SameView s u) {pa n : Nat} : Clean u pa n ↔ Clean s pa n := by unfold Clean; rw [h.badByte]

/-! Capabilities (R46, R48, R156) -/

/-- A capability may be stored: it is none, or its store has STCAP, keeps it on the core or global, and names no element. -/
def MayStore (c v : GVal) (e : W64) : Prop :=
  v.tag = .data ∨ (capPerm c.bits &&& permStcap ≠ 0 ∧ (isGlobal v = true ∨ e.toNat < 0x1000000) ∧ planeWin e = none)

theorem stcCheck_ok {c v : GVal} {e : W64} (h : MayStore c v e) : stcCheck c v e = .ok () := by
  unfold stcCheck
  split
  · rfl
  · next hv =>
    obtain hd | ⟨hp, hg, hw⟩ := h
    · exact absurd hd hv
    · refine failIf_false ?_
      rw [hw]
      obtain hg | he := hg
      · simpa [hg] using hp
      · simpa [show ¬ 0x1000000 ≤ e.toNat by omega] using hp

theorem stcCheck_bad {c v : GVal} {e : W64} (h : ¬ MayStore c v e) (hw : planeWin e = none) : stcCheck c v e = .error (.trap .capPerm e) := by
  unfold MayStore at h
  obtain ⟨hv, hc⟩ := not_or.mp h
  unfold stcCheck
  rw [if_neg hv]
  refine failIf_true ?_
  by_cases hp : capPerm c.bits &&& permStcap = 0
  · simp [hp]
  · by_cases hg : isGlobal v = true ∨ e.toNat < 0x1000000
    · exact absurd ⟨hp, hg, hw⟩ hc
    · obtain ⟨hg, he⟩ := not_or.mp hg
      simp [hg, show 0x1000000 ≤ e.toNat by omega]

theorem check1_plain {c : GVal} {perm : Byte} {e : W64} {n : Nat} (hc : capCheck c perm e n = none) (b : Bool) (hw : planeWin e = none) :
    check1 c perm e n b = .ok () := by
  unfold check1
  simp only [hw, hc]

/-- LDC where its bytes are good. -/
theorem exec_ldc {s s1 : State} {g : Guard} {d a : BitVec 5} {j : BitVec 11} {pa : Nat} (hg : s.curTask.guardOk g = true)
    (hr : resolve s (s.curTask.reg a) permLd (eaC (s.curTask.reg a) j) 16 16 .load false = .ok (s1, .mem pa)) (hc : Clean s1 pa 16) :
    exec (.ldc g d a j) s = .next ((s1.chargeCur pa 16).onCur fun x => (x.setReg d ⟨BitVec.ofNat 128 ((s1.chargeCur pa 16).seenNat (eaC (s.curTask.reg a) j) pa 16),
      if capPerm (s.curTask.reg a).bits &&& permLdcap = 0 then .data else (s1.chargeCur pa 16).seenTag (eaC (s.curTask.reg a) j) pa⟩).advance 4) := by
  rw [show exec (.ldc g d a j) s = execLdc g d a j s from rfl, execLdc, guarded_on hg]
  simp only [readChecked, hr, memTarget, bind, Except.bind, loadable_ok hc, pure, Except.pure]
  rfl

/-- STC of a value that may be stored. -/
theorem exec_stc {s s1 : State} {g : Guard} {d a : BitVec 5} {j : BitVec 11} {pa : Nat} (hg : s.curTask.guardOk g = true)
    (hr : resolve s (s.curTask.reg a) permSt (eaC (s.curTask.reg a) j) 16 16 .store false = .ok (s1, .mem pa))
    (ok : MayStore (s.curTask.reg a) (s.curTask.reg d) (eaC (s.curTask.reg a) j)) :
    exec (.stc g d a j) s = .next (posted (storeCap s1 (eaC (s.curTask.reg a) j) pa (s.curTask.reg d)) pa 16 4) := by
  rw [show exec (.stc g d a j) s = execStc g d a j s from rfl, execStc, guarded_on hg]
  simp only [resolve_check1 hr, stcCheck_ok ok, hr, memTarget, bind, Except.bind, pure, Except.pure]
  rfl

/-- Settles O9: LDC and STC by their access, the refusal by the check between. -/
theorem capabilitiesInMemoryKeepTheirTag : Obligations.CapabilitiesInMemoryKeepTheirTag := by
  intro s s1 g d a j pa hg c v e allowed
  refine ⟨fun none => ⟨seenNat_loopless none e pa 16, (loopless s e none pa).2.1⟩, fun hr hc => ?_, fun hr ok => ?_, fun hc hw no => ?_⟩
  · have placed := resolve_view hr
    have charged : SameView s (s1.chargeCur pa 16) := placed.view.chargeCur
    have st : Stores s1 (s1.chargeCur pa 16) := .chargeCur (.refl s1)
    refine completesFrom_onCur (exec_ldc hg hr (placed.view.clean.mpr hc)) (accessed_trans placed.1.1 st.acc)
      (st.tid.trans placed.view.tid) charged.onCur.memorySame placed.counted ?_
    rw [charged.seenNat, charged.seenTag, st.curTask]
  · have placed := resolve_view hr
    have bytes : WroteVia s (storeCap s1 e pa v) e pa (leBytes 16 v.bits.toNat) := placed.view.wroteVia (wroteVia_storeCap s1 e pa v)
    have tags (b : Nat) := tagAt_storeCap s1 e pa v b
    simp only [placed.view.tagUnder, placed.view.tagAt] at tags
    have here : (storeCap s1 e pa v).tagAt pa = if s.tagUnder e pa then s.tagAt pa else v.tag := by
      rw [tags, if_pos (show pa / 16 = pa / 16 from rfl)]
      cases s.tagUnder e pa <;> simp
      omega
    refine completes_posted (exec_stc hg hr ok) placed (.storeCap (.refl s1)) ⟨wroteVia_posted bytes, fun none => ?_, ?_, fun b hb ha => ?_⟩
    · have free (b : Nat) := (loopless s e none b).2.2.2
      refine ⟨⟨fun k hk => ?_, (wroteVia_posted bytes).2⟩, ?_⟩
      · rw [byte_posted, bytes.1 k hk, (free _).1]; rfl
      · rw [tagAt_posted, here, (free pa).2]; rfl
    · rw [tagAt_posted, here]
    · rw [tagAt_posted, tags, if_neg (by omega)]
  · refine traps_of_error (show execStc g d a j s = _ from rfl) hg ?_
    have refused : stcCheck (s.curTask.reg a) (s.curTask.reg d) (eaC (s.curTask.reg a) j) = .error (.trap .capPerm e) := stcCheck_bad no hw
    simp only [check1_plain (show capCheck (s.curTask.reg a) permSt (eaC (s.curTask.reg a) j) 16 = none from hc) false hw,
      refused, bind, Except.bind]

end Sys2Proof.Machine
end

section
/-! PROOFS. Stores of bytes (R155, R157) and of elements in the plane windows (R55, R67 to R73, R150). -/

namespace Sys2Proof.Machine

open Sys2Proof.Safety Sys2Proof.Laws

/-! Stores of bytes -/

theorem Counted.reg {x y : Task} (h : Counted x y) (r : BitVec 5) : y.reg r = x.reg r := by
  have h : y = { x with counts := y.counts } := by rw [h]
  rw [h]
  rfl

/-- What STL waits for is no matter of a placed access. -/
theorem PlacedView.sendsGone {s u : State} (h : PlacedView s u) : u.sendsGone = s.sendsGone := by
  obtain ⟨-, -, cores, -, -⟩ := h.1.1
  have me : u.me.sendq = s.me.sendq ∧ u.me.vecq = s.me.vecq ∧ u.me.postedUe = s.me.postedUe := by
    unfold State.me
    rw [h.view.cur, cores]
    exact ⟨rfl, rfl, rfl⟩
  obtain ⟨sends, loads, posted⟩ := me
  unfold State.sendsGone State.loadsBack
  rw [sends, loads, posted, h.view.tid]

/-- STL where the task's earlier accesses are done. -/
theorem exec_stl {s s1 : State} {g : Guard} {d a : BitVec 5} {o : BitVec 8} {z : BitVec 3} {pa : Nat} (hg : s.curTask.guardOk g = true)
    (hr : resolve s (s.curTask.reg a) permSt (eaM (s.curTask.reg a) o (szBytes z)) (szBytes z) (szBytes z) .store false = .ok (s1, .mem pa))
    (acked : s1.curTask.acked false = true) (gone : s1.sendsGone = true) :
    exec (.stl g d a o z) s = .next (posted (s1.store (eaM (s.curTask.reg a) o (szBytes z)) pa (leBytes (szBytes z) (s1.curTask.reg d).bits.toNat))
      pa (szBytes z) 4) := by
  rw [show exec (.stl g d a o z) s = execStl g d a o z s from rfl, execStl, guarded_on hg]
  have passed : failIf (!s1.curTask.acked false || !s1.sendsGone) (.after s1 .stall) = .ok () := failIf_false (by rw [acked, gone]; rfl)
  simp only [hr, memTarget, bind, Except.bind, passed, pure, Except.pure]
  rfl

/-- ST outside the plane windows. -/
theorem exec_st {s s1 : State} {g : Guard} {d a : BitVec 5} {o : BitVec 8} {z : BitVec 3} {pa : Nat} (hg : s.curTask.guardOk g = true)
    (hw : planeWin (eaM (s.curTask.reg a) o (szBytes z)) = none)
    (hr : resolve s (s.curTask.reg a) permSt (eaM (s.curTask.reg a) o (szBytes z)) (szBytes z) (szBytes z) .store (elemSize z) = .ok (s1, .mem pa)) :
    exec (.st g d a o z) s = .next (posted (s1.store (eaM (s.curTask.reg a) o (szBytes z)) pa (leBytes (szBytes z) (s.curTask.reg d).bits.toNat))
      pa (szBytes z) 4) := by
  rw [show exec (.st g d a o z) s = execSt g d a o z s from rfl, execSt, guarded_on hg]
  simp only [hr, hw, bind, Except.bind, pure, Except.pure]
  rfl

theorem szBytes_pos (z : BitVec 3) : 0 < szBytes z := by
  unfold szBytes
  split <;> decide

theorem leBytes_ne_nil {n : Nat} (h : 0 < n) (v : Nat) : leBytes n v ≠ [] := fun e => by
  have := leBytes_length n v
  rw [e] at this
  exact absurd h (by rw [← this]; decide)

/-- A store of bytes through a placed access, once posted. -/
theorem stored_placed {s s1 : State} (h : PlacedView s s1) (e : W64) (pa n v : Nat) (hn : 0 < n) :
    Stored s (posted (s1.store e pa (leBytes n v)) pa n 4) e pa (leBytes n v) .data :=
  stored_posted (h.view.stored (stored_store s1 e pa _ (leBytes_ne_nil hn v)))

/-! The bits of an element's store -/

/-- What a list of bit writes makes of one byte. -/
def bitted (base : Nat) (ws : List BitWrite) (b : Nat) (v : Byte) : Byte :=
  ws.foldl (fun v w => if b = base + w.1 then (if w.2.2 then v ||| (1#8 <<< w.2.1) else v &&& ~~~(1#8 <<< w.2.1)) else v) v

theorem byte_putBits (s : State) (base : Nat) (ws : List BitWrite) (b : Nat) : (putBits s base ws).byte b = bitted base ws b (s.byte b) := by
  unfold putBits bitted
  induction ws generalizing s with
  | nil => rfl
  | cons w ws ih =>
    rw [List.foldl_cons, List.foldl_cons, ih]
    congr 1
    rw [putBit, State.byte_storeByte]
    by_cases h : b = base + w.1
    · rw [if_pos h, if_pos h, h]
    · rw [if_neg h, if_neg h]

theorem tagAt_putBits (s : State) (base : Nat) (ws : List BitWrite) (b : Nat) :
    (putBits s base ws).tagAt b = if ∃ w ∈ ws, (base + w.1) / 16 = b / 16 then .data else s.tagAt b := by
  unfold putBits
  induction ws generalizing s with
  | nil => simp
  | cons w ws ih =>
    rw [List.foldl_cons, ih, putBit, tagAt_storeByte]
    by_cases h : (base + w.1) / 16 = b / 16
    · simp [h]
    · rw [if_neg (show ¬ b / 16 = (base + w.1) / 16 from fun e => h e.symm)]
      simp only [List.mem_cons, exists_eq_or_imp, h, false_or]

/-- The bits of one element, one in each of n planes. -/
def bitsOver (g e n : Nat) (bit : Nat → Bool) : List BitWrite := (List.range n).map fun p => (g + 32 * p + e / 8, e % 8, bit p)

theorem bitsOver_succ (g e n : Nat) (bit : Nat → Bool) :
    bitsOver g e (n + 1) bit = bitsOver g e n bit ++ [(g + 32 * n + e / 8, e % 8, bit n)] := by
  rw [bitsOver, List.range_succ, List.map_append]; rfl

theorem bitsOver_append (g e n m : Nat) (bit : Nat → Bool) :
    bitsOver g e (n + m) bit = bitsOver g e n bit ++ (List.range m).map fun p => (g + 32 * (n + p) + e / 8, e % 8, bit (n + p)) := by
  rw [bitsOver, List.range_add, List.map_append, List.map_map]; rfl

theorem bitted_concat (base : Nat) (ws : List BitWrite) (w : BitWrite) (b : Nat) (v : Byte) : bitted base (ws ++ [w]) b v =
    if b = base + w.1 then (if w.2.2 then bitted base ws b v ||| (1#8 <<< w.2.1) else bitted base ws b v &&& ~~~(1#8 <<< w.2.1))
    else bitted base ws b v := List.foldl_append

theorem getLsbD_setBit (v : Byte) (k : Nat) (hk : k < 8) (x : Bool) (j : Nat) :
    (if x then v ||| (1#8 <<< k) else v &&& ~~~(1#8 <<< k)).getLsbD j = if j = k then x else v.getLsbD j := by
  cases x
  · simp only [Bool.false_eq_true, if_false, BitVec.getLsbD_and, BitVec.getLsbD_not, BitVec.getLsbD_shiftLeft, BitVec.getLsbD_one]
    by_cases e : j = k
    · simp [e, hk]
    · have : j < k ∨ j - k ≠ 0 := by omega
      by_cases hj : j < 8
      · simp [e, hj]; omega
      · simp [e, hj, show 8 ≤ j by omega]
  · simp only [if_true, BitVec.getLsbD_or, BitVec.getLsbD_shiftLeft, BitVec.getLsbD_one]
    by_cases e : j = k
    · simp [e, hk]
    · by_cases hj : j < 8
      · simp [e, hj]; omega
      · simp [e, hj]

/-- The bits that a store over planes writes, each in a byte of its own. -/
theorem bitted_bitsOver (base g e n : Nat) (bit : Nat → Bool) (b : Nat) (v : Byte) :
    (∀ p < n, b = base + g + 32 * p + e / 8 → (bitted base (bitsOver g e n bit) b v).getLsbD (e % 8) = bit p)
    ∧ ∀ j, (∀ p < n, b = base + g + 32 * p + e / 8 → j ≠ e % 8) → (bitted base (bitsOver g e n bit) b v).getLsbD j = v.getLsbD j := by
  induction n with
  | zero => exact ⟨fun p hp => absurd hp (by omega), fun j _ => rfl⟩
  | succ n ih =>
    obtain ⟨ones, rest⟩ := ih
    rw [bitsOver_succ, bitted_concat]
    dsimp only
    by_cases h : b = base + (g + 32 * n + e / 8)
    · rw [if_pos h]
      refine ⟨fun p hp hb => ?_, fun j hj => ?_⟩
      · rw [getLsbD_setBit _ _ (by omega), if_pos rfl, show p = n by omega]
      · rw [getLsbD_setBit _ _ (by omega), if_neg (hj n (by omega) (by omega))]
        exact rest j fun p hp hb => by omega
    · rw [if_neg h]
      refine ⟨fun p hp hb => ?_, fun j hj => rest j fun p hp => hj p (by omega)⟩
      by_cases e : p = n
      · rw [e] at hb; omega
      · exact ones p (by omega) hb

theorem planeWrites_eq (g e v p n : Nat) :
    planeWrites g e v p n = (List.range n).map fun i => (g + 32 * (p + i) + e / 8, e % 8, v.testBit (n - 1 - i)) := by
  induction n generalizing p with
  | zero => rfl
  | succ n ih =>
    rw [planeWrites, ih, List.range_succ_eq_map, List.map_cons, List.map_map]
    refine congrArg₂ List.cons (by simp) (List.map_congr_left fun i _ => ?_)
    simp only [Function.comp, Nat.succ_eq_add_one]
    rw [show p + 1 + i = p + (i + 1) by omega, show n - 1 - i = n + 1 - 1 - (i + 1) by omega]

/-- The planes of a window's element, and the bit that each takes of a code (R55, R69). -/
def elemPlanes (w : Nat) (f : Fmt) : Nat := if w = 8 || w = 9 then (winOf w).sig else 2 + f.ebits + f.fbits

def elemBit (w : Nat) (f : Fmt) (c p : Nat) : Bool :=
  if w = 8 || w = 9 then c.testBit ((winOf w).sig - 1 - p)
  else if p ≤ f.ebits then c.testBit (f.fbits + f.ebits - p)
  else if p = 1 + f.ebits then decide (c / 2 ^ f.fbits % 2 ^ f.ebits ≠ 0)
  else c.testBit (f.fbits - 1 - (p - 2 - f.ebits))

/-- The bits of an element, plane by plane. -/
theorem codeWrites_eq (w : Nat) (e5 : Bool) (g e c : Nat) :
    codeWrites w e5 g e c = bitsOver g e (elemPlanes w (winFmt w e5)) (elemBit w (winFmt w e5) c) := by
  generalize hf : winFmt w e5 = f
  unfold codeWrites elemPlanes
  by_cases hi : (w = 8 || w = 9) = true
  · rw [if_pos hi, if_pos hi, planeWrites_eq]
    refine List.map_congr_left fun p _ => ?_
    rw [elemBit, if_pos hi, Nat.zero_add]
  · rw [if_neg hi, if_neg hi]
    dsimp only
    rw [hf, show 2 + f.ebits + f.fbits = (1 + f.ebits) + 1 + f.fbits by omega, bitsOver_append, bitsOver_succ, planeWrites_eq, planeWrites_eq,
      List.append_assoc, List.singleton_append]
    refine congrArg₂ _ (List.map_congr_left fun p hp => ?_) (congrArg₂ _ ?_ (List.map_congr_left fun p _ => ?_))
    · have := List.mem_range.mp hp
      rw [elemBit, if_neg hi, if_pos (by omega), Nat.testBit_div_two_pow, Nat.zero_add]
      congr 3
      omega
    · rw [elemBit, if_neg hi, if_neg (by omega), if_pos rfl]
    · rw [elemBit, if_neg hi, if_neg (by omega), if_neg (by omega), show 1 + f.ebits + 1 = 2 + f.ebits by omega]
      congr 3
      omega

/-- The planes are among the bytes of the element. -/
theorem plane_mem_elemBytes {w p e : Nat} {e5 : Bool} (hw : 1 ≤ w ∧ w ≤ 11) (hp : p < elemPlanes w (winFmt w e5)) :
    32 * p + e / 8 ∈ elemBytes w e := by
  have count : ∀ w < 12, 1 ≤ w → ∀ e5, elemPlanes w (winFmt w e5) = (winOf w).sgn + (winOf w).exp + (winOf w).sig := by decide
  rw [count w (by omega) hw.1] at hp
  exact List.mem_append_left _ (List.mem_map_of_mem (List.mem_range.mpr hp))

/-- A store of an element's code through the private alias, as `storeElem` makes it. -/
def codeStored (s : State) (w : Nat) (e5 : Bool) (g e c : Nat) : State :=
  s.through 0 ((elemBytes w e).map (spadPa s.cur + g + ·)) fun x => putBits x (spadPa s.cur) (codeWrites w e5 g e c)

theorem byte_codeStored (s : State) {w : Nat} (hw : 1 ≤ w ∧ w ≤ 11) (e5 : Bool) (g e c b : Nat) : (codeStored s w e5 g e c).byte b =
    if s.under 0 b = true then s.byte b
    else bitted (spadPa s.cur) (bitsOver g e (elemPlanes w (winFmt w e5)) (elemBit w (winFmt w e5) c)) b (s.byte b) := by
  rw [← codeWrites_eq]
  refine byte_through s 0 _ (fun x b => byte_putBits x _ _ b) (fun b v hb => ?_) b
  refine BitVec.eq_of_getLsbD_eq fun j _ => ?_
  rw [codeWrites_eq]
  refine (bitted_bitsOver ..).2 j fun p hp h => absurd (List.mem_map.mpr ⟨_, plane_mem_elemBytes hw hp, ?_⟩) hb
  rw [h]
  omega

theorem tagAt_codeStored (s : State) {w : Nat} (hw : 1 ≤ w ∧ w ≤ 11) (e5 : Bool) (g e c b : Nat) : (codeStored s w e5 g e c).tagAt b =
    if (∃ p < elemPlanes w (winFmt w e5), (spadPa s.cur + g + 32 * p + e / 8) / 16 = b / 16) ∧ s.tagUnder 0 b = false then .data
    else s.tagAt b := by
  have granules (b : Nat) : (∃ x ∈ codeWrites w e5 g e c, (spadPa s.cur + x.1) / 16 = b / 16)
      ↔ ∃ p < elemPlanes w (winFmt w e5), (spadPa s.cur + g + 32 * p + e / 8) / 16 = b / 16 := by
    rw [codeWrites_eq]
    simp only [bitsOver, List.mem_map, List.mem_range, exists_exists_and_eq_and, ← Nat.add_assoc]
  simp only [← granules]
  refine tagAt_through s 0 _ (fun x b => tagAt_putBits x _ _ b) (fun b hG _ => ?_) b
  obtain ⟨p, hp, h⟩ := (granules b).mp hG
  exact ⟨_, List.mem_map_of_mem (plane_mem_elemBytes hw hp), by rw [← h, ← Nat.add_assoc]⟩

theorem stores_putBits (s : State) (base : Nat) (ws : List BitWrite) : Stores s (putBits s base ws) :=
  .foldl (fun x _ => .setTag (.putByte (.refl x))) (.refl s) ws

theorem stores_codeStored (s : State) (w : Nat) (e5 : Bool) (g e c : Nat) : Stores s (codeStored s w e5 g e c) :=
  .through (.refl s) fun x => stores_putBits x _ _

/-- Such a store in the terms of its bits: those of its planes that lie under no store of the other path, and no others. -/
structure ElemWritten (s t : State) (g e n : Nat) (bit : Nat → Bool) : Prop where
  bits : ∀ p < n, s.under 0 (spadPa s.cur + g + 32 * p + e / 8) = false →
    (t.byte (spadPa s.cur + g + 32 * p + e / 8)).getLsbD (e % 8) = bit p
  rest : ∀ i b, s.under 0 i = true ∨ (∀ p < n, i = spadPa s.cur + g + 32 * p + e / 8 → b ≠ e % 8) → (t.byte i).getLsbD b = (s.byte i).getLsbD b
  cleared : ∀ i, s.tagUnder 0 i = false → (∃ p < n, (spadPa s.cur + g + 32 * p + e / 8) / 16 = i / 16) → t.tagAt i = .data
  kept : ∀ i, s.tagUnder 0 i = true ∨ (∀ p < n, (spadPa s.cur + g + 32 * p + e / 8) / 16 ≠ i / 16) → t.tagAt i = s.tagAt i

theorem elemWritten_codeStored (s : State) {w : Nat} (hw : 1 ≤ w ∧ w ≤ 11) (e5 : Bool) (g e c : Nat) :
    ElemWritten s (codeStored s w e5 g e c) g e (elemPlanes w (winFmt w e5)) (elemBit w (winFmt w e5) c) := by
  have set (b : Nat) := bitted_bitsOver (spadPa s.cur) g e (elemPlanes w (winFmt w e5)) (elemBit w (winFmt w e5) c) b (s.byte b)
  refine ⟨fun p hp free => ?_, fun i b h => ?_, fun i free h => ?_, fun i h => ?_⟩
  · rw [byte_codeStored s hw, free, if_neg (by simp)]
    exact (set _).1 p hp rfl
  · rw [byte_codeStored s hw]
    split
    · rfl
    · next free => exact (set i).2 b (h.resolve_left free)
  · rw [tagAt_codeStored s hw, if_pos ⟨h, free⟩]
  · rw [tagAt_codeStored s hw, if_neg]
    rintro ⟨⟨p, hp, e⟩, free⟩
    obtain h | h := h
    · rw [h] at free; cases free
    · exact h p hp e

/-- Memory alone says whether the bits of an element are written. -/
theorem ElemWritten.of_memory {s u t v : State} {g e n : Nat} {bit : Nat → Bool} (h : ElemWritten u t g e n bit) (view : SameView s u)
    (byte : ∀ b, v.byte b = t.byte b) (tag : ∀ b, v.tagAt b = t.tagAt b) : ElemWritten s v g e n bit := by
  obtain ⟨bits, rest, cleared, kept⟩ := h
  simp only [view.cur, view.under, view.tagUnder, view.byte, view.tagAt, ← byte, ← tag] at bits rest cleared kept
  exact ⟨bits, rest, cleared, kept⟩

/-! Element stores (R67, R73) -/

theorem resolve_check3 {s : State} {c : GVal} {perm : Byte} {a : W64} {n al : Nat} {u : Use} {e : Bool} {r : State × Target}
    (h : resolve s c perm a n al u e = .ok r) : check3 a n al e = .ok () := by
  unfold resolve at h
  simp only [bind, Except.bind] at h
  split at h
  · cases h
  · split at h
    · cases h
    · split at h
      · cases h
      · assumption

/-- The size of an access in a plane window (R150). -/
theorem planeWin_size {s : State} {c : GVal} {perm : Byte} {a : W64} {n al k : Nat} {u : Use} {e : Bool} {r : State × Target}
    (h : resolve s c perm a n al u e = .ok r) (hw : planeWin a = some k) : n = if k = 11 then 8 else 4 := by
  have h := resolve_check3 h
  unfold check3 at h
  rw [hw] at h
  dsimp only at h
  by_contra hn
  rw [failIf_true (by simp [hn])] at h
  cases h

theorem planeWin_range {a : W64} {k : Nat} (hw : planeWin a = some k) : 1 ≤ k ∧ k ≤ 11 := by
  unfold planeWin at hw
  split at hw
  · split at hw
    · next h => cases hw; simpa using h
    · cases hw
  · cases hw

theorem storeElem_eq (s : State) (sat : Bool) (md : Rounding) (w : Nat) (a : W64) (v : Nat) {g e : Nat} (h : elemAt w a = (g, e)) :
    let rd : Nat → Byte := fun o => s.foundByte 0 (spadPa s.cur + o)
    let c := storeCode rd sat md w g e v
    storeElem s sat md w a v = (codeStored s w (mx8Type rd g) g e c.1, c.2) := by
  unfold storeElem
  rw [h]
  rfl

/-- The state after an element store: counted, owed, its flags kept, its instruction retired. -/
def elemPosted (u : State) (pa n : Nat) (fl : Flags) : State := ((u.chargeOut pa n).owe 4).onCur fun x => (x.addFlags fl).advance 4

theorem sameView_elemPosted (u : State) (pa n : Nat) (fl : Flags) : SameView u (elemPosted u pa n fl) := .onCur (.owe (.chargeOut (.refl u)))

theorem byte_elemPosted (u : State) (pa n : Nat) (fl : Flags) (b : Nat) : (elemPosted u pa n fl).byte b = u.byte b :=
  (sameView_elemPosted ..).byte b
theorem tagAt_elemPosted (u : State) (pa n : Nat) (fl : Flags) (b : Nat) : (elemPosted u pa n fl).tagAt b = u.tagAt b :=
  (sameView_elemPosted ..).tagAt b

theorem curTask_owe (u : State) : (u.owe 4).curTask = owing u.curTask := by
  unfold State.curTask
  rw [State.owe, State.onCur, State.curTid_onTask, State.task_onTask_same]
  rfl

/-- An element store of the executing task that completes. -/
theorem completes_elemPosted {s s1 u : State} {i : Instr} {pa n : Nat} {fl : Flags} {m : State → Prop} (h : exec i s = .next (elemPosted u pa n fl))
    (placed : PlacedView s s1) (st : Stores s1 u) (hm : m (elemPosted u pa n fl)) :
    CompletesFrom s i 4 s (fun x => owing (x.addFlags fl)) m := by
  have charged : Stores s1 (u.chargeOut pa n) := st.chargeOut
  have tid : ((u.chargeOut pa n).owe 4).curTid = s.curTid := (State.curTid_onTask ..).trans (charged.tid.trans placed.view.tid)
  refine completesFrom_onCur h (accessed_onCur (accessed_trans placed.1.1 charged.acc)) tid hm placed.counted ?_
  rw [curTask_owe, charged.curTask]
  rfl

/-- ST of an element. -/
theorem exec_st_elem {s s1 : State} {g : Guard} {d a : BitVec 5} {o : BitVec 8} {z : BitVec 3} {pa k : Nat} (hg : s.curTask.guardOk g = true)
    (hw : planeWin (eaM (s.curTask.reg a) o (szBytes z)) = some k)
    (hr : resolve s (s.curTask.reg a) permSt (eaM (s.curTask.reg a) o (szBytes z)) (szBytes z) (szBytes z) .store (elemSize z) = .ok (s1, .mem pa)) :
    let r := storeElem s1 s1.curTask.sat .rne k (eaM (s.curTask.reg a) o (szBytes z)) ((s.curTask.reg d).bits.toNat % 2 ^ (8 * szBytes z))
    exec (.st g d a o z) s = .next (elemPosted r.1 pa (szBytes z) r.2) := by
  rw [show exec (.st g d a o z) s = execSt g d a o z s from rfl, execSt, guarded_on hg]
  simp only [hr, hw, bind, Except.bind, pure, Except.pure]
  rfl

/-- What an element store makes of a register value of the size of its window (R67, R73). -/
theorem storeCode_eq (rd : Nat → Byte) (sat : Bool) (w g e v n : Nat) (hn : n = if w = 11 then 8 else 4) (hv : v < 2 ^ (8 * n)) :
    storeCode rd sat .rne w g e v =
      if w = 8 || w = 9 then roundIntFmt (winOf w).sig .rne (decide ((if 2 * v < 2 ^ 32 then (v : Int) else (v : Int) - 2 ^ 32) < 0))
        (if 2 * v < 2 ^ 32 then (v : Int) else (v : Int) - 2 ^ 32).natAbs 1 0
      else if w = 10 ∨ w = 11 then (v, 0)
      else convScaled (winFmt w (mx8Type rd g)) sat .rne (storeScale rd w g e).1 (storeScale rd w g e).2 (fdecode fp32 v) := by
  have small (h : w ≠ 11) : v % 2 ^ 32 = v := by
    rw [hn, if_neg h] at hv
    exact Nat.mod_eq_of_lt hv
  unfold storeCode
  by_cases hi : (w = 8 || w = 9) = true
  · rw [if_pos hi, if_pos hi]
    have sx : sxInt v 32 = if 2 * v < 2 ^ 32 then (v : Int) else (v : Int) - 2 ^ 32 := by
      unfold sxInt
      dsimp only
      rw [small (by rintro rfl; simp at hi)]
      rfl
    rw [sx]
  · rw [if_neg hi, if_neg hi]
    by_cases hf : (w = 10 || w = 11) = true
    · rw [if_pos hf, if_pos (show w = 10 ∨ w = 11 by simpa using hf)]
      rcases (by simpa using hf : w = 10 ∨ w = 11) with rfl | rfl
      · rw [if_pos rfl, small (by decide)]
      · rw [if_neg (by decide), Nat.mod_eq_of_lt (by rwa [hn, if_pos rfl] at hv)]
    · rw [if_neg hf, if_neg (by simpa using hf), small (by rintro rfl; simp at hf)]

/-- Settles O8: the bytes and the tags by `stored_store`, the bits of an element by `elemWritten_codeStored`. -/
theorem storesWriteTheLowBytes : Obligations.StoresWriteTheLowBytes := by
  constructor
  · intro s s1 g d a o z pa hg c n e bs stored
    constructor
    · intro hw hr
      have placed := resolve_view hr
      exact completes_posted (exec_st hg hw hr) placed (.store (.refl s1)) (stored_placed placed _ _ _ _ (szBytes_pos z))
    · intro hr acked gone
      have placed := resolve_view hr
      have same : s1.curTask.acked false = s.curTask.acked false := by rw [show s1.curTask = _ from placed.counted]; rfl
      have value : (s1.curTask.reg d).bits.toNat = (s.curTask.reg d).bits.toNat := by rw [Counted.reg placed.counted]
      have h := exec_stl (d := d) hg hr (same.trans acked) (placed.sendsGone.trans gone)
      rw [value] at h
      exact completes_posted h placed (.store (.refl s1)) (stored_placed placed _ _ _ _ (szBytes_pos z))
  · intro s s1 g d a o z pa k hg c n e off gr el rd f sig ints v i32 div res planes bit at_
    refine ⟨loopless s 0, fun hw hr => ?_⟩
    have placed := resolve_view hr
    have same := placed.view
    have hk := planeWin_range hw
    have rdSame : (fun o => s1.foundByte 0 (spadPa s1.cur + o)) = rd := by funext o; rw [same.foundByte, same.cur]
    have sat : s1.curTask.sat = s.curTask.sat := by rw [show s1.curTask = _ from placed.counted]
    have code : storeCode rd s.curTask.sat .rne k gr el v = res :=
      storeCode_eq rd _ k gr el v n (planeWin_size hr hw) (Nat.mod_lt _ (Nat.two_pow_pos _))
    have eq : storeElem s1 s1.curTask.sat .rne k e v = (codeStored s1 k (mx8Type rd gr) gr el res.1, res.2) := by
      rw [storeElem_eq (g := gr) (e := el) s1 _ _ k e v rfl, rdSame, sat, code]
    have h := exec_st_elem (d := d) hg hw hr
    rw [show storeElem s1 s1.curTask.sat .rne k (eaM (s.curTask.reg a) o (szBytes z)) _ = _ from eq] at h
    have written := (elemWritten_codeStored s1 hk (mx8Type rd gr) gr el res.1).of_memory same
      (byte_elemPosted _ pa n res.2) (tagAt_elemPosted _ pa n res.2)
    have hplanes : elemPlanes k (winFmt k (mx8Type rd gr)) = planes := rfl
    have hbit : elemBit k (winFmt k (mx8Type rd gr)) res.1 = bit := rfl
    rw [hplanes, hbit] at written
    clear_value bit planes
    exact completes_elemPosted h placed (stores_codeStored ..)
      ⟨written.bits, written.rest, written.cleared, written.kept⟩

end Sys2Proof.Machine
end

section
/-! PROOFS. Atomics (R153, R161 to R164) and multi-destination stores (R165 to R167). -/

namespace Sys2Proof.Machine

open Sys2Proof.Safety Sys2Proof.Laws

/-! Accesses of one executing task -/

theorem accessed_symm {s t : State} (h : Accessed s t) : Accessed t s := by
  have tid := accessed_curTid h
  obtain ⟨rest, task, core, cluster, die⟩ := h
  let back (v : State) : State :=
    { v with mem := s.mem, tags := s.tags, ue := s.ue, tasks := s.tasks, cores := s.cores, clusters := s.clusters, dies := s.dies }
  have rest' := congrArg back rest.symm
  refine ⟨rest', fun u hu => (task u (tid ▸ hu)).symm, fun k => ?_, fun c => ?_, fun d => ?_⟩
  · let back (c : Core) : Core := { c with
      itlb := (s.core k).itlb, dtlb := (s.core k).dtlb, loop := (s.core k).loop, gov := { c.gov with energy := (s.core k).gov.energy } }
    have core' := congrArg back (core k).symm
    exact core'
  · exact congrArg (fun x : Cluster => { x with l2 := (s.cluster c).l2, roots := (s.cluster c).roots, roots1 := (s.cluster c).roots1 }) (cluster c).symm
  · exact congrArg (fun x : Die => { x with dtc := (s.die d).dtc, roots := (s.die d).roots }) (die d).symm

theorem SameView.posting {s u : State} (h : SameView s u) {a : W64} : SameView s (posting u a) := h.onCore fun _ => ⟨rfl, rfl, rfl⟩

/-- One more posted error on both sides. -/
theorem accessed_posting {s t : State} (h : Accessed s t) (a : W64) : Accessed (posting s a) (posting t a) := by
  have tid := accessed_curTid h
  have cur : t.cur = s.cur := by rw [h.1]
  obtain ⟨rest, task, core, cluster, die⟩ := h
  have own : (posting s a).curTid = s.curTid := (SameView.refl s).posting.tid
  refine ⟨?_, own ▸ task, fun k => ?_, cluster, die⟩
  · exact congrArg (fun v : State => { v with cores := (posting t a).cores }) rest
  · unfold posting
    rw [State.core_onCore, State.core_onCore, cur, tid]
    split
    · rw [core s.cur]
    · exact core k

/-- An instruction that only retires after what it did. -/
theorem completes_retire {v s u : State} {i : Instr} {f : Task → Task} {m : State → Prop} {x : Task} (h : exec i s = .next (retire u 4))
    (acc : Accessed v u) (tid : u.curTid = s.curTid) (hm : m (retire u 4)) (hx : Counted s.curTask x) (hu : u.curTask = f x) :
    CompletesFrom v i 4 s f m := by
  have retired (y : State) (k : Accessed v y) : Accessed v (retire y 4) := accessed_onCur k
  refine ⟨_, x, h, retired u acc, hm, hx, ?_⟩
  rw [retire, retireOf, tid, State.task_onTask_same, ← tid, show u.task u.curTid = f x from hu]
  exact Task.advance_retired _ _

/-! A write that is performed and owed -/

/-- Counted and owed, with the flags of its operation. -/
def atomized (u : State) (pa n : Nat) (fl : Flags) : State := ((mergeFlags u u.curTid fl).chargeOut pa n).owe 4

theorem SameView.atomized {s u : State} (h : SameView s u) {pa n : Nat} {fl : Flags} : SameView s (atomized u pa n fl) :=
  .owe (.chargeOut (.onTask h))

theorem accessed_owe {s u : State} (h : Accessed s u) (n : Nat) : Accessed s (u.owe n) := accessed_onCur h

theorem accessed_charge {s u : State} (h : Accessed s u) (pa n : Nat) : Accessed s (u.chargeOut pa n) :=
  accessed_trans h (Stores.chargeOut (.refl u)).acc

theorem accessed_mergeFlags {s u : State} (h : Accessed s u) (fl : Flags) : Accessed s (mergeFlags u u.curTid fl) := accessed_onCur h

theorem accessed_atomized {s u : State} (h : Accessed s u) (pa n : Nat) (fl : Flags) : Accessed s (atomized u pa n fl) :=
  accessed_owe (accessed_charge (accessed_mergeFlags h fl) pa n) 4

theorem curTask_atomized (u : State) (pa n : Nat) (fl : Flags) : (atomized u pa n fl).curTask = owing (u.curTask.addFlags fl) := by
  rw [atomized, curTask_owe, (Stores.chargeOut (.refl _)).curTask]
  unfold State.curTask
  rw [mergeFlags, State.curTid_onTask, State.task_onTask_same]

theorem atomicAt_some {s : State} {a : W64} {pa n v : Nat} {f : Nat → Option Nat × Flags} {fl : Flags}
    (h : f (s.foundNat a pa n) = (some v, fl)) : atomicAt s a pa n f = atomized (s.store a pa (leBytes n v)) pa n fl := by
  unfold atomicAt
  rw [h]
  rfl

theorem atomicAt_none {s : State} {a : W64} {pa n : Nat} {f : Nat → Option Nat × Flags} {fl : Flags}
    (h : f (s.foundNat a pa n) = (none, fl)) : atomicAt s a pa n f = atomized s pa n fl := by
  unfold atomicAt
  rw [h]
  rfl

/-! Numbers of a width -/

theorem leNat_lt (bs : List Byte) : leNat bs < 2 ^ (8 * bs.length) := by
  induction bs with
  | nil => exact Nat.one_pos
  | cons b bs ih =>
    rw [leNat, List.length_cons, show 8 * (bs.length + 1) = 8 + 8 * bs.length by omega, Nat.pow_add]
    have := b.isLt
    omega

theorem foundNat_lt (s : State) (a : W64) (pa n : Nat) : s.foundNat a pa n < 2 ^ (8 * n) := by
  have := leNat_lt ((List.range n).map fun k => s.foundByte a (pa + k))
  rwa [List.length_map, List.length_range] at this

theorem leBytes_mod (n v : Nat) : leBytes n (v % 2 ^ (8 * n)) = leBytes n v := by
  induction n generalizing v with
  | zero => rfl
  | succ n ih =>
    rw [leBytes, leBytes, ← ih (v / 256), show 8 * (n + 1) = 8 + 8 * n by omega, Nat.pow_add]
    refine congrArg₂ _ (BitVec.eq_of_toNat_eq ?_) (congrArg _ ?_)
    · rw [BitVec.toNat_ofNat, BitVec.toNat_ofNat, Nat.mod_mul_right_mod]
    · exact Nat.mod_mul_right_div_self ..

/-- A number of a width as a signed one. -/
theorem sxInt_of_lt {v w : Nat} (h : v < 2 ^ w) : sxInt v w = if 2 * v < 2 ^ w then (v : Int) else (v : Int) - 2 ^ w := by
  unfold sxInt
  dsimp only
  rw [Nat.mod_eq_of_lt h]
  split <;> simp

/-! AMO and CAS -/

section
variable {s s1 : State} {a : BitVec 5} {pa n : Nat}
  (hr : resolve s (s.curTask.reg a) permAtom (cursor (s.curTask.reg a).bits) n n .atomic false = .ok (s1, .mem pa))
include hr

theorem atomicInstr_clean (hc : Clean s1 pa n) (d : BitVec 5) (f : Nat → Option Nat × Flags) : atomicInstr s d a n f =
    .ok ((atomicAt s1 (cursor (s.curTask.reg a).bits) pa n f).onCur fun x =>
      (x.setReg d ⟨BitVec.ofNat 128 (s1.foundNat (cursor (s.curTask.reg a).bits) pa n), .data⟩).advance 4) := by
  unfold atomicInstr
  have good := (firstBad_isSome s1 pa n).mpr hc
  simp only [hr, memTarget, bind, Except.bind, good, Bool.false_and, Bool.false_eq_true, if_false, loadable_ok hc, pure, Except.pure]

theorem atomicInstr_posted (hc : ¬ Clean s1 pa n) (f : Nat → Option Nat × Flags) : atomicInstr s 0 a n f =
    .ok (retire (posting s1 (cursor (s.curTask.reg a).bits)) 4) := by
  unfold atomicInstr
  have bad : (s1.firstBad pa n).isSome = true := eq_true_of_ne_false fun e => hc ((firstBad_isSome s1 pa n).mp e)
  simp only [hr, memTarget, bind, Except.bind, bad, Bool.true_and, decide_true, if_true, pure, Except.pure]
  rfl

theorem atomicInstr_trap (hc : ¬ Clean s1 pa n) {d : BitVec 5} (hd : d ≠ 0) (f : Nat → Option Nat × Flags) : atomicInstr s d a n f =
    .error (.after (closeFrames s1 pa n) (.trap .memUe (cursor (s.curTask.reg a).bits))) := by
  unfold atomicInstr
  simp only [hr, memTarget, bind, Except.bind, hd, decide_false, Bool.and_false, Bool.false_eq_true, if_false, loadable_bad hc]

end

/-- An atomic that completes with a number in its register. -/
theorem completes_atomized {s s1 u : State} {i : Instr} {pa n m : Nat} {d : BitVec 5} {fl : Flags} {M : State → Prop}
    (h : exec i s = .next ((atomized u pa n fl).onCur fun x => (x.setReg d ⟨BitVec.ofNat 128 m, .data⟩).advance 4))
    (placed : PlacedView s s1) (st : Stores s1 u)
    (hm : M ((atomized u pa n fl).onCur fun x => (x.setReg d ⟨BitVec.ofNat 128 m, .data⟩).advance 4)) :
    CompletesFrom s i 4 s (fun x => (owing (x.addFlags fl)).setReg d ⟨BitVec.ofNat 128 m, .data⟩) M := by
  have acc := accessed_atomized (accessed_trans placed.1.1 st.acc) pa n fl
  refine completesFrom_onCur h acc (accessed_curTid acc) hm placed.counted ?_
  rw [curTask_atomized, st.curTask]

theorem byte_atomized (u : State) (pa n : Nat) (fl : Flags) (f : Task → Task) (b : Nat) : ((atomized u pa n fl).onCur f).byte b = u.byte b :=
  (SameView.refl u).atomized.onCur.byte b
theorem tagAt_atomized (u : State) (pa n : Nat) (fl : Flags) (f : Task → Task) (b : Nat) : ((atomized u pa n fl).onCur f).tagAt b = u.tagAt b :=
  (SameView.refl u).atomized.onCur.tagAt b

/-- Only memory says whether bytes are stored. -/
theorem stored_of_memory {s u t : State} {a : W64} {pa : Nat} {bs : List Byte} {g : Tag} (w : Stored s u a pa bs g)
    (byte : ∀ b, t.byte b = u.byte b) (tag : ∀ b, t.tagAt b = u.tagAt b) : Stored s t a pa bs g := by
  unfold Stored Wrote Tagged TaggedVia WroteVia at *
  simpa only [byte, tag] using w

section
variable {s s1 : State} {a : BitVec 5} {pa n : Nat} {i : Instr} {d : BitVec 5} {f : Nat → Option Nat × Flags} {fl : Flags}
  (h : exec i s = finish s (atomicInstr s d a n f))
  (hr : resolve s (s.curTask.reg a) permAtom (cursor (s.curTask.reg a).bits) n n .atomic false = .ok (s1, .mem pa))
include h hr

/-- An atomic that writes. -/
theorem completes_atomic_some (hc : Clean s pa n) (hn : 0 < n) {v : Nat}
    (hf : f (s.foundNat (cursor (s.curTask.reg a).bits) pa n) = (some v, fl)) :
    CompletesFrom s i 4 s (fun x => (owing (x.addFlags fl)).setReg d ⟨BitVec.ofNat 128 (s.foundNat (cursor (s.curTask.reg a).bits) pa n), .data⟩)
      (fun t => Stored s t (cursor (s.curTask.reg a).bits) pa (leBytes n v) .data) := by
  have placed := resolve_view hr
  have view := placed.view
  rw [← view.foundNat] at hf ⊢
  refine completes_atomized (u := s1.store (cursor (s.curTask.reg a).bits) pa (leBytes n v)) (pa := pa) (n := n) ?_ placed (.store (.refl s1)) ?_
  · rw [h, atomicInstr_clean hr (view.clean.mpr hc) d f, atomicAt_some hf]
    rfl
  · exact stored_of_memory (view.stored (stored_store s1 _ pa _ (leBytes_ne_nil hn v))) (byte_atomized _ pa n fl _) (tagAt_atomized _ pa n fl _)

/-- An atomic that leaves memory. -/
theorem completes_atomic_none (hc : Clean s pa n) (hf : f (s.foundNat (cursor (s.curTask.reg a).bits) pa n) = (none, fl)) :
    CompletesFrom s i 4 s (fun x => (owing (x.addFlags fl)).setReg d ⟨BitVec.ofNat 128 (s.foundNat (cursor (s.curTask.reg a).bits) pa n), .data⟩)
      (MemorySame s) := by
  have placed := resolve_view hr
  have view := placed.view
  rw [← view.foundNat] at hf ⊢
  refine completes_atomized (u := s1) (pa := pa) (n := n) ?_ placed (.refl s1) (SameView.memorySame (.onCur (.atomized view)))
  rw [h, atomicInstr_clean hr (view.clean.mpr hc) d f, atomicAt_none hf]
  rfl

/-- An atomic over an uncorrectable codeword: reported later without a register, else a trap. -/
theorem faulty_atomic (hc : ¬ Clean s pa n) :
    (d = 0 → CompletesFrom (posting s (cursor (s.curTask.reg a).bits)) i 4 s id (MemorySame s))
    ∧ (d ≠ 0 → Answers i s (raise (closeFrames s1 pa n) s.curTid .memUe (cursor (s.curTask.reg a).bits) false)) := by
  have placed := resolve_view hr
  have bad : ¬ Clean s1 pa n := fun k => hc (placed.view.clean.mp k)
  refine ⟨fun hd => ?_, fun hd => ?_⟩
  · subst hd
    have view := placed.view.posting (a := cursor (s.curTask.reg a).bits)
    refine completes_retire (u := posting s1 (cursor (s.curTask.reg a).bits)) (x := s1.curTask) ?_
      (accessed_posting placed.1.1 _) view.tid (SameView.memorySame view.retire) placed.counted ?_
    · rw [h, atomicInstr_posted hr bad f]; rfl
    · have same (e : W64) : (posting s1 e).curTask = s1.curTask := by
        unfold State.curTask
        rw [(SameView.refl s1).posting.tid]
        rfl
      exact same _
  · rw [Answers, h, atomicInstr_trap hr bad hd f]; rfl

end

/-! Several destinations (R165 to R167) -/

theorem destinations_eq (a desc : W64) : destinations a desc = (List.range ((desc.extractLsb' 0 6).toNat + 1)).map fun (k : Nat) =>
    a + BitVec.ofInt 64 (k * (desc.extractLsb' 16 48).toInt) := by
  refine List.map_congr_left fun k _ => ?_
  rw [BitVec.ofInt_mul, BitVec.ofInt_natCast]
  rfl

/-- Writes that are performed and owed in turn, beside the stores alone. -/
theorem owed_foldl {n : Nat} {bs : List Byte} (l : List (W64 × Nat)) {w u : State} (view : SameView w u) :
    let z := l.foldl (fun s (p : W64 × Nat) => ((s.store p.1 p.2 bs).chargeOut p.2 n).owe 4) u
    SameView (l.foldl (fun s (p : W64 × Nat) => s.store p.1 p.2 bs) w) z ∧ Accessed u z
      ∧ z.curTask = { u.curTask with unacked := u.curTask.unacked ++ l.map fun _ => ⟨4⟩ } := by
  induction l generalizing w u with
  | nil => exact ⟨view, accessed_refl u, by simp⟩
  | cons p l ih =>
    have st : Stores u ((u.store p.1 p.2 bs).chargeOut p.2 n) := .chargeOut (.store (.refl u))
    obtain ⟨view', acc, task⟩ := ih (u := ((u.store p.1 p.2 bs).chargeOut p.2 n).owe 4) (.owe (.chargeOut (.store view)))
    refine ⟨view', accessed_trans (accessed_owe st.acc 4) acc, task.trans ?_⟩
    rw [curTask_owe, st.curTask]
    simp [owing]

/-- One destination of a STRED: its old state and the task it will leave, with the operation's number and flags. -/
def reduced (n : Nat) (new : Nat → Nat × Flags) (r : State × Task) (p : W64 × Nat) : State × Task :=
  if (r.1.firstBad p.2 n).isSome then (posting r.1 p.1, r.2)
  else
    let m := r.1.foundNat p.1 p.2 n
    (r.1.store p.1 p.2 (leBytes n (new m).1), owing (r.2.addFlags (new m).2))

/-- The state of a STRED in progress beside its memory and its task. -/
structure Reducing (x0 : Task) (r : State × Task) (u : State) : Prop where
  view : SameView r.1 u
  acc : Accessed r.1 u
  task : u.curTask = { x0 with unacked := r.2.unacked, fflags := r.2.fflags }

theorem SameView.symm {s u : State} (h : SameView s u) : SameView u s := ⟨h.cur.symm, h.tid.symm, h.loop.symm, h.mem.symm, h.tags.symm, h.ue.symm⟩

theorem curTask_posting (s : State) (a : W64) : (posting s a).curTask = s.curTask := by
  unfold State.curTask
  rw [(SameView.refl s).posting.tid]
  rfl

theorem Reducing.step {x0 : Task} {r : State × Task} {u : State} (h : Reducing x0 r u) {n : Nat} {new : Nat → Nat × Flags}
    {f : Nat → Option Nat × Flags} (hf : ∀ m < 2 ^ (8 * n), f m = (some (new m).1, (new m).2)) (p : W64 × Nat) :
    Reducing x0 (reduced n new r p) (if (u.firstBad p.2 n).isSome then posting u p.1 else atomicAt u p.1 p.2 n f) := by
  obtain ⟨view, acc, task⟩ := h
  unfold reduced
  rw [view.firstBad]
  split
  · exact ⟨(SameView.refl r.1).posting.symm.trans (view.trans (.posting (.refl u))), accessed_posting acc p.1, by rw [curTask_posting, task]⟩
  · dsimp only
    rw [atomicAt_some (hf _ (foundNat_lt ..)), view.foundNat]
    generalize (new (r.1.foundNat p.1 p.2 n)).1 = v
    generalize (new (r.1.foundNat p.1 p.2 n)).2 = fl
    have base : Stores r.1 (r.1.store p.1 p.2 (leBytes n v)) := .store (.refl r.1)
    have next : Stores u (u.store p.1 p.2 (leBytes n v)) := .store (.refl u)
    refine ⟨.atomized (.store view), accessed_atomized (accessed_trans (accessed_symm base.acc) (accessed_trans acc next.acc)) _ _ _, ?_⟩
    rw [curTask_atomized, next.curTask, task]
    rfl

theorem Reducing.foldl {x0 : Task} {r : State × Task} {u : State} (h : Reducing x0 r u) {n : Nat} {new : Nat → Nat × Flags}
    {f : Nat → Option Nat × Flags} (hf : ∀ m < 2 ^ (8 * n), f m = (some (new m).1, (new m).2)) (l : List (W64 × Nat)) :
    Reducing x0 (l.foldl (reduced n new) r)
      (l.foldl (fun s p => if (s.firstBad p.2 n).isSome then postedUe s p.1 else atomicAt s p.1 p.2 n f) u) := by
  induction l generalizing r u with
  | nil => exact h
  | cons p l ih => exact ih (h.step hf p)

theorem reduced_foldl_tid (n : Nat) (new : Nat → Nat × Flags) (l : List (W64 × Nat)) (r : State × Task) :
    (l.foldl (reduced n new) r).1.curTid = r.1.curTid := by
  induction l generalizing r with
  | nil => rfl
  | cons p l ih =>
    rw [List.foldl_cons, ih]
    unfold reduced
    split
    · exact (SameView.refl r.1).posting.tid
    · exact (Stores.store (.refl r.1)).tid

/-! The checks of several destinations (R166) -/

/-- A stop that leaves memory: the state it takes is one that placed accesses left. -/
def Unwritten (s : State) (st : Stop) : Prop := PlacedView s (metAt s st)

theorem translateEach_view {u : Use} {s t : State} {as : List W64} (h : translateEach s u as = .ok t) : PlacedView s t := by
  induction as generalizing s with
  | nil => cases h; exact .refl _
  | cons a as ih =>
    unfold translateEach at h
    split at h
    · next he => exact (translate5_view he).trans (ih h)
    · cases h

theorem memTarget_ok {r : State × Target} {a : W64} {c : Cause} {s : State} {pa : Nat} (h : memTarget r a c = .ok (s, pa)) : r = (s, .mem pa) := by
  obtain ⟨u, t⟩ := r
  cases t with
  | mem p => cases h; rfl
  | ctl die off sup => cases h

theorem targetEach_view {n : Nat} {u : Use} {ctl : Cause} {s t : State} {as : List W64} {pas : List Nat}
    (h : targetEach s n u ctl as = .ok (t, pas)) : PlacedView s t ∧ pas.length = as.length := by
  induction as generalizing s t pas with
  | nil => cases h; exact ⟨.refl s, rfl⟩
  | cons a as ih =>
    unfold targetEach at h
    simp only [bind, Except.bind] at h
    split at h
    · cases h
    · next r hr =>
      split at h
      · cases h
      · next q hq =>
        obtain ⟨s1, pa⟩ := q
        split at h
        · cases h
        · next q hq' =>
          obtain ⟨s2, rest⟩ := q
          cases h
          obtain ⟨view, len⟩ := ih hq'
          have hr : place s a n u = .ok (s1, .mem pa) := hr.trans (congrArg _ (memTarget_ok hq))
          exact ⟨(place_view hr).trans view, congrArg (· + 1) len⟩

theorem checkMulti_view {s t : State} {c : GVal} {perm : Byte} {n : Nat} {u : Use} {ds : List W64} {pas : List Nat}
    (h : checkMulti s c perm n u ds = .ok (t, pas)) : PlacedView s t ∧ pas.length = ds.length := by
  unfold checkMulti at h
  simp only [bind, Except.bind] at h
  split at h
  · cases h
  · split at h
    · cases h
    · split at h
      · cases h
      · next hs =>
        obtain ⟨view, len⟩ := targetEach_view h
        exact ⟨(translateEach_view hs).trans view, len⟩

theorem Unwritten.trans {s t : State} {st : Stop} (h : PlacedView s t) (k : Unwritten t st) : Unwritten s st := by
  cases st with
  | after u st => exact h.trans k
  | _ => exact .refl s

/-- An effect whose stops take the state they meet. -/
def StopsHere {α : Type} (e : Eff α) : Prop := ∀ st, e = .error st → ∀ s, Unwritten s st

theorem stopsHere_ok {α : Type} (x : α) : StopsHere (.ok x : Eff α) := fun _ h => nomatch h

theorem stopsHere_failIf (b : Bool) {st : Stop} (h : ∀ s, Unwritten s st) : StopsHere (failIf b st) := by
  intro st' e
  cases b <;> cases e
  exact h

theorem stopsHere_bind {α β : Type} {e : Eff α} {f : α → Eff β} (he : StopsHere e) (hf : ∀ x, StopsHere (f x)) : StopsHere (e >>= f) := by
  cases e with
  | ok x => exact hf x
  | error st =>
    intro st' h
    cases h
    exact he st rfl

theorem stopsHere_check1 (c : GVal) (perm : Byte) (a : W64) (n : Nat) (e : Bool) : StopsHere (check1 c perm a n e) := by
  unfold check1
  dsimp only
  split
  · intro st h; cases h; exact .refl
  · exact stopsHere_ok ()

theorem stopsHere_check2 (a : W64) (n : Nat) : StopsHere (check2 a n) := by
  unfold check2
  split
  · exact stopsHere_failIf _ .refl
  · exact stopsHere_ok ()

theorem stopsHere_check3 (a : W64) (n al : Nat) (e : Bool) : StopsHere (check3 a n al e) := by
  unfold check3
  split <;> exact stopsHere_failIf _ .refl

theorem stopsHere_lockStop (a : W64) (r : LockRes) : StopsHere (lockStop a r) := by
  cases r
  · exact stopsHere_ok ()
  · intro st h; cases h; exact .refl
  · intro st h; cases h; exact .refl

theorem stopsHere_checkWatch (s : State) (a : W64) (n : Nat) (u : Use) : StopsHere (checkWatch s a n u) := by
  unfold checkWatch
  split
  · intro st h; cases h; exact .refl
  · exact stopsHere_ok ()

theorem stopsHere_checkTarget (s : State) (a : W64) (n pa : Nat) (u : Use) (sup : Bool) : StopsHere (checkTarget s a n pa u sup) := by
  unfold checkTarget
  split
  · intro st h; cases h; exact .refl
  · exact stopsHere_ok _
  · dsimp only
    split
    · exact stopsHere_bind (stopsHere_lockStop _ _) fun _ => stopsHere_ok _
    · exact stopsHere_ok _

theorem stopsHere_checkEach (s : State) (c : GVal) (perm : Byte) (n al : Nat) (u : Use) (e : Bool) (as : List W64) :
    StopsHere (checkEach s c perm n al u e as) := by
  induction as with
  | nil => exact stopsHere_ok ()
  | cons a as ih =>
    exact stopsHere_bind (stopsHere_check1 _ _ _ _ _) fun _ => stopsHere_bind (stopsHere_check2 _ _) fun _ =>
      stopsHere_bind (stopsHere_check3 _ _ _ _) fun _ => stopsHere_bind (stopsHere_lockStop _ _) fun _ => ih

theorem stopsHere_watchEach (s : State) (n : Nat) (u : Use) (as : List W64) : StopsHere (watchEach s n u as) := by
  induction as with
  | nil => exact stopsHere_ok ()
  | cons a as ih => exact stopsHere_bind (stopsHere_checkWatch _ _ _ _) fun _ => ih

theorem translate5_unwritten {s : State} {a : W64} {u : Use} {st : Stop} (h : translate5 s a u = .error st) : Unwritten s st := by
  unfold translate5 at h
  split at h
  · cases h; exact .refl s
  · dsimp only at h
    have kept := translated s a u (x := s.curTask)
    split at h
    · cases h; exact kept
    · cases h; exact kept
    · cases h; exact kept
    · split at h
      · cases h; exact kept
      · cases h

theorem translateEach_unwritten {u : Use} {s : State} {as : List W64} {st : Stop} (h : translateEach s u as = .error st) : Unwritten s st := by
  induction as generalizing s with
  | nil => cases h
  | cons a as ih =>
    unfold translateEach at h
    split at h
    · next he => exact .trans (translate5_view he) (ih h)
    · next he =>
      cases h
      have taken : Unwritten s _ := translate5_unwritten he
      exact taken

theorem place_unwritten {s : State} {a : W64} {n : Nat} {u : Use} {st : Stop} (h : place s a n u = .error st) : Unwritten s st := by
  unfold place at h
  split at h
  · cases h
  · split at h
    · next s1 pa sup he =>
      unfold target6 at h
      split at h
      · cases h
      · next hc => cases h; exact (translate5_view he).trans (stopsHere_checkTarget _ _ _ _ _ _ _ hc s1)
    · next he => cases h; exact translate5_unwritten he

theorem memTarget_unwritten {r : State × Target} {a : W64} {c : Cause} {st : Stop} (h : memTarget r a c = .error st) : Unwritten r.1 st := by
  obtain ⟨u, t⟩ := r
  cases t with
  | mem p => cases h
  | ctl die off sup => cases h; exact .refl u

theorem targetEach_unwritten {n : Nat} {u : Use} {ctl : Cause} {s : State} {as : List W64} {st : Stop}
    (h : targetEach s n u ctl as = .error st) : Unwritten s st := by
  induction as generalizing s with
  | nil => cases h
  | cons a as ih =>
    unfold targetEach at h
    simp only [bind, Except.bind] at h
    split at h
    · next hp => cases h; exact place_unwritten hp
    · next r hr =>
      split at h
      · next hm => cases h; exact .trans (place_view hr) (memTarget_unwritten hm)
      · next q hq =>
        obtain ⟨s1, pa⟩ := q
        rw [memTarget_ok hq] at hr
        split at h
        · next ht => cases h; exact .trans (place_view hr) (ih ht)
        · cases h

theorem checkMulti_unwritten {s : State} {c : GVal} {perm : Byte} {n : Nat} {u : Use} {ds : List W64} {st : Stop}
    (h : checkMulti s c perm n u ds = .error st) : Unwritten s st := by
  unfold checkMulti at h
  simp only [bind, Except.bind] at h
  split at h
  · next he => cases h; exact stopsHere_checkEach _ _ _ _ _ _ _ _ _ he s
  · split at h
    · next he => cases h; exact stopsHere_watchEach _ _ _ _ _ he s
    · split at h
      · next he => cases h; exact translateEach_unwritten he
      · next he => exact .trans (translateEach_view he) (targetEach_unwritten h)

theorem stopTask_trap {s : State} {t : BitVec 48} {st : Stop} {c : Cause} {v : W64} (h : stopOf st = .trap c v) :
    stopTask s t st = raise (metAt s st) t c v false := by
  induction st generalizing s with
  | after u st ih => exact ih h
  | trap c v => cases h; rfl
  | _ => cases h

/-- A trap that is not logged and stops no task writes no memory. -/
theorem raise_memory (s : State) (t : BitVec 48) {c : Cause} (v : W64) (hc : c ≠ .memUe) (hs : (s.task t).sup.inStrap = false) :
    MemorySame s (raise s t c v false) := by
  have entry (u : State) (hu : (u.task t).sup.inStrap = false) : MemorySame u (takeTrap u t (causeCode c) v false) := by
    unfold takeTrap
    dsimp only
    rw [hu]
    split <;> exact ⟨fun _ => rfl, fun _ => rfl, rfl⟩
  have noted : ((noteViolation s t).task t).sup.inStrap = false := by
    rw [noteViolation, State.task_onTask_same]
    exact hs
  unfold raise logUe
  rw [if_neg hc]
  split
  · exact entry _ noted
  · exact entry _ hs

/-- An instruction that ends in a stop of its checks. -/
theorem stopsUnwritten_of_error {i : Instr} {g : Guard} {len : Nat} {s : State} {e : State → Eff State} {st : Stop}
    (h : exec i s = guarded g len s e) (hg : s.curTask.guardOk g = true) (he : e s = .error st) (kept : Unwritten s st) :
    StopsUnwritten i s st := by
  refine ⟨by rw [h, guarded_on hg, he]; rfl, kept.view.memorySame, fun c v hst hc hs => ?_⟩
  have same : ((metAt s st).task s.curTid).sup.inStrap = false := by
    have task : (metAt s st).curTask = _ := kept.counted
    rw [← kept.view.tid, show (metAt s st).task (metAt s st).curTid = _ from task]
    exact hs
  obtain ⟨byte, tag, ue⟩ := raise_memory (metAt s st) s.curTid v hc same
  have base := kept.view.memorySame
  rw [applyStop, stopTask_trap hst]
  exact ⟨fun a => (byte a).trans (base.1 a), fun a => (tag a).trans (base.2.1 a), ue.trans base.2.2⟩

/-! STM and STRED -/

section
variable {s s1 : State} {g : Guard} {d a b : BitVec 5} {z : BitVec 3} {pas : List Nat} (hg : s.curTask.guardOk g = true)
include hg

theorem exec_stm (h : checkMulti s (s.curTask.reg a) permSt (szBytes z) .store (destinations (cursor (s.curTask.reg a).bits) (s.curTask.r64 b)) = .ok (s1, pas)) :
    exec (.stm g d a b z) s = .next (retire (((destinations (cursor (s.curTask.reg a).bits) (s.curTask.r64 b)).zip pas).foldl
      (fun u (p : W64 × Nat) => ((u.store p.1 p.2 (leBytes (szBytes z) (s.curTask.reg d).bits.toNat)).chargeOut p.2 (szBytes z)).owe 4) s1) 4) := by
  rw [show exec (.stm g d a b z) s = execStm g d a b z s from rfl, execStm, guarded_on hg]
  simp only [h, bind, Except.bind, pure, Except.pure]
  rfl

theorem exec_stred {op : BitVec 3}
    (h : checkMulti s (s.curTask.reg a) permAtom (szBytes z) .atomic (destinations (cursor (s.curTask.reg a).bits) (s.curTask.r64 b)) = .ok (s1, pas)) :
    let f (m : Nat) : Option Nat × Flags :=
      (some (amoResult (stredOp op) (8 * szBytes z) m ((s.curTask.reg d).bits.toNat % 2 ^ (8 * szBytes z))).1,
        (amoResult (stredOp op) (8 * szBytes z) m ((s.curTask.reg d).bits.toNat % 2 ^ (8 * szBytes z))).2)
    exec (.stred g d a b op z) s = .next (retire (((destinations (cursor (s.curTask.reg a).bits) (s.curTask.r64 b)).zip pas).foldl
      (fun u p => if (u.firstBad p.2 (szBytes z)).isSome then postedUe u p.1 else atomicAt u p.1 p.2 (szBytes z) f) s1) 4) := by
  rw [show exec (.stred g d a b op z) s = execStred g d a b op z s from rfl, execStred, guarded_on hg]
  simp only [h, bind, Except.bind, pure, Except.pure]
  rfl

theorem stm_stops {st : Stop}
    (h : checkMulti s (s.curTask.reg a) permSt (szBytes z) .store (destinations (cursor (s.curTask.reg a).bits) (s.curTask.r64 b)) = .error st) :
    StopsUnwritten (.stm g d a b z) s st := by
  refine stopsUnwritten_of_error (show _ = execStm g d a b z s from rfl) hg ?_ (checkMulti_unwritten h)
  simp only [h, bind, Except.bind]

theorem stred_stops {op : BitVec 3} {st : Stop}
    (h : checkMulti s (s.curTask.reg a) permAtom (szBytes z) .atomic (destinations (cursor (s.curTask.reg a).bits) (s.curTask.r64 b)) = .error st) :
    StopsUnwritten (.stred g d a b op z) s st := by
  refine stopsUnwritten_of_error (show _ = execStred g d a b op z s from rfl) hg ?_ (checkMulti_unwritten h)
  simp only [h, bind, Except.bind]

end

/-! A destination outside the core's own scratchpad -/

theorem foundNat_foreign {s : State} {a : W64} {pa n : Nat} (h : ∀ k < n, ownOffset s (pa + k) = none) : s.foundNat a pa n = s.readNat pa n := by
  unfold State.foundNat State.readNat
  rw [readBytes_eq_map]
  refine congrArg leNat (List.map_congr_left fun k hk => ?_)
  unfold State.foundByte
  rw [h k (List.mem_range.mp hk)]
  rfl

theorem store_foreign {s : State} {a : W64} {pa : Nat} {bs : List Byte} (h : ∀ k < bs.length, ownOffset s (pa + k) = none) :
    s.store a pa bs = s.write pa bs := by
  have none : s.ownCells ((List.range bs.length).map (pa + ·)) = [] := by
    rw [State.ownCells, List.filter_eq_nil_iff]
    intro p hp
    obtain ⟨k, hk, rfl⟩ := List.mem_map.mp hp
    rw [h k (List.mem_range.mp hk)]
    decide
  unfold State.store State.through
  rw [none]
  rfl

theorem stores_foreign {n : Nat} {bs : List Byte} (hn : bs.length = n) (ds : List W64) (pas : List Nat) (len : ds.length = pas.length)
    {s : State} (h : ∀ pa ∈ pas, ∀ k < n, ownOffset s (pa + k) = none) :
    (ds.zip pas).foldl (fun s (p : W64 × Nat) => s.store p.1 p.2 bs) s = pas.foldl (fun s pa => s.write pa bs) s := by
  induction ds generalizing s pas with
  | nil => rw [List.length_eq_zero_iff.mp len.symm]; rfl
  | cons d ds ih =>
    cases pas with
    | nil => cases len
    | cons pa pas =>
      rw [List.zip_cons_cons, List.foldl_cons, List.foldl_cons, store_foreign (fun k hk => h pa List.mem_cons_self k (hn ▸ hk))]
      refine ih pas (Nat.succ.inj len) fun p hp k hk => ?_
      have cur : (s.write pa bs).cur = s.cur := by rw [(Stores.write (.refl s)).acc.1]
      unfold ownOffset
      rw [cur]
      exact h p (List.mem_cons_of_mem pa hp) k hk

/-! The operations (R161, R162, R165) -/

/-- A sum of an atomic, rounded once. -/
def atomSum (f : Fmt) (i j : Nat) : Nat × Flags :=
  let z := fadd (fdecode f i) (fdecode f j)
  ((fconv f false .rne z.1).1, z.2 ||| (fconv f false .rne z.1).2)

theorem fsum_eq (f : Fmt) (i j : Nat) : amoResult.fsum f i j = atomSum f i j := rfl

/-- The smaller and the larger of two signed numbers of a width. -/
theorem amoResult_minmax {w m v : Nat} (hm : m < 2 ^ w) (hv : v < 2 ^ w) :
    let signed (k : Nat) : Int := if 2 * k < 2 ^ w then k else (k : Int) - 2 ^ w
    amoResult 4 w m v = (if signed m ≤ signed v then m else v, 0) ∧ amoResult 5 w m v = (if signed m ≤ signed v then v else m, 0) := by
  constructor <;> simp only [amoResult, sxInt_of_lt hm, sxInt_of_lt hv, decide_eq_true_eq]

/-- Two bf16 sums in one word. -/
theorem amoResult_pair {m v : Nat} (hm : m < 2 ^ 32) (hv : v < 2 ^ 32) :
    let lane (k i : Nat) : Nat := i / 2 ^ (16 * k) % 2 ^ 16
    amoResult 10 32 m v = ((atomSum bf16 (lane 0 m) (lane 0 v)).1 + (atomSum bf16 (lane 1 m) (lane 1 v)).1 * 2 ^ 16,
      (atomSum bf16 (lane 0 m) (lane 0 v)).2 ||| (atomSum bf16 (lane 1 m) (lane 1 v)).2) := by
  have low (i : Nat) : i / 2 ^ (16 * 0) = i := Nat.div_one i
  have high {i : Nat} (h : i < 2 ^ 32) : i / 2 ^ (16 * 1) % 2 ^ 16 = i / 2 ^ 16 := Nat.mod_eq_of_lt (by omega)
  simp only [low, high hm, high hv]
  rfl

/-- Settles O10: an atomic by `completes_atomic_some` and `faulty_atomic`, several destinations by `owed_foldl` and `Reducing.foldl`. -/
theorem atomicsAndMultiDestinationStores : Obligations.AtomicsAndMultiDestinationStores := by
  constructor
  · intro s s1 g d a b w op pa hg c e n m v signed sum lane new old faulty
    have hn : 0 < n := by show 0 < if w = 0 then 4 else if w = 1 then 8 else 16; split <;> [decide; (split <;> decide)]
    have hm : m < 2 ^ (8 * n) := foundNat_lt ..
    have hv : v < 2 ^ (8 * n) := Nat.mod_lt _ (Nat.two_pow_pos _)
    have amo : exec (.amo g d a b w op) s = finish s (atomicInstr s d a n fun m => (some (amoResult op.toNat (8 * n) m v).1, (amoResult op.toNat (8 * n) m v).2)) := by
      rw [show exec (.amo g d a b w op) s = execAmo g d a b w op s from rfl, execAmo, guarded_on hg]; rfl
    have cas : exec (.cas g d a b w) s = finish s (atomicInstr s d a n fun m => (if m = (s.curTask.reg d).bits.toNat % 2 ^ (8 * n) then some v else none, 0)) := by
      rw [show exec (.cas g d a b w) s = execCas g d a b w s from rfl, execCas, guarded_on hg]; rfl
    refine ⟨fun none => foundNat_loopless none e pa n, fun hr => ⟨fun hop hc => ?_, fun hc eq => ?_, fun hc ne => ?_, fun hc => ?_⟩⟩
    · have hnew : amoResult op.toNat (8 * n) m v = new := by
        have narrow (h : 8 < op.toNat) : 8 * n = 32 := by
          have hw := (hop.resolve_left (by omega)).2
          show 8 * (if w = 0 then 4 else _) = 32
          rw [if_pos hw]
        have few : op.toNat ≤ 10 := by omega
        dsimp only [new]
        generalize op.toNat = k at narrow few
        match k, few, narrow with
        | 0, _, _ | 1, _, _ | 2, _, _ | 3, _, _ | 6, _, _ | 7, _, _ | 8, _, _ | 9, _, _ => rfl
        | 4, _, _ => exact (amoResult_minmax hm hv).1
        | 5, _, _ => exact (amoResult_minmax hm hv).2
        | 10, _, narrow =>
          have width := narrow (by decide)
          rw [width] at hm hv ⊢
          exact amoResult_pair hm hv
      exact completes_atomic_some amo hr hc hn (by rw [show s.foundNat _ pa n = m from rfl, hnew])
    · exact completes_atomic_some cas hr hc hn (by rw [if_pos eq.symm])
    · exact completes_atomic_none cas hr hc (by rw [if_neg fun h => ne h.symm])
    · exact ⟨faulty_atomic amo hr hc, faulty_atomic cas hr hc⟩
  · intro s s1 g d a b z op pas hg c n desc ds v signed new one all stored outside
    have hds : destinations (cursor c.bits) desc = ds := destinations_eq ..
    have hv : v < 2 ^ (8 * n) := Nat.mod_lt _ (Nat.two_pow_pos _)
    have hstored : stored = ((destinations (cursor c.bits) desc).zip pas).foldl
        (fun u (p : W64 × Nat) => u.store p.1 p.2 (leBytes n (s.curTask.reg d).bits.toNat)) s := by
      rw [hds]
      simp only [stored, v, leBytes_mod]
    rw [← hds]
    refine ⟨fun len out => ?_, fun r p out good x => ?_, fun h => ?_, fun h => ?_, fun st h => stm_stops hg h, fun st h => stred_stops hg h⟩
    · rw [hstored, leBytes_mod]
      exact stores_foreign (leBytes_length n _) _ pas len out
    · have far : r.foundNat p.1 p.2 n = r.readNat p.2 n := foundNat_foreign out
      show (if (r.firstBad p.2 n).isSome then _ else _ : State × Task).1 = _
      rw [good, if_neg (by decide)]
      dsimp only
      rw [far, store_foreign (by rw [leBytes_length]; exact out)]
    · obtain ⟨placed, len⟩ := checkMulti_view h
      obtain ⟨view, acc, task⟩ := owed_foldl (n := n) (bs := leBytes n (s.curTask.reg d).bits.toNat) ((destinations (cursor c.bits) desc).zip pas) placed.view
      have many : ((destinations (cursor c.bits) desc).zip pas).map (fun _ => (⟨4⟩ : Pending)) = pas.map fun _ => ⟨4⟩ := by
        rw [List.map_const', List.map_const', List.length_zip, len, Nat.min_self]
      rw [hstored]
      refine completes_retire (x := s1.curTask) (exec_stm hg h) (accessed_trans placed.1.1 acc) ((accessed_curTid acc).trans placed.view.tid) (SameView.memorySame view.retire) placed.counted ?_
      rw [task, many]
    · obtain ⟨placed, len⟩ := checkMulti_view h
      have hop (m : Nat) (hm : m < 2 ^ (8 * n)) : amoResult (stredOp op) (8 * n) m v = new m := by
        dsimp only [new]
        unfold stredOp
        generalize op.toNat = k
        match k with
        | 0 | 1 | 4 | _ + 5 => rfl
        | 2 => exact (amoResult_minmax hm hv).1
        | 3 => exact (amoResult_minmax hm hv).2
      have start : Reducing s1.curTask (s, s.curTask) s1 :=
        ⟨placed.view, placed.1.1, by rw [show s1.curTask = _ from placed.counted]⟩
      have run := start.foldl (new := new)
        (f := fun m => (some (amoResult (stredOp op) (8 * n) m v).1, (amoResult (stredOp op) (8 * n) m v).2)) (fun m hm => by rw [hop m hm]) ((destinations (cursor c.bits) desc).zip pas)
      have hall : all = ((destinations (cursor c.bits) desc).zip pas).foldl (reduced n new) (s, s.curTask) := by rw [hds]; rfl
      rw [← hall] at run
      obtain ⟨view, acc, task⟩ := run
      exact completes_retire (x := s1.curTask) (exec_stred hg h) acc (view.tid.trans (by rw [hall, reduced_foldl_tid]))
        (SameView.memorySame view.retire) placed.counted task

end Sys2Proof.Machine
end

section
/-! PROOFS. Barriers (R170, R171) where an issue slot still names a task that waits. -/

namespace Sys2Proof.Machine

open Sys2Proof.Safety

/-- A task of core 0 that waits on counter slot 0. -/
def slotWaiter (t : BitVec 48) (high : Bool) : Task := { Task.none with gtid := t, status := .waitMsg, wait := some (.counter 0), high := high }

/-- Three tasks of core 0 on one slot with target 1: the executing one at high level, one that waits, and one that waits while the base-level
issue slot still names it. -/
def slotKept : State := { State.reset with
  cores := [(0, { Core.zero with slotHigh := some 1, slotBase := some 3, groups := [⟨0, [0]⟩], counters := [(0, { Counter.zero with target := 1 })] })],
  tasks := [(1, { loadedTask with high := true }), (2, slotWaiter 2 true), (3, slotWaiter 3 false)] }

/-- The arrival completes the slot: it wakes the second task first, whose dispatch suspends the third, and a suspended task does not wake. -/
theorem barArr_slotKept : ∃ t, exec (.barArr ⟨false, 0⟩ 0) slotKept = .next t ∧ (t.task 3).wait = some (.counter 0) :=
  ⟨_, rfl, by decide +kernel⟩

/-- Refutes O12: a completion is to release every task of the core that waits on the slot, but in `slotKept` the wake of one of them dispatches
the core, which sets the other, still named by the base-level issue slot, aside as SUSPENDED before its own wake comes: it keeps its wait. The
statement is about every state, also one whose issue slot names a task that waits. -/
theorem not_counterSlotsAndBarriers : ¬ Obligations.CounterSlotsAndBarriers := by
  unfold Obligations.CounterSlotsAndBarriers
  rintro ⟨-, barriers⟩
  obtain ⟨arrives, -⟩ := barriers slotKept ⟨false, 0⟩ 0 0 rfl (by decide +kernel) (by decide +kernel)
  obtain ⟨⟨t, ht, ⟨-, -, -, -, released⟩, -⟩, -⟩ := arrives (by decide +kernel) (fun ⟨e, he, _⟩ => absurd he (by
    rw [show slotKept.me.sendq = [] by decide +kernel]; exact List.not_mem_nil))
  obtain ⟨u, hu, waits⟩ := barArr_slotKept
  obtain rfl : t = u := Host.Outcome.next.inj (ht.symm.trans hu)
  obtain ⟨full, -⟩ := released 3 (by decide +kernel) (by decide +kernel) (by decide +kernel) (by decide +kernel) (by decide +kernel)
  exact absurd (waits.symm.trans (full (by decide +kernel)).2) (by decide)

end Sys2Proof.Machine
end

section
/-! PROOFS. The host ports (R413 to R417): what a port does with a request, and queue-pair contexts. -/

namespace Sys2Proof.Machine

open Sys2Proof.Safety Sys2Proof.Laws

/-! Context words -/

theorem qpWord_setQpWord (s : State) (c i : Nat) (v : W64) (d j : Nat) :
    (s.setQpWord c i v).qpWord d j = if 8 * d + j = 8 * c + i then v else s.qpWord d j := by
  unfold State.qpWord State.setQpWord
  exact sget_sset ..

@[simp] theorem qpWord_setQpWord_same (s : State) (c i : Nat) (v : W64) : (s.setQpWord c i v).qpWord c i = v := by rw [qpWord_setQpWord, if_pos rfl]

theorem qpWord_setQpWord_other (s : State) (c : Nat) {i j : Nat} (v : W64) (h : j ≠ i) : (s.setQpWord c i v).qpWord c j = s.qpWord c j := by
  rw [qpWord_setQpWord, if_neg (by omega)]

/-! What a port takes (R413, R416) -/

/-- The state of a port that has noted a congestion mark. -/
def heard (s : State) (r : RdmaReq) : State :=
  { s with sent := if r.ce && (s.hp r.port 0).getLsbD 17 then s.sent ++ [.cnp r.port r.qpn] else s.sent }

/-- The port is enabled and its link up. -/
def PortOn (s : State) (r : RdmaReq) : Prop := r.port < 4 ∧ (s.hp r.port 0).getLsbD 0 = true ∧ (s.hp r.port 5).getLsbD 0 = true

/-- The request names a context that is READY. -/
def NamesReady (s : State) (r : RdmaReq) : Prop := 0x1000 + 512 * r.port ≤ r.qpn.toNat ∧ r.qpn.toNat < 0x1000 + 512 * (r.port + 1)
  ∧ (s.qpWord (r.qpn.toNat - 0x1000) 0).extractLsb' 0 2 = 1

/-- The port takes the IP version of the context. -/
def TakesVersion (s : State) (r : RdmaReq) : Prop :=
  (s.hp r.port 0).getLsbD (if (s.qpWord (r.qpn.toNat - 0x1000) 0).getLsbD 2 then 2 else 1) = true

theorem receive_off {s : State} {r : RdmaReq} (h : ¬ PortOn s r) : receive s r = (s, none) := by
  have off : (4 ≤ r.port || !(s.hp r.port 0).getLsbD 0 || !(s.hp r.port 5).getLsbD 0) = true := by
    by_contra on
    simp only [Bool.or_eq_true, decide_eq_true_eq, Bool.not_eq_true', not_or, Nat.not_le, Bool.not_eq_false] at on
    exact h ⟨on.1.1, on.1.2, on.2⟩
  unfold receive
  dsimp only
  rw [if_pos off]

theorem portOn_test {s : State} {r : RdmaReq} (h : PortOn s r) :
    (4 ≤ r.port || !(s.hp r.port 0).getLsbD 0 || !(s.hp r.port 5).getLsbD 0) = false := by
  obtain ⟨hp, hc, hl⟩ := h
  simp [hc, hl, hp]

theorem readyContext_eq {s : State} {r : RdmaReq} (h : NamesReady s r) : readyContext s r = some (r.qpn.toNat - 0x1000) := by
  obtain ⟨lo, hi, st⟩ := h
  unfold readyContext
  dsimp only
  rw [if_pos (by simp [lo, hi, st])]

theorem readyContext_none {s : State} {r : RdmaReq} (h : ¬ NamesReady s r) : readyContext s r = none := by
  unfold readyContext
  dsimp only
  rw [if_neg]
  intro k
  simp only [Bool.and_eq_true, decide_eq_true_eq] at k
  exact h ⟨k.1.1, k.1.2, k.2⟩

theorem receive_dropped {s : State} {r : RdmaReq} (on : PortOn s r) (h : r.bad = true ∨ ¬ NamesReady s r) :
    receive s r = (s.setHp r.port 6 ((s.hp r.port 6 + 1) &&& 0xFFFFFFFFFFFF), none) := by
  unfold receive
  dsimp only
  rw [portOn_test on]
  simp only [Bool.false_eq_true, if_false]
  by_cases hb : r.bad = true
  · rw [if_pos hb]
  · rw [if_neg hb, readyContext_none (h.resolve_left hb)]

theorem receive_version {s : State} {r : RdmaReq} (on : PortOn s r) (good : r.bad = false) (ready : NamesReady s r) (h : ¬ TakesVersion s r) :
    receive s r = (s, none) := by
  unfold TakesVersion at h
  unfold receive
  dsimp only
  rw [portOn_test on]
  simp only [Bool.false_eq_true, if_false, good, readyContext_eq ready]
  rw [if_pos (by simpa using h)]

theorem receive_named {s : State} {r : RdmaReq} (on : PortOn s r) (good : r.bad = false) (ready : NamesReady s r) (h : TakesVersion s r) :
    receive s r = (heard s r, some (r.qpn.toNat - 0x1000)) := by
  unfold TakesVersion at h
  unfold receive heard
  dsimp only
  rw [portOn_test on]
  simp only [Bool.false_eq_true, if_false, good, readyContext_eq ready]
  rw [if_neg (by simp only [h]; decide)]
  split <;> rfl

/-! A request through its port (R417) -/

theorem exec_rdma {x : Instr} {r : RdmaReq} (h : x ∈ [Instr.rdmaWrite r, .rdmaRead r, .rdmaUnsupported r]) (s : State) :
    ∃ turn again, exec x s = request s r turn again := by
  simp only [List.mem_cons, List.not_mem_nil, or_false] at h
  obtain rfl | rfl | rfl := h
  · exact ⟨_, _, rfl⟩
  · exact ⟨_, _, rfl⟩
  · exact ⟨_, _, rfl⟩

theorem request_none {s u : State} {r : RdmaReq} (h : receive s r = (u, none)) (turn again : State → Nat → State) :
    request s r turn again = .next u := by
  unfold request heldByPause
  rw [h]

/-- Where the request stands in its context's sequence. -/
def psnAhead (s : State) (c : Nat) (r : RdmaReq) : Nat := (r.psn - (s.qpWord c 1).setWidth 24).toNat

theorem psnPlace_eq (s : State) (c : Nat) (r : RdmaReq) :
    psnPlace s c r = if psnAhead s c r = 0 then 0 else if psnAhead s c r < 2 ^ 23 then 1 else 2 := rfl

section
variable {s u : State} {r : RdmaReq} {c : Nat} (h : receive s r = (u, some c)) (turn again : State → Nat → State)
include h

theorem request_paused (p : pausedOn s r.port ((s.qpWord c 0).extractLsb' 3 3) = true) :
    request s r turn again = .next (send s (.pfcPause r.port ((s.qpWord c 0).extractLsb' 3 3) (Config.pauseQuanta s.tick))) := by
  unfold request heldByPause
  rw [h]
  simp only [p, if_true]

theorem request_placed (p : pausedOn s r.port ((s.qpWord c 0).extractLsb' 3 3) = false) :
    request s r turn again = .next (if psnAhead u c r = 0 then turn u c else if psnAhead u c r < 2 ^ 23 then nak u c r 1 else again u c) := by
  unfold request heldByPause
  rw [h]
  simp only [p, Bool.false_eq_true, if_false, psnPlace_eq]
  by_cases now : psnAhead u c r = 0
  · simp only [if_pos now]
  · by_cases late : psnAhead u c r < 2 ^ 23
    · simp only [if_neg now, if_pos late]
    · simp only [if_neg now, if_neg late]

end

/-- A request that its port takes for a queue pair. -/
structure Admitted (s : State) (r : RdmaReq) : Prop where
  on : PortOn s r
  good : r.bad = false
  ready : NamesReady s r
  version : TakesVersion s r
  clear : pausedOn s r.port ((s.qpWord (r.qpn.toNat - 0x1000) 0).extractLsb' 3 3) = false

section
variable {s : State} {r : RdmaReq} (h : Admitted s r) (turn again : State → Nat → State)
include h

theorem request_turn (p : psnAhead s (r.qpn.toNat - 0x1000) r = 0) :
    request s r turn again = .next (turn (heard s r) (r.qpn.toNat - 0x1000)) := by
  obtain ⟨on, good, ready, version, clear⟩ := h
  rw [request_placed (receive_named on good ready version) turn again clear]
  rw [if_pos (show psnAhead (heard s r) _ r = 0 from p)]

theorem request_ahead (p : 0 < psnAhead s (r.qpn.toNat - 0x1000) r) (q : psnAhead s (r.qpn.toNat - 0x1000) r < 2 ^ 23) :
    request s r turn again = .next (nak (heard s r) (r.qpn.toNat - 0x1000) r 1) := by
  obtain ⟨on, good, ready, version, clear⟩ := h
  have p' : ¬ psnAhead (heard s r) (r.qpn.toNat - 0x1000) r = 0 := Nat.pos_iff_ne_zero.mp p
  rw [request_placed (receive_named on good ready version) turn again clear, if_neg p',
    if_pos (show psnAhead (heard s r) _ r < 2 ^ 23 from q)]

theorem request_again (p : 2 ^ 23 ≤ psnAhead s (r.qpn.toNat - 0x1000) r) :
    request s r turn again = .next (again (heard s r) (r.qpn.toNat - 0x1000)) := by
  obtain ⟨on, good, ready, version, clear⟩ := h
  have p' : 2 ^ 23 ≤ psnAhead (heard s r) (r.qpn.toNat - 0x1000) r := p
  rw [request_placed (receive_named on good ready version) turn again clear, if_neg (by omega), if_neg (by omega)]

end

/-! What a NAK leaves -/

/-- A NAK as its packet and its context show it. -/
structure Refused (s u : State) (r : RdmaReq) (syn : Nat) (st : BitVec 2) : Prop where
  sent : u.sent = s.sent ++ [.rdmaNak r.port r.qpn syn]
  state : (u.qpWord (r.qpn.toNat - 0x1000) 0).extractLsb' 0 2 = st
  syndrome : (u.qpWord (r.qpn.toNat - 0x1000) 5).extractLsb' 32 3 = BitVec.ofNat 3 syn
  psn : u.qpWord (r.qpn.toNat - 0x1000) 1 = s.qpWord (r.qpn.toNat - 0x1000) 1
  mem : u.mem = s.mem
  tags : u.tags = s.tags

theorem syndrome_word (w m : W64) (hm : m.extractLsb' 32 3 = 0) (syn : Nat) :
    (((w &&& m) ||| (BitVec.ofNat 64 syn <<< 32)) : W64).extractLsb' 32 3 = BitVec.ofNat 3 syn := by
  rw [BitVec.extractLsb'_or, BitVec.extractLsb'_and, hm]
  refine BitVec.eq_of_getLsbD_eq fun i hi => ?_
  simp [hi, show 32 + i < 64 by omega]
  simp only [BitVec.getElem_eq_testBit_toNat, BitVec.toNat_ofNat, Nat.testBit_mod_two_pow]
  simp [hi, show i < 64 by omega]

theorem error_word (w : W64) : (((w &&& ~~~3) ||| BitVec.ofNat 64 2) : W64).extractLsb' 0 2 = 2 := by
  refine BitVec.eq_of_getLsbD_eq fun i hi => ?_
  have : i = 0 ∨ i = 1 := by omega
  obtain rfl | rfl := this <;> simp

@[simp] theorem qpWord_send (s : State) (x : Sent) (c i : Nat) : (send s x).qpWord c i = s.qpWord c i := rfl

theorem qpWord_qpState (s : State) (c st : Nat) : (qpState s c st).qpWord c 0 = (s.qpWord c 0 &&& ~~~3) ||| BitVec.ofNat 64 st :=
  qpWord_setQpWord_same ..

theorem qpWord_qpState_other (s : State) (c st : Nat) {i : Nat} (h : i ≠ 0) : (qpState s c st).qpWord c i = s.qpWord c i :=
  qpWord_setQpWord_other _ _ _ h

theorem nak_syndrome (s : State) (c : Nat) (r : RdmaReq) (syn : Nat) : ((nak s c r syn).qpWord c 5).extractLsb' 32 3 = BitVec.ofNat 3 syn := by
  unfold nak
  dsimp only
  rw [qpWord_send]
  split
  · rw [qpWord_setQpWord_same, syndrome_word _ _ (by decide)]
  · rw [qpWord_qpState_other _ _ _ (by decide), qpWord_setQpWord_same, syndrome_word _ _ (by decide)]

theorem nak_psn (s : State) (c : Nat) (r : RdmaReq) (syn : Nat) : (nak s c r syn).qpWord c 1 = s.qpWord c 1 := by
  unfold nak
  dsimp only
  rw [qpWord_send]
  split
  · rw [qpWord_setQpWord_other _ _ _ (by decide)]
  · rw [qpWord_qpState_other _ _ _ (by decide), qpWord_setQpWord_other _ _ _ (by decide)]

theorem nak_rest (s : State) (c : Nat) (r : RdmaReq) (syn : Nat) :
    (nak s c r syn).sent = s.sent ++ [.rdmaNak r.port r.qpn syn] ∧ (nak s c r syn).mem = s.mem ∧ (nak s c r syn).tags = s.tags := by
  unfold nak
  dsimp only
  split <;> exact ⟨rfl, rfl, rfl⟩

theorem refused_nak (s : State) (r : RdmaReq) {syn : Nat} (h : syn ≠ 1) : Refused s (nak s (r.qpn.toNat - 0x1000) r syn) r syn 2 := by
  obtain ⟨sent, mem, tags⟩ := nak_rest s (r.qpn.toNat - 0x1000) r syn
  refine ⟨sent, ?_, nak_syndrome .., nak_psn .., mem, tags⟩
  unfold nak
  dsimp only
  rw [if_neg h, qpWord_send, qpWord_qpState]
  exact error_word _

theorem refused_ahead (s : State) {r : RdmaReq} (h : NamesReady s r) : Refused s (nak s (r.qpn.toNat - 0x1000) r 1) r 1 1 := by
  obtain ⟨sent, mem, tags⟩ := nak_rest s (r.qpn.toNat - 0x1000) r 1
  refine ⟨sent, ?_, nak_syndrome .., nak_psn .., mem, tags⟩
  unfold nak
  dsimp only
  rw [if_pos rfl, qpWord_send, qpWord_setQpWord_other _ _ _ (by decide)]
  exact h.2.2

/-! Regions (R414, R415) -/

/-- The number of the region that a request's key names by its low byte. -/
def regionNo (r : RdmaReq) : Nat := (r.rkey.extractLsb' 0 8).toNat

/-- The key names a region that is valid. -/
def NamesRegion (s : State) (r : RdmaReq) : Prop := (sget 0 s.host.regLow (regionNo r)).getLsbD 0 = true
  ∧ (sget 0 s.host.regHigh (regionNo r)).extractLsb' 40 24 = r.rkey.extractLsb' 8 24

/-- The bytes of a request lie in its region, which is no doorbell, allows the access and is backed. -/
def InRegion (s : State) (r : RdmaReq) (perm n : Nat) : Prop :=
  let low := sget 0 s.host.regLow (regionNo r)
  let len := ((sget 0 s.host.regHigh (regionNo r)).extractLsb' 0 40).toNat
  NamesRegion s r ∧ low.getLsbD 3 = false ∧ low.getLsbD perm = true ∧ r.va.toNat + n ≤ len ∧ s.backed (regionBase s (regionNo r)) len = true
    ∧ regionBase s (regionNo r) % 2 ^ 43 < 0x060000000000 ∧ s.backed (regionBase s (regionNo r) + r.va.toNat) n = true

/-- The request writes within a doorbell region. -/
def AtDoorbell (s : State) (r : RdmaReq) : Prop := NamesRegion s r ∧ (sget 0 s.host.regLow (regionNo r)).getLsbD 3 = true
  ∧ (sget 0 s.host.regLow (regionNo r)).getLsbD 2 = true ∧ r.va.toNat + r.data.length ≤ 8

theorem regionOf_named {s : State} {r : RdmaReq} (h : NamesRegion s r) : regionOf s r = some (regionNo r) := by
  obtain ⟨valid, key⟩ := h
  unfold regionOf
  dsimp only
  rw [if_pos (by simpa [regionNo] using ⟨valid, key⟩)]
  rfl

theorem regionOf_unnamed {s : State} {r : RdmaReq} (h : ¬ NamesRegion s r) : regionOf s r = none := by
  unfold regionOf
  dsimp only
  rw [if_neg]
  intro k
  simp only [Bool.and_eq_true, decide_eq_true_eq] at k
  exact h k

/-- The tests of an access to a region (R415), as one statement. -/
theorem region_tests (s : State) (r : RdmaReq) (perm n : Nat) (named : NamesRegion s r) :
    ((sget 0 s.host.regLow (regionNo r)).getLsbD 3 || !(sget 0 s.host.regLow (regionNo r)).getLsbD perm
      || decide (((sget 0 s.host.regHigh (regionNo r)).extractLsb' 0 40).toNat < r.va.toNat + n) || !regionBacked s (regionNo r)
      || !s.backed (regionBase s (regionNo r) + r.va.toNat) n) = false ↔ InRegion s r perm n := by
  unfold InRegion regionBacked
  simp only [named, true_and, Bool.or_eq_false_iff, Bool.not_eq_false', decide_eq_false_iff_not, Nat.not_lt, Bool.and_eq_true, decide_eq_true_eq,
    and_assoc]

theorem regionPa_write (s : State) (r : RdmaReq) (n : Nat) (named : NamesRegion s r) [Decidable (InRegion s r 2 n)] :
    regionPa s (regionNo r) r.va.toNat n true = if InRegion s r 2 n then some (regionBase s (regionNo r) + r.va.toNat) else none := by
  rw [← ite_not]
  unfold regionPa
  exact if_congr (by rw [← region_tests s r 2 n named, Bool.not_eq_false]; rfl) rfl rfl

theorem regionPa_read (s : State) (r : RdmaReq) (n : Nat) (named : NamesRegion s r) [Decidable (InRegion s r 1 n)] :
    regionPa s (regionNo r) r.va.toNat n false = if InRegion s r 1 n then some (regionBase s (regionNo r) + r.va.toNat) else none := by
  rw [← ite_not]
  unfold regionPa
  exact if_congr (by rw [← region_tests s r 1 n named, Bool.not_eq_false]; rfl) rfl rfl

theorem doorbellOk_iff (s : State) (r : RdmaReq) (named : NamesRegion s r) :
    doorbellOk s (regionNo r) r.va.toNat r.data.length = true ↔ AtDoorbell s r := by
  unfold doorbellOk AtDoorbell
  simp only [named, true_and, Bool.and_eq_true, decide_eq_true_eq, and_assoc]

/-! Bytes of a word -/

theorem leBytes_getElem (n v k : Nat) (h : k < (leBytes n v).length) : (leBytes n v)[k] = BitVec.ofNat 8 (v / 256 ^ k) := by
  induction n generalizing v k with
  | zero => exact absurd h (by simp [leBytes])
  | succ n ih =>
    cases k with
    | zero => simp [leBytes]
    | succ k =>
      simp only [leBytes, List.getElem_cons_succ]
      rw [ih, Nat.div_div_eq_div_mul, Nat.pow_succ']

theorem leNat_byte (l : List Byte) (k : Nat) (h : k < l.length) : BitVec.ofNat 8 (leNat l / 256 ^ k) = l[k] := by
  induction l generalizing k with
  | nil => exact absurd h (by simp)
  | cons b l ih =>
    have hb := b.isLt
    cases k with
    | zero =>
      refine BitVec.eq_of_toNat_eq ?_
      simp only [leNat, BitVec.toNat_ofNat, List.getElem_cons_zero, Nat.pow_zero, Nat.div_one]
      omega
    | succ k =>
      rw [List.getElem_cons_succ, ← ih k (by simpa using h), Nat.pow_succ', ← Nat.div_div_eq_div_mul, leNat,
        show (b.toNat + 256 * leNat l) / 256 = leNat l by omega]

theorem byte_ofNat (v : Nat) {k : Nat} (h : k < 8) : (BitVec.ofNat 64 v).extractLsb' (8 * k) 8 = BitVec.ofNat 8 (v / 256 ^ k) := by
  refine BitVec.eq_of_toNat_eq ?_
  rw [show (256 : Nat) = 2 ^ 8 from rfl, ← Nat.pow_mul]
  simp only [BitVec.extractLsb'_toNat, BitVec.toNat_ofNat, Nat.shiftRight_eq_div_pow]
  refine Nat.eq_of_testBit_eq fun i => ?_
  simp only [Nat.testBit_mod_two_pow, Nat.testBit_div_two_pow]
  by_cases hi : i < 8
  · simp [hi, show i + 8 * k < 64 by omega]
  · simp [hi]

/-- The bytes of a register of which some are written. -/
theorem patchBytes_byte (old : W64) (o : Nat) (bs : List Byte) (h : o + bs.length ≤ 8) {k : Nat} (hk : k < 8) :
    (patchBytes old o bs).extractLsb' (8 * k) 8 =
      if o ≤ k then bs.getD (k - o) (old.extractLsb' (8 * k) 8) else old.extractLsb' (8 * k) 8 := by
  have len : (leBytes 8 old.toNat).length = 8 := leBytes_length ..
  have before (h : k < (leBytes 8 old.toNat).length) : (leBytes 8 old.toNat)[k] = old.extractLsb' (8 * k) 8 := by
    rw [leBytes_getElem, ← byte_ofNat _ hk, BitVec.ofNat_toNat, BitVec.setWidth_eq]
  unfold patchBytes
  dsimp only
  rw [byte_ofNat _ hk, leNat_byte _ _ (by simp [len]; omega), List.getElem_take]
  by_cases h1 : k < o
  · rw [if_neg (by omega), List.getElem_append_left (by simp [len]; omega), List.getElem_append_left (by simp [len]; omega), List.getElem_take]
    exact before _
  · rw [if_pos (by omega)]
    by_cases h2 : k < o + bs.length
    · rw [List.getElem_append_left (by simp [len]; omega), List.getElem_append_right (by simp [len]; omega),
        List.getD_eq_getElem _ _ (by omega)]
      congr 1
      simp [len]
      omega
    · rw [List.getElem_append_right (by simp [len]; omega), List.getElem_drop, List.getD_eq_default _ _ (by omega), ← before (by omega)]
      congr 1
      simp [len]
      omega

/-! What a served request leaves (R417) -/

/-- A request that took its turn, by its context. -/
structure Advanced (s u : State) (r : RdmaReq) (n : Nat) : Prop where
  psn : ((u.qpWord (r.qpn.toNat - 0x1000) 1).setWidth 24 : BitVec 24) = r.psn + BitVec.ofNat 24 (psnsOf s (r.qpn.toNat - 0x1000) n)
  count : ((u.qpWord (r.qpn.toNat - 0x1000) 5).setWidth 24 : BitVec 24) = (s.qpWord (r.qpn.toNat - 0x1000) 5).setWidth 24 + 1
  word0 : u.qpWord (r.qpn.toNat - 0x1000) 0 = s.qpWord (r.qpn.toNat - 0x1000) 0

theorem low24_word (w m : W64) (e : BitVec 24) (hm : (m.setWidth 24 : BitVec 24) = BitVec.allOnes 24) :
    ((((w &&& ~~~m) ||| e.setWidth 64) : W64).setWidth 24 : BitVec 24) = e := by
  rw [BitVec.setWidth_or, BitVec.setWidth_and, BitVec.setWidth_not (by decide), hm, BitVec.not_allOnes, BitVec.and_zero, BitVec.zero_or,
    BitVec.setWidth_setWidth_of_le _ (by decide), BitVec.setWidth_eq]

theorem advanced_served (s : State) (r : RdmaReq) (n : Nat) : Advanced s (served s (r.qpn.toNat - 0x1000) r n) r n := by
  unfold served
  refine ⟨?_, ?_, ?_⟩
  · rw [qpWord_setQpWord_other _ _ _ (by decide), qpWord_setQpWord_same, low24_word _ _ _ (by decide)]
  · rw [qpWord_setQpWord_same, low24_word _ _ _ (by decide)]
  · rw [qpWord_setQpWord_other _ _ _ (by decide), qpWord_setQpWord_other _ _ _ (by decide)]

/-! WRITE and READ at their turn (R414, R415) -/

theorem InRegion.not_doorbell {s : State} {r : RdmaReq} {perm n : Nat} (h : InRegion s r perm n) : ¬ AtDoorbell s r := by
  obtain ⟨-, plain, -⟩ := h
  rintro ⟨-, bell, -⟩
  rw [plain] at bell
  cases bell

section
variable {s : State} {r : RdmaReq} (c : Nat)

theorem writeAt_region (h : InRegion s r 2 r.data.length) : writeAt s c r =
    send (served (s.write (regionBase s (regionNo r) + r.va.toNat) r.data) c r r.data.length) (.rdmaAck r.port r.qpn r.psn) := by
  classical
  unfold writeAt
  rw [regionOf_named h.1]
  dsimp only
  rw [if_neg (mt (doorbellOk_iff s r h.1).mp h.not_doorbell), regionPa_write s r _ h.1, if_pos h]

theorem writeAt_doorbell (h : AtDoorbell s r) : writeAt s c r =
    send (served (lqTailWrite s (patchBytes (s.spire.lqTail.setWidth 64) r.va.toNat r.data)) c r r.data.length) (.rdmaAck r.port r.qpn r.psn) := by
  unfold writeAt
  rw [regionOf_named h.1]
  dsimp only
  rw [if_pos ((doorbellOk_iff s r h.1).mpr h)]

theorem writeAt_refused (h : ¬ InRegion s r 2 r.data.length) (k : ¬ AtDoorbell s r) : writeAt s c r = nak s c r 3 := by
  classical
  unfold writeAt
  by_cases named : NamesRegion s r
  · rw [regionOf_named named]
    dsimp only
    rw [if_neg (mt (doorbellOk_iff s r named).mp k), regionPa_write s r _ named, if_neg h]
  · rw [regionOf_unnamed named]

theorem readAt_region (h : InRegion s r 1 r.len) (clean : Clean s (regionBase s (regionNo r) + r.va.toNat) r.len) (again : Bool) :
    readAt s c r again = send (if again then s else served s c r r.len)
      (.rdmaData r.port r.qpn r.psn (s.readBytes (regionBase s (regionNo r) + r.va.toNat) r.len)) := by
  classical
  unfold readAt
  rw [regionOf_named h.1, Option.bind_some, regionPa_read s r _ h.1, if_pos h]
  dsimp only
  rw [(firstBad_isSome ..).mpr clean, if_neg (by decide)]

theorem readAt_bad (h : InRegion s r 1 r.len) (bad : ¬ Clean s (regionBase s (regionNo r) + r.va.toNat) r.len) (again : Bool) :
    readAt s c r again = nak s c r 4 := by
  classical
  unfold readAt
  rw [regionOf_named h.1, Option.bind_some, regionPa_read s r _ h.1, if_pos h]
  dsimp only
  rw [if_pos (eq_true_of_ne_false fun e => bad ((firstBad_isSome ..).mp e))]

theorem readAt_refused (h : ¬ InRegion s r 1 r.len) (again : Bool) : readAt s c r again = nak s c r 3 := by
  classical
  unfold readAt
  by_cases named : NamesRegion s r
  · rw [regionOf_named named, Option.bind_some, regionPa_read s r _ named, if_neg h]
  · rw [regionOf_unnamed named]
    rfl

end

theorem lqTailWrite_rest (s : State) (v : W64) : (lqTailWrite s v).mem = s.mem ∧ (lqTailWrite s v).sent = s.sent ∧ (lqTailWrite s v).host = s.host := by
  unfold lqTailWrite
  split <;> exact ⟨rfl, rfl, rfl⟩

theorem lqTailWrite_tail {s : State} (h : s.spireUp = true) (v : W64) : (lqTailWrite s v).spire.lqTail = v.setWidth 32 := by
  unfold lqTailWrite
  rw [h, if_neg (by decide)]
  dsimp only
  split <;> rfl

/-- Advancing a context is no matter of how far the state beside it is. -/
theorem Advanced.of_qp {s t u : State} {r : RdmaReq} {n : Nat} (h : Advanced t u r n) (qp : t.host.qp = s.host.qp) : Advanced s u r n := by
  have word (c i : Nat) : t.qpWord c i = s.qpWord c i := by unfold State.qpWord; rw [qp]
  obtain ⟨psn, count, word0⟩ := h
  unfold psnsOf at psn
  rw [word] at psn count word0
  exact ⟨psn, count, word0⟩

theorem Advanced.send {s u : State} {r : RdmaReq} {n : Nat} (h : Advanced s u r n) (x : Sent) : Advanced s (send u x) r n := by
  obtain ⟨psn, count, word0⟩ := h
  exact ⟨psn, count, word0⟩

/-! Writes to a context (R417) -/

section
variable {w m : W64} {a n : Nat}

theorem field_and_kept (hm : m.extractLsb' a n = BitVec.allOnes n) : (w &&& m).extractLsb' a n = w.extractLsb' a n := by
  rw [BitVec.extractLsb'_and, hm, BitVec.and_allOnes]

theorem field_and_cleared (hm : m.extractLsb' a n = 0) : (w &&& m).extractLsb' a n = 0 := by
  rw [BitVec.extractLsb'_and, hm]
  exact BitVec.and_zero

theorem field_or_kept (hm : m.extractLsb' a n = 0) : (w ||| m).extractLsb' a n = w.extractLsb' a n := by
  rw [BitVec.extractLsb'_or, hm]
  exact BitVec.or_zero

/-- A field that a conditional masking of another field leaves alone. -/
theorem field_ite_and (c : Prop) [Decidable c] (hm : m.extractLsb' a n = BitVec.allOnes n) :
    (if c then w &&& m else w).extractLsb' a n = w.extractLsb' a n := by
  split
  · exact field_and_kept hm
  · rfl

/-- A field that a conditional setting of another field leaves alone. -/
theorem field_ite_or (c : Prop) [Decidable c] (hm : m.extractLsb' a n = 0) :
    (if c then w ||| m else w).extractLsb' a n = w.extractLsb' a n := by
  split
  · exact field_or_kept hm
  · rfl

end

/-- Word 0 as it is kept: its fields by their rules. -/
theorem qpWord0_fields (v : W64) : ((qpWord0 v).extractLsb' 0 2 : BitVec 2) = (if v.extractLsb' 0 2 = 3 then 0 else v.extractLsb' 0 2)
    ∧ (qpWord0 v).extractLsb' 2 4 = v.extractLsb' 2 4
    ∧ ((qpWord0 v).extractLsb' 6 2 : BitVec 2) = (if v.extractLsb' 6 2 = 3 then 0 else v.extractLsb' 6 2)
    ∧ ((qpWord0 v).extractLsb' 8 5 : BitVec 5) = (if v.extractLsb' 8 5 = 0 then 1 else v.extractLsb' 8 5)
    ∧ (qpWord0 v).extractLsb' 13 19 = 0 ∧ (qpWord0 v).extractLsb' 32 24 = v.extractLsb' 32 24 ∧ (qpWord0 v).extractLsb' 56 8 = 0 := by
  unfold qpWord0
  dsimp only
  refine ⟨?_, ?_, ?_, ?_, ?_, ?_, ?_⟩
  · rw [field_and_kept (by decide), field_ite_or _ (by decide), field_ite_and _ (by decide)]
    split
    · exact field_and_cleared (by decide)
    · rfl
  · rw [field_and_kept (by decide), field_ite_or _ (by decide), field_ite_and _ (by decide), field_ite_and _ (by decide)]
  · rw [field_and_kept (by decide), field_ite_or _ (by decide), field_ite_and (m := ~~~3) _ (by decide)]
    split
    · exact field_and_cleared (by decide)
    · exact field_ite_and _ (by decide)
  · rw [field_and_kept (by decide), field_ite_and (a := 8) _ (by decide), field_ite_and (a := 8) _ (by decide)]
    split
    next h =>
      rw [BitVec.extractLsb'_or, field_ite_and (a := 8) _ (by decide), field_ite_and (a := 8) _ (by decide), h]
      decide
    next => rw [field_ite_and (a := 8) _ (by decide), field_ite_and (a := 8) _ (by decide)]
  · exact field_and_cleared (by decide)
  · rw [field_and_kept (by decide), field_ite_or _ (by decide), field_ite_and _ (by decide), field_ite_and _ (by decide)]
  · exact field_and_cleared (by decide)

/-- The state of a context in ERROR is not made READY. -/
theorem errorKept (w : W64) (old : BitVec 2) : ((if old = 2 && w.extractLsb' 0 2 = 1 then (w &&& ~~~3) ||| 2 else w) : W64).extractLsb' 0 2
      = (if old = 2 ∧ w.extractLsb' 0 2 = 1 then 2 else w.extractLsb' 0 2)
    ∧ ∀ a n, ((~~~3 : W64).extractLsb' a n = BitVec.allOnes n) → (2 : W64).extractLsb' a n = 0 →
      ((if old = 2 && w.extractLsb' 0 2 = 1 then (w &&& ~~~3) ||| 2 else w) : W64).extractLsb' a n = w.extractLsb' a n := by
  simp only [Bool.and_eq_true, decide_eq_true_eq]
  refine ⟨?_, fun a n clear set => ?_⟩
  · split
    · exact error_word w
    · rfl
  · split
    · rw [field_or_kept set, field_and_kept clear]
    · rfl

/-- Writing another word of a context than word 0: a READY context is RESET. -/
def qpReset (s : State) (c : Nat) : State := if (s.qpWord c 0).extractLsb' 0 2 = 1 then qpState s c 0 else s

theorem qpReset_other (s : State) (c : Nat) {d j : Nat} (h : ¬ (8 * d + j = 8 * c)) : (qpReset s c).qpWord d j = s.qpWord d j := by
  unfold qpReset
  split
  · exact (qpWord_setQpWord ..).trans (if_neg h)
  · rfl

theorem qpReset_word0 (s : State) (c : Nat) : ((qpReset s c).qpWord c 0).extractLsb' 0 2
      = (if (s.qpWord c 0).extractLsb' 0 2 = 1 then 0 else (s.qpWord c 0).extractLsb' 0 2)
    ∧ ((qpReset s c).qpWord c 0).extractLsb' 2 62 = (s.qpWord c 0).extractLsb' 2 62 := by
  unfold qpReset
  split
  · rw [qpWord_qpState]
    exact ⟨(field_or_kept (by decide)).trans (field_and_cleared (by decide)), (field_or_kept (by decide)).trans (field_and_kept (by decide))⟩
  · exact ⟨rfl, rfl⟩


theorem qpReset_field (s : State) (c i : Nat) (h : i ≠ 0) :
    (if i ≠ 0 && (s.qpWord c 0).extractLsb' 0 2 = 1 then qpState s c 0 else s) = qpReset s c := by
  unfold qpReset
  simp [h]

/-- A word of a context as a write of v leaves it. -/
def qpKept (old : W64) (i : Nat) (v : W64) : W64 :=
  match i with
  | 1 => v &&& 0x0000FFFF00FFFFFF
  | 2 => v &&& 0x0000FFFFFFFFFFFF
  | 3 => v
  | 4 => v
  | _ => old

theorem qpWrite_zero (s : State) (c : Nat) (v : W64) : qpWrite s c 0 v = s.setQpWord c 0
    (if (s.qpWord c 0).extractLsb' 0 2 = 2 && (qpWord0 v).extractLsb' 0 2 = 1 then (qpWord0 v &&& ~~~3) ||| 2 else qpWord0 v) := rfl

theorem qpWrite_words (s : State) (c : Nat) {i : Nat} (h : i ≠ 0) (v : W64) (d j : Nat) :
    (qpWrite s c i v).qpWord d j = if 8 * d + j = 8 * c + i then qpKept (s.qpWord c i) i v else (qpReset s c).qpWord d j := by
  unfold qpWrite qpKept
  dsimp only
  rw [qpReset_field s c i h]
  split
  · exact absurd rfl h
  · exact qpWord_setQpWord ..
  · exact qpWord_setQpWord ..
  · exact qpWord_setQpWord ..
  · exact qpWord_setQpWord ..
  next h1 h2 h3 h4 =>
    split
    next e =>
      split
      · exact absurd rfl h1
      · exact absurd rfl h2
      · exact absurd rfl h3
      · exact absurd rfl h4
      · rw [qpReset_other s c (by omega)]
        unfold State.qpWord
        rw [e]
    next => rfl

/-! Pauses (R416) -/

theorem lossless_iff (ctl : W64) (prio : BitVec 3) : lossless ctl prio = true ↔
    (ctl.getLsbD 6 = true ∧ ctl.extractLsb' 3 3 = prio) ∨ (ctl.getLsbD 10 = true ∧ ctl.extractLsb' 7 3 = prio) := by
  unfold lossless
  simp only [Bool.or_eq_true, Bool.and_eq_true, decide_eq_true_eq]

theorem readBytes_heard (s : State) (r : RdmaReq) (a n : Nat) : (heard s r).readBytes a n = s.readBytes a n := by
  rw [readBytes_eq_map, readBytes_eq_map]
  rfl

theorem InRegion.heard {s : State} {r : RdmaReq} {perm n : Nat} (h : InRegion s r perm n) : InRegion (heard s r) r perm n := h

theorem regionBase_heard (s : State) (r : RdmaReq) (i : Nat) : regionBase (heard s r) i = regionBase s i := rfl

/-- A READ as it answers: with the bytes that memory had when the request came. -/
theorem readAt_heard {s : State} {r : RdmaReq} (h : InRegion s r 1 r.len) (clean : Clean s (regionBase s (regionNo r) + r.va.toNat) r.len) (c : Nat)
    (again : Bool) : readAt (heard s r) c r again = send (if again then heard s r else served (heard s r) c r r.len)
      (.rdmaData r.port r.qpn r.psn (s.readBytes (regionBase s (regionNo r) + r.va.toNat) r.len)) := by
  rw [readAt_region c h.heard (by rw [regionBase_heard]; exact clean), regionBase_heard, readBytes_heard]

/-- A WRITE as it acts on the state that has noted a mark. -/
theorem writeAt_heard {s : State} {r : RdmaReq} (h : InRegion s r 2 r.data.length) (c : Nat) : writeAt (heard s r) c r =
    send (served ((heard s r).write (regionBase s (regionNo r) + r.va.toNat) r.data) c r r.data.length) (.rdmaAck r.port r.qpn r.psn) := by
  rw [writeAt_region c h.heard, regionBase_heard]

theorem storeBytes_host (s : State) (a : Nat) (bs : List Byte) :
    (s.storeBytes a bs).sent = s.sent ∧ (s.storeBytes a bs).host.qp = s.host.qp := by
  induction bs generalizing s a with
  | nil => exact ⟨rfl, rfl⟩
  | cons b bs ih => exact ih (s.storeByte a b) (a + 1)

theorem write_host (s : State) (a : Nat) (bs : List Byte) : (s.write a bs).sent = s.sent ∧ (s.write a bs).host.qp = s.host.qp := by
  unfold State.write State.mend
  split <;> exact storeBytes_host s a bs

theorem Wrote.of_mem {s t u v : State} {a : Nat} {bs : List Byte} (h : Wrote s t a bs) (hs : v.mem = s.mem) (ht : u.mem = t.mem) : Wrote v u a bs := by
  unfold Wrote State.byte at *
  rw [hs, ht]
  exact h

theorem Tagged.of_tags {s t u v : State} {a n : Nat} {g : Tag} (h : Tagged s t a n g) (hs : v.tags = s.tags) (ht : u.tags = t.tags) : Tagged v u a n g := by
  unfold Tagged State.tagAt at *
  rw [hs, ht]
  exact h

theorem AtDoorbell.heard {s : State} {r : RdmaReq} (h : AtDoorbell s r) : AtDoorbell (heard s r) r := h

theorem byte_setWidth (v : W64) {k : Nat} (h : k < 4) : ((v.setWidth 32 : W32).extractLsb' (8 * k) 8) = v.extractLsb' (8 * k) 8 := by
  refine BitVec.eq_of_getLsbD_eq fun i hi => ?_
  simp only [BitVec.getLsbD_extractLsb', BitVec.getLsbD_setWidth, hi, decide_true, Bool.true_and, show 8 * k + i < 32 by omega]

theorem byte_widened (v : W32) {k : Nat} (h : k < 4) : ((v.setWidth 64 : W64).extractLsb' (8 * k) 8) = v.extractLsb' (8 * k) 8 := by
  refine BitVec.eq_of_getLsbD_eq fun i hi => ?_
  simp only [BitVec.getLsbD_extractLsb', BitVec.getLsbD_setWidth, hi, decide_true, Bool.true_and, show 8 * k + i < 64 by omega]

/-- LQ_TAIL after a doorbell: the bytes written, and the others as they were (R414). -/
theorem lqTailWrite_byte (s : State) (o : Nat) (bs : List Byte) (h : o + bs.length ≤ 8) (up : s.spireUp = true) (k : Nat) (hk : k < 4) :
    (lqTailWrite s (patchBytes (s.spire.lqTail.setWidth 64) o bs)).spire.lqTail.extractLsb' (8 * k) 8 =
      if o ≤ k then bs.getD (k - o) (s.spire.lqTail.extractLsb' (8 * k) 8) else s.spire.lqTail.extractLsb' (8 * k) 8 := by
  rw [lqTailWrite_tail up, byte_setWidth _ hk, patchBytes_byte _ _ _ h (by omega), byte_widened _ hk]

/-- The spire after a write to the doorbell region. -/
def belled (s : State) (r : RdmaReq) : State := lqTailWrite (heard s r) (patchBytes (s.spire.lqTail.setWidth 64) r.va.toNat r.data)

theorem writeAt_bell {s : State} {r : RdmaReq} (h : AtDoorbell s r) (c : Nat) : writeAt (heard s r) c r =
    send (served (belled s r) c r r.data.length) (.rdmaAck r.port r.qpn r.psn) :=
  writeAt_doorbell c h.heard

theorem belled_byte (s : State) (r : RdmaReq) (h : r.va.toNat + r.data.length ≤ 8) (up : s.spireUp = true) (k : Nat) (hk : k < 4) :
    (belled s r).spire.lqTail.extractLsb' (8 * k) 8 =
      if r.va.toNat ≤ k then r.data.getD (k - r.va.toNat) (s.spire.lqTail.extractLsb' (8 * k) 8) else s.spire.lqTail.extractLsb' (8 * k) 8 :=
  lqTailWrite_byte (heard s r) r.va.toNat r.data h up k hk

/-- What a served request and its answer leave. -/
theorem answered_rest (s : State) (c n : Nat) (r : RdmaReq) (x : Sent) : (send (served s c r n) x).sent = s.sent ++ [x]
    ∧ (send (served s c r n) x).mem = s.mem ∧ (send (served s c r n) x).tags = s.tags ∧ (send (served s c r n) x).spire = s.spire :=
  ⟨rfl, rfl, rfl, rfl⟩

theorem qpKept_high {i : Nat} (h : 5 ≤ i) (old v : W64) : qpKept old i v = old := by
  unfold qpKept
  split
  · omega
  · omega
  · omega
  · omega
  · rfl

section
variable {s : State} {p : Nat} {prio : BitVec 3}

theorem exec_pause (hp : p < 4) (h : lossless (s.hp p 0) prio = true) (quanta : W16) :
    let till := if quanta = 0 then 0 else s.timebase + BitVec.ofNat 64 (pauseCycles s quanta)
    exec (.pfcPause p prio quanta) s =
      .next { s with host := { s.host with pausedTill := sset 0 s.host.pausedTill (8 * p + prio.toNat) till } } := by
  change execPfcPause .. = _
  unfold execPfcPause
  rw [if_neg (by simp [h, hp])]

theorem exec_pause_not (h : 4 ≤ p ∨ ¬ lossless (s.hp p 0) prio = true) (quanta : W16) : exec (.pfcPause p prio quanta) s = .next s := by
  change execPfcPause .. = _
  unfold execPfcPause
  rw [if_pos (by simpa using h)]

theorem pauseCycles_eq (s : State) (quanta : W16) :
    pauseCycles s quanta = if s.slowClock then (quanta.toNat * 512 + 399) / 400 else (quanta.toNat * 512 + 249) / 250 := by
  unfold pauseCycles ceilDiv
  split <;> rfl

variable {up : Bool}

theorem exec_link (hp : p < 4) (h : ¬ (up = true ∧ (s.die 0).bootPhase = 5)) :
    exec (.ethernetLinkChange p up) s = .next (s.setHp p 5 (BitVec.ofNat 64 (bit up 0))) := by
  change execEthernetLinkChange .. = _
  unfold execEthernetLinkChange
  rw [if_neg (by simpa only [Bool.or_eq_true, decide_eq_true_eq, Bool.and_eq_true, Nat.not_le.mpr hp, false_or] using h)]

theorem exec_link_not (h : 4 ≤ p ∨ (up = true ∧ (s.die 0).bootPhase = 5)) : exec (.ethernetLinkChange p up) s = .next s := by
  change execEthernetLinkChange .. = _
  unfold execEthernetLinkChange
  rw [if_pos (by simpa using h)]

end

/-- Settles O45: a request is dropped, held or taken by its port, then meets its turn, its region and its bytes one by one. -/
theorem hostRequestsQueuePairsAndPauses : Obligations.HostRequestsQueuePairsAndPauses := by
  unfold Obligations.HostRequestsQueuePairsAndPauses
  refine ⟨?_, ?_⟩
  · intro s r p ctl rows on c ready version prio named_ admitted before ahead i low high named base len a inside bell mtu moved nak'
    have take (h : admitted) : Admitted s r := by
      obtain ⟨⟨on, good, ready, version⟩, clear⟩ := h
      exact ⟨on, good, ready, version, clear⟩
    have sent : (heard s r).sent = before := rfl
    have refuse {x : Instr} {syn : Nat} {st : W64} {u : State} (e : exec x s = .next u) (h : Refused (heard s r) u r syn (st.setWidth 2)) : nak' x syn st := by
      obtain ⟨sent, state, syndrome, psn, mem, tags⟩ := h
      exact ⟨u, e, sent, state, syndrome, psn, mem, tags⟩
    have move {u : State} {n : Nat} (h : Advanced s u r n) : moved u n := by
      obtain ⟨psn, count, word0⟩ := h
      exact ⟨psn, count, word0⟩
    refine ⟨?_, ?_, ?_, ?_, ?_, ?_, ?_, ?_, ?_, ?_, ?_, ?_, ?_, ?_⟩
    · intro off x hx
      obtain ⟨turn, again, e⟩ := exec_rdma hx s
      exact e.trans (request_none (receive_off off) ..)
    · intro on h x hx
      obtain ⟨turn, again, e⟩ := exec_rdma hx s
      exact e.trans (request_none (receive_dropped on h) ..)
    · intro on good ready h x hx
      obtain ⟨turn, again, e⟩ := exec_rdma hx s
      exact e.trans (request_none (receive_version on good ready h) ..)
    · rintro ⟨on, good, ready, version⟩ paused x hx
      obtain ⟨turn, again, e⟩ := exec_rdma hx s
      exact ⟨_, e.trans (request_paused (receive_named on good ready version) _ _ paused)⟩
    · intro h lo hi x hx
      obtain ⟨turn, again, e⟩ := exec_rdma hx s
      exact refuse (e.trans (request_ahead (take h) _ _ lo hi)) (refused_ahead _ (take h).ready)
    · rintro h (p | p)
      · exact refuse (request_turn (take h) _ _ p) (refused_nak _ _ (by decide))
      · exact refuse (request_again (take h) _ _ p) (refused_nak _ _ (by decide))
    · intro h p inside some
      refine ⟨_, request_turn (take h) _ _ p, ?_⟩
      rw [writeAt_heard inside]
      have view := answered_rest ((heard s r).write (regionBase s (regionNo r) + r.va.toNat) r.data) (r.qpn.toNat - 0x1000) r.data.length r
      generalize hw : (heard s r).write (regionBase s (regionNo r) + r.va.toNat) r.data = w at view ⊢
      obtain ⟨sent, mem, tags, -⟩ := view (.rdmaAck r.port r.qpn r.psn)
      obtain ⟨wsent, qp⟩ := write_host (heard s r) (regionBase s (regionNo r) + r.va.toNat) r.data
      have wrote := wrote_write (heard s r) (regionBase s (regionNo r) + r.va.toNat) r.data
      have tagged := tagged_write (heard s r) (regionBase s (regionNo r) + r.va.toNat) r.data some
      rw [hw] at wsent qp wrote tagged
      exact ⟨Wrote.of_mem wrote rfl mem, Tagged.of_tags tagged rfl tags, sent.trans (congrArg (· ++ _) wsent),
        move (((advanced_served w r _).of_qp (s := s) qp).send _)⟩
    · intro h p bell
      refine ⟨_, request_turn (take h) _ _ p, ?_⟩
      rw [writeAt_bell bell]
      have view := answered_rest (belled s r) (r.qpn.toNat - 0x1000) r.data.length r (.rdmaAck r.port r.qpn r.psn)
      obtain ⟨dmem, dsent, dhost⟩ := lqTailWrite_rest (heard s r) (patchBytes (s.spire.lqTail.setWidth 64) r.va.toNat r.data)
      have tail := belled_byte s r bell.2.2.2
      change (belled s r).mem = _ at dmem
      change (belled s r).sent = _ at dsent
      change (belled s r).host = _ at dhost
      generalize belled s r = d at view dmem dsent dhost tail
      obtain ⟨sent, mem, -, spire⟩ := view
      refine ⟨mem.trans dmem, sent.trans (congrArg (· ++ _) dsent),
        move (((advanced_served d r _).of_qp (s := s) (congrArg HostBlock.qp dhost)).send _), fun up k hk => ?_⟩
      rw [← tail up k hk, ← spire]
    · intro h p outside quiet
      refine refuse (request_turn (take h) _ _ p) ?_
      rw [writeAt_refused (s := heard s r) _ outside quiet]
      exact refused_nak _ _ (by decide)
    · intro h p
      exact ⟨_, request_again (take h) _ _ p, rfl⟩
    · intro h p inside clean
      refine ⟨_, request_turn (take h) _ _ p, ?_⟩
      rw [readAt_heard inside clean, if_neg (by decide)]
      obtain ⟨sent, mem, -, -⟩ := answered_rest (heard s r) (r.qpn.toNat - 0x1000) r.len r
        (.rdmaData r.port r.qpn r.psn (s.readBytes (regionBase s (regionNo r) + r.va.toNat) r.len))
      exact ⟨sent, move (((advanced_served (heard s r) r _).of_qp (s := s) rfl).send _), mem⟩
    · intro h p inside clean
      refine ⟨_, request_again (take h) _ _ p, ?_⟩
      rw [readAt_heard inside clean, if_pos rfl]
      rfl
    · rintro h (p | p) outside
      · refine refuse (request_turn (take h) _ _ p) ?_
        rw [readAt_refused (s := heard s r) _ outside]
        exact refused_nak _ _ (by decide)
      · refine refuse (request_again (take h) _ _ p) ?_
        rw [readAt_refused (s := heard s r) _ outside]
        exact refused_nak _ _ (by decide)
    · rintro h (p | p) inside bad
      · refine refuse (request_turn (take h) _ _ p) ?_
        rw [readAt_bad (s := heard s r) _ inside bad]
        exact refused_nak _ _ (by decide)
      · refine refuse (request_again (take h) _ _ p) ?_
        rw [readAt_bad (s := heard s r) _ inside bad]
        exact refused_nak _ _ (by decide)
  · intro s port q word v p prio quanta up c i ctl honoured st cycles
    refine ⟨⟨_, rfl, ?_, ?_, ?_, ?_, ?_, ?_, ?_⟩, ?_, ?_, ?_, ?_, ?_⟩
    · intro (e : word.toNat = 0)
      obtain ⟨state, low, mtu, max, rest, dest, top⟩ := qpWord0_fields v
      obtain ⟨error, kept⟩ := errorKept (qpWord0 v) ((s.qpWord c 0).extractLsb' 0 2)
      rw [e, qpWrite_zero, qpWord_setQpWord_same]
      refine ⟨error.trans (by rw [state]), (kept _ _ ?_ ?_).trans low, (kept _ _ ?_ ?_).trans mtu, (kept _ _ ?_ ?_).trans max,
        (kept _ _ ?_ ?_).trans rest, (kept _ _ ?_ ?_).trans dest, (kept _ _ ?_ ?_).trans top⟩
      all_goals decide
    · intro (e : word.toNat ≠ 0)
      rw [qpWrite_words s _ e, if_neg (by omega)]
      exact qpReset_word0 s c
    · intro (e : word.toNat = 1)
      rw [qpWrite_words s _ (by omega), if_pos (by rw [e]), e]
      rfl
    · intro (e : word.toNat = 2)
      rw [qpWrite_words s _ (by omega), if_pos (by rw [e]), e]
      rfl
    · intro (e : word.toNat = 3 ∨ word.toNat = 4)
      rw [qpWrite_words s _ (by omega), if_pos rfl]
      obtain e | e := e <;> rw [e] <;> rfl
    · intro (e : 5 ≤ word.toNat)
      rw [qpWrite_words s _ (by omega), if_pos rfl, qpKept_high e]
    · intro d j hj away
      change ¬ (d = c ∧ (j = 0 ∨ j = word.toNat)) at away
      by_cases e : word.toNat = 0
      · rw [e, qpWrite_zero]
        exact (qpWord_setQpWord ..).trans (if_neg (by omega))
      · have := word.isLt
        rw [qpWrite_words s _ e, if_neg (by omega), qpReset_other s _ (by omega)]
    · intro hp h
      refine ⟨_, exec_pause hp ((lossless_iff ..).mpr h) quanta, (sget_sset_same ..).trans ?_⟩
      rw [pauseCycles_eq]
    · rintro (hp | h)
      · exact exec_pause_not (.inl hp) quanta
      · exact exec_pause_not (.inr (mt (lossless_iff ..).mp h)) quanta
    · refine ⟨_, rfl, rfl, fun x => ?_⟩
      simp only [List.mem_filter, Bool.not_eq_true', Bool.and_eq_false_iff, decide_eq_false_iff_not, not_and_or]
    · intro hp h
      refine ⟨_, exec_link hp h, (congrArg (BitVec.getLsbD · 0) (sget_sset_same ..)).trans ?_⟩
      cases up <;> decide
    · exact exec_link_not

end Sys2Proof.Machine
end

section
/-! PROOFS. The creation of tasks (R257 to R259), LAUNCH (R263), JOBQ (R264) and the iteration pools (R265). -/

namespace Sys2Proof.Machine

open Sys2Proof.Safety Sys2Proof.Laws

/-! Checks of SPAWN and AM (R257, R258) -/

theorem entryCheck_ok {s : State} {v : GVal} {elsewhere : Bool} (i : Instr) (tag : v.tag = .entry) (place : elsewhere = false ∨ isGlobal v = true)
    (level : entrySv v.bits = true → s.curTask.sup.priv = true) : entryCheck s v elsewhere i = .ok () := by
  have hp : (elsewhere && !isGlobal v) = false := by obtain h | h := place <;> simp [h]
  have hl : (entrySv v.bits && !s.curTask.sup.priv) = false := by
    rw [Bool.and_eq_false_iff, Bool.not_eq_false']
    exact (Bool.eq_false_or_eq_true _).symm.imp_right level
  unfold entryCheck
  dsimp only
  rw [failIf_false (decide_eq_false (by rw [tag]; decide)), failIf_false hp, failIf_false hl]
  rfl

/-- The destination of a new task is a core of this package that is there, or lies in another. -/
def Reachable (s : State) (w : W64) : Prop := (placeOf w).2 = true ∧ ((placeOf w).1.chip = s.chip → s.harvested (placeOf w).1.core = false)

theorem destCheck_eq (s : State) (w : W64) [Decidable (Reachable s w)] :
    destCheck s w = if Reachable s w then .ok () else .error (.trap .busError w) := by
  rw [← ite_not]
  change (if (!(placeOf w).2 || ((placeOf w).1.chip = s.chip && s.harvested (placeOf w).1.core)) = true then _ else _) = _
  refine if_congr ?_ rfl rfl
  unfold Reachable
  rw [Bool.or_eq_true, Bool.not_eq_true', Bool.and_eq_true, decide_eq_true_eq, not_and_or, Bool.not_eq_true, Classical.not_imp, Bool.not_eq_false]

theorem destCheck_ok {s : State} {w : W64} (h : Reachable s w) : destCheck s w = .ok () := by
  classical
  rw [destCheck_eq, if_pos h]

theorem destCheck_fails {s : State} {w : W64} (h : ¬ Reachable s w) : destCheck s w = .error (.trap .busError w) := by
  classical
  rw [destCheck_eq, if_neg h]

theorem sendqRoom_ok {s : State} (i : Instr) (h : (s.me.sendq.filter fun e => e.arrive.isNone).length < 16) : sendqRoom s i = .ok () :=
  failIf_false (decide_eq_false (by omega))

/-! What creating a task leaves -/

theorem count_jobRaise (s : State) (j : W32) : ((jobRaise s j).job j).count = (s.job j).count + 1 := by
  unfold jobRaise State.onJob State.job State.setJob
  rw [sget_sset_same]

theorem core_jobRaise (s : State) (j : W32) (k : Nat) : (jobRaise s j).core k = s.core k := rfl

/-- A creating message as it waits in the send queue of the executing core. -/
def Creating (s u : State) (e : SendEntry) : Prop :=
  (u.job s.curTask.job).count = (s.job s.curTask.job).count + 1 ∧ Retired 4 s.curTask (u.task s.curTid) ∧ (u.core s.cur).sendq = s.me.sendq ++ [e]

theorem advance_job (x : Task) (len : Nat) : (x.advance len).job = x.job := (congrArg Task.job (Task.advance_retired x len).1).trans rfl

theorem core_sendTask (u : State) (w : W64) (d : TaskDesc) : (sendTask u w d).core u.cur = { u.me with
    sendq := u.me.sendq ++ [⟨⟨u.here u.cur, (placeOf w).1, false, 0, .task d w⟩, u.curTid, 0, [], none⟩] } := by
  unfold sendTask enqueue
  rw [core_jobRaise, State.core_onCore_same]
  rfl

theorem creating_sendTask (s u : State) (w : W64) (d : TaskDesc) (tid : u.curTid = s.curTid) (cur : u.cur = s.cur) (here : u.chip = s.chip)
    (jobs : u.spire = s.spire) (task : u.curTask = s.curTask.advance 4) (queue : u.me.sendq = s.me.sendq) :
    Creating s (sendTask u w d) ⟨⟨s.here s.cur, (placeOf w).1, false, 0, .task d w⟩, s.curTid, 0, [], none⟩ := by
  have job : u.curTask.job = s.curTask.job := by rw [task, advance_job]
  refine ⟨?_, ?_, ?_⟩
  · unfold sendTask
    rw [job, count_jobRaise]
    exact congrArg (fun x => Job.count (sget Job.none x.jobs _) + 1) jobs
  · have e : (sendTask u w d).task s.curTid = u.curTask := by rw [← tid]; rfl
    rw [e, task]
    exact Task.advance_retired ..
  · rw [← cur, core_sendTask]
    unfold State.here
    rw [queue, tid, cur, here]

section
variable {s : State} {g : Guard} {a b : BitVec 5}

/-- The entry capability that a creation names, at the place that its word names. -/
def EntryOk (s : State) (en : GVal) (w : W64) : Prop := en.tag = .entry ∧ (((placeOf w).2 = true ∧ (placeOf w).1 = s.here s.cur) ∨ isGlobal en = true)
  ∧ (entrySv en.bits = true → s.curTask.sup.priv = true)

theorem EntryOk.check {en : GVal} {w : W64} (h : EntryOk s en w) (i : Instr) :
    entryCheck s en (!(placeOf w).2 || (placeOf w).1 ≠ s.here s.cur) i = .ok () := by
  obtain ⟨tag, place, level⟩ := h
  refine entryCheck_ok i tag (place.imp_left fun ⟨named, here⟩ => ?_) level
  rw [named, here]
  simp

theorem exec_spawn (hg : s.curTask.guardOk g = true) (entry : EntryOk s (s.curTask.reg b) (s.curTask.r64 a))
    (plain : entryHl (s.curTask.reg b).bits = false) (there : Reachable s (s.curTask.r64 a))
    (room : (s.me.sendq.filter fun e => e.arrive.isNone).length < 16) :
    exec (.spawn g a b) s = .next (sendTask (retire s 4) (s.curTask.r64 a) (creation s (s.curTask.reg b) [] false)) := by
  rw [show exec (.spawn g a b) s = execSpawn g a b s from rfl, execSpawn, guarded_on hg]
  simp only [entry.check, failIf_false plain, destCheck_ok there, sendqRoom_ok _ room, bind, Except.bind, pure, Except.pure]
  rfl

theorem exec_spawn_high (hg : s.curTask.guardOk g = true) (entry : EntryOk s (s.curTask.reg b) (s.curTask.r64 a))
    (high : entryHl (s.curTask.reg b).bits = true) : Traps (.spawn g a b) s .capPerm ((s.curTask.reg b).bits.extractLsb' 0 64) := by
  refine traps_of_error (show execSpawn g a b s = _ from rfl) hg ?_
  simp only [entry.check, failIf_true high, bind, Except.bind]

theorem exec_spawn_unreachable (hg : s.curTask.guardOk g = true) (entry : EntryOk s (s.curTask.reg b) (s.curTask.r64 a))
    (plain : entryHl (s.curTask.reg b).bits = false) (away : ¬ Reachable s (s.curTask.r64 a)) :
    Traps (.spawn g a b) s .busError (s.curTask.r64 a) := by
  refine traps_of_error (show execSpawn g a b s = _ from rfl) hg ?_
  simp only [entry.check, failIf_false plain, destCheck_fails away, bind, Except.bind]

theorem curTask_retire (s : State) (len : Nat) : (retire s len).curTask = s.curTask.advance len := State.curTask_onCur ..

end

/-! The registers of an AM (R258) -/

theorem localArg_eq_none {x : Task} {d : BitVec 5} {n : Nat} (h : ∀ i < n, isGlobal (x.reg (BitVec.ofNat 5 (d.toNat + i))) = true) :
    localArg x d n = none := by
  unfold localArg
  rw [List.find?_eq_none]
  intro r hr
  obtain ⟨i, hi, rfl⟩ := List.mem_map.mp hr
  rw [h i (List.mem_range.mp hi)]
  decide

theorem localArg_first {x : Task} {d : BitVec 5} {n i : Nat} (hi : i < n) (before : ∀ k < i, isGlobal (x.reg (BitVec.ofNat 5 (d.toNat + k))) = true)
    (here : isGlobal (x.reg (BitVec.ofNat 5 (d.toNat + i))) = false) : localArg x d n = some (d.toNat + i) := by
  unfold localArg
  rw [List.find?_map, List.find?_range_eq_some.mpr ⟨?_, List.mem_range.mpr hi, ?_⟩]
  · rfl
  · rw [Function.comp_apply, here]
    rfl
  · intro k hk
    rw [Function.comp_apply, before k hk]
    rfl

/-! Ranges of a pool (R265) -/

theorem takeRange_none {p : Nat} {j : W32} {rs : List IpRange} (h : ∀ r ∈ rs, ¬ (r.pool = p ∧ r.job = j)) : takeRange p j rs = (none, rs) := by
  induction rs with
  | nil => rfl
  | cons r rs ih =>
    rw [takeRange, if_neg (by simpa using h r (by simp)), ih fun q hq => h q (by simp [hq])]

theorem takeRange_first {p : Nat} {j : W32} {pre post : List IpRange} {r : IpRange} (h : ∀ q ∈ pre, ¬ (q.pool = p ∧ q.job = j)) (hp : r.pool = p)
    (hj : r.job = j) :
    takeRange p j (pre ++ r :: post) =
      (let m : W32 := r.last - BitVec.ofNat 32 (ceilDiv (r.last - r.first).toNat 2)
       (some (r.last ++ m, decide (m = r.first)), pre ++ (if m = r.first then [] else [{ r with last := m }]) ++ post)) := by
  induction pre with
  | nil =>
    rw [List.nil_append, takeRange, if_pos (by simp [hp, hj])]
    dsimp only
    split <;> rfl
  | cons q pre ih =>
    rw [List.cons_append, takeRange, if_neg (by simpa using h q (by simp)), ih fun q hq => h q (by simp [hq])]
    rfl

/-- Half of a range, rounded up. -/
theorem half_eq {f l : W32} (h : f.toNat < l.toNat) : ceilDiv (l - f).toNat 2 = (l.toNat - f.toNat + 1) / 2 := by
  rw [BitVec.toNat_sub_of_le (BitVec.le_def.mpr (Nat.le_of_lt h))]
  rfl

/-- Where no task waits for room in a pool, none wakes. -/
theorem wakePools_none {s : State} (h : ∀ q ∈ s.tasks, q.2.wait ≠ some .pool) (c : Nat) : wakePools s c = s := by
  have one (k : Nat) : wakeWhere s k (fun w => w = .pool) = s := by
    unfold wakeWhere
    rw [List.filter_eq_nil_iff.mpr fun x hx => ?_]
    · rfl
    obtain ⟨q, hq, rfl⟩ := List.mem_map.mp (List.mem_filter.mp hx).1
    rw [Bool.and_eq_true, not_and_or]
    refine .inr ?_
    have idle := h q hq
    cases e : q.2.wait with
    | none => decide
    | some w => simpa [e] using idle
  unfold wakePools
  simp only [List.foldl, one]

/-! AM (R258, R390) -/

theorem advance_asid (x : Task) (len : Nat) : (x.advance len).asid = x.asid := (congrArg Task.asid (Task.advance_retired x len).1).trans rfl

/-- What a task sends to create a task is settled by its task, its core and its chip. -/
theorem creation_eq {s u : State} (en : GVal) (args : List GVal) (am : Bool) (job : u.curTask.job = s.curTask.job) (asid : u.curTask.asid = s.curTask.asid)
    (chip : u.chip = s.chip) (cur : u.cur = s.cur) (tid : u.curTid = s.curTid) : creation u en args am = creation s en args am := by
  unfold creation State.here
  rw [job, asid, chip, cur, tid]

/-- A message within the chip goes on its way. -/
theorem route_here {s : State} {m : Msg} (h : m.dst.chip = s.chip) :
    (s.route m).net = s.net ++ [m] ∧ (s.route m).spire = s.spire ∧ (s.route m).tasks = s.tasks := by
  unfold State.route
  dsimp only
  split
  · exact ⟨rfl, rfl, rfl⟩
  · rw [State.charge_chip, if_pos h]
    exact ⟨rfl, rfl, rfl⟩

section
variable {s : State} {g : Guard} {d a b : BitVec 5} {n : BitVec 3}

/-- The values that an AM carries. -/
def amArgs (s : State) (d : BitVec 5) (n : BitVec 3) : List GVal := (List.range n.toNat).map fun i => s.curTask.reg (BitVec.ofNat 5 (d.toNat + i))

theorem localArg_of_args (h : ∀ v ∈ amArgs s d n, isGlobal v = true) : localArg s.curTask d n.toNat = none :=
  localArg_eq_none fun i hi => h _ (List.mem_map.mpr ⟨i, List.mem_range.mpr hi, rfl⟩)

theorem exec_am_local {r : Nat} (hg : s.curTask.guardOk g = true) (entry : EntryOk s (s.curTask.reg b) (s.curTask.r64 a))
    (local_ : localArg s.curTask d n.toNat = some r) : Traps (.am g d a b n) s .capPerm (BitVec.ofNat 64 r) := by
  refine traps_of_error (show execAm g d a b n s = _ from rfl) hg ?_
  simp only [entry.check, local_, bind, Except.bind, throw, throwThe, MonadExceptOf.throw]

/-- The executing core with an entry of its reply sink held. -/
def sinkHeld (s : State) (dst : Place) : State := (retire s 4).onCore s.cur fun c => { c with sink := c.sink ++ [dst] }

theorem exec_am (hg : s.curTask.guardOk g = true) (entry : EntryOk s (s.curTask.reg b) (s.curTask.r64 a))
    (args : localArg s.curTask d n.toNat = none) (there : Reachable s (s.curTask.r64 a))
    (room : (s.me.sendq.filter fun e => e.arrive.isNone).length < 16) (sink : s.me.sink.length < 64)
    (plain : ¬ (s.curTask.high = true ∧ s.curTask.replyTo = some (placeOf (s.curTask.r64 a)).1)) :
    exec (.am g d a b n) s = .next (sendTask (sinkHeld s (placeOf (s.curTask.r64 a)).1) (s.curTask.r64 a)
      (creation (sinkHeld s (placeOf (s.curTask.r64 a)).1) (s.curTask.reg b) (amArgs s d n) true)) := by
  rw [show exec (.am g d a b n) s = execAm g d a b n s from rfl, execAm, guarded_on hg]
  have no : ¬ ((s.curTask.high && decide (s.curTask.replyTo = some (placeOf (s.curTask.r64 a)).1)) = true) := by
    rwa [Bool.and_eq_true, decide_eq_true_eq]
  simp only [entry.check, args, destCheck_ok there, if_neg no, failIf_false (decide_eq_false (Nat.not_le.mpr sink)), sendqRoom_ok _ room, bind, Except.bind, pure,
    Except.pure]
  rfl

theorem core_sinkHeld (s : State) (dst : Place) : (sinkHeld s dst).core s.cur = { s.me with sink := s.me.sink ++ [dst] } := State.core_onCore_same ..

theorem sinkHeld_rest (s : State) (dst : Place) : (sinkHeld s dst).chip = s.chip ∧ (sinkHeld s dst).cur = s.cur ∧ (sinkHeld s dst).again = s.again
    ∧ (sinkHeld s dst).spire = s.spire := by
  unfold sinkHeld
  rw [State.onCore_chip, State.onCore_cur, State.onCore_spire, retire_chip, retire_cur, retire_spire]
  exact ⟨rfl, rfl, rfl, rfl⟩

theorem me_sinkHeld (s : State) (dst : Place) : (sinkHeld s dst).me = { s.me with sink := s.me.sink ++ [dst] } := by
  rw [State.me, (sinkHeld_rest s dst).2.1, core_sinkHeld]

theorem curTid_sinkHeld (s : State) (dst : Place) : (sinkHeld s dst).curTid = s.curTid := by
  unfold State.curTid
  rw [me_sinkHeld, (sinkHeld_rest s dst).2.2.1]
  rfl

theorem curTask_sinkHeld (s : State) (dst : Place) : (sinkHeld s dst).curTask = s.curTask.advance 4 := by
  rw [← curTask_retire s 4]
  exact congrArg (fun t => (retire s 4).task t) (curTid_sinkHeld s dst)

/-- The executing task after its last message, the answer to the core that created it. -/
def answering (s : State) : State :=
  jobRaise ((retire s 4).onTask s.curTid fun y => { y with replyTo := none }) s.curTask.job

theorem exec_am_reply (hg : s.curTask.guardOk g = true) (entry : EntryOk s (s.curTask.reg b) (s.curTask.r64 a))
    (args : localArg s.curTask d n.toNat = none) (there : Reachable s (s.curTask.r64 a)) (high : s.curTask.high = true)
    (reply : s.curTask.replyTo = some (placeOf (s.curTask.r64 a)).1) :
    exec (.am g d a b n) s = .next (((answering s).emit (answering s).cur true (placeOf (s.curTask.r64 a)).1
        (.task (creation (answering s) (s.curTask.reg b) (amArgs s d n) false) (s.curTask.r64 a))).onTask s.curTid fun y =>
      { y with unacked := y.unacked ++ [⟨if (placeOf (s.curTask.r64 a)).1.chip = (answering s).chip then 4 else 5⟩] }) := by
  rw [show exec (.am g d a b n) s = execAm g d a b n s from rfl, execAm, guarded_on hg]
  have yes : (s.curTask.high && decide (s.curTask.replyTo = some (placeOf (s.curTask.r64 a)).1)) = true := by rw [high, reply]; simp
  simp only [entry.check, args, destCheck_ok there, if_pos yes, bind, Except.bind, pure, Except.pure]
  rfl

/-- A message within the chip, and a change of a task behind it. -/
theorem emitted_here (u : State) (k : Nat) {dst : Place} (b : Body) (t : BitVec 48) (f : Task → Task) (near : dst.chip = u.chip) :
    ((u.emit k true dst b).onTask t f).net = u.net ++ [⟨u.here k, dst, true, 0, b⟩] ∧ ((u.emit k true dst b).onTask t f).spire = u.spire
      ∧ ((u.emit k true dst b).onTask t f).task t = f (u.task t) := by
  obtain ⟨net, spire, tasks⟩ := route_here (s := u) (m := ⟨u.here k, dst, true, 0, b⟩) near
  refine ⟨net, spire, ?_⟩
  rw [State.task_onTask_same]
  exact congrArg (fun l => f (sget Task.none l t.toNat)) tasks

/-- What stays of the state as a job is raised. -/
theorem jobRaise_rest (s : State) (j : W32) : (jobRaise s j).chip = s.chip ∧ (jobRaise s j).cur = s.cur ∧ (jobRaise s j).curTid = s.curTid
    ∧ (jobRaise s j).net = s.net := ⟨rfl, rfl, rfl, rfl⟩

/-- What stays of the state as a task answers. -/
theorem answering_rest (s : State) : (answering s).chip = s.chip ∧ (answering s).cur = s.cur ∧ (answering s).curTid = s.curTid ∧ (answering s).net = s.net := by
  unfold answering
  obtain ⟨chip, cur, tid, net⟩ := jobRaise_rest ((retire s 4).onTask s.curTid fun y => { y with replyTo := none }) s.curTask.job
  rw [chip, cur, tid, net, State.onTask_chip, State.onTask_cur, State.curTid_onTask, State.onTask_net, retire_chip, retire_cur, retire_net]
  exact ⟨rfl, rfl, State.curTid_onTask .., rfl⟩

theorem count_answering (s : State) : ((answering s).job s.curTask.job).count = (s.job s.curTask.job).count + 1 := by
  unfold answering
  exact count_jobRaise ..

theorem curTask_jobRaise (s : State) (j : W32) : (jobRaise s j).curTask = s.curTask := rfl

theorem curTask_answering (s : State) : (answering s).curTask = { s.curTask.advance 4 with replyTo := none } := by
  have e := State.curTask_onCur (retire s 4) fun y => { y with replyTo := none }
  rw [curTask_retire] at e
  exact (curTask_jobRaise ..).trans e

theorem task_answering (s : State) : (answering s).task s.curTid = { s.curTask.advance 4 with replyTo := none } := by
  obtain ⟨-, -, tid, -⟩ := answering_rest s
  rw [← curTask_answering s, State.curTask, tid]

/-- An answer within the chip: the count, the message and the task. -/
theorem answered (s : State) {dst : Place} (b : Body) (f : Task → Task) (near : dst.chip = s.chip) :
    ((((answering s).emit s.cur true dst b).onTask s.curTid f).job s.curTask.job).count = (s.job s.curTask.job).count + 1
    ∧ (((answering s).emit s.cur true dst b).onTask s.curTid f).net = s.net ++ [⟨s.here s.cur, dst, true, 0, b⟩]
    ∧ (((answering s).emit s.cur true dst b).onTask s.curTid f).task s.curTid = f { s.curTask.advance 4 with replyTo := none } := by
  obtain ⟨chip, -, -, net⟩ := answering_rest s
  have before := task_answering s
  have count := count_answering s
  have here : (answering s).here s.cur = s.here s.cur := congrArg (Place.mk · s.cur) chip
  generalize answering s = u at *
  obtain ⟨sent, spire, after⟩ := emitted_here u s.cur b s.curTid f (near.trans chip.symm)
  refine ⟨?_, ?_, ?_⟩
  · rw [← count]
    exact congrArg (fun x => Job.count (sget Job.none x.jobs _)) spire
  · rw [sent, net, here]
  · rw [after, before]

theorem advance_unacked (x : Task) (len : Nat) : (x.advance len).unacked = x.unacked := (congrArg Task.unacked (Task.advance_retired x len).1).trans rfl

end

/-! LAUNCH, JOBQ and the pools (R263 to R265) -/

theorem Scheduled.spire {s u : State} (h : Scheduled s u) : u.spire = s.spire := by rw [h.rest]

theorem spire_blockTask (s : State) (t : BitVec 48) (w : Wait) : (blockTask s t w).spire = s.spire :=
  (Scheduled.leaveSlot (.refl _)).spire

/-- The spire with a launch request that waits for its answer. -/
def asked (s : State) (r : LaunchReq) : State := { s with spire := { s.spire with requests := s.spire.requests ++ [r] } }

section
variable {s s1 : State} {g : Guard} {d a b : BitVec 5} {pa : Nat}

theorem exec_launch (hg : s.curTask.guardOk g = true) (ha : s.curTask.answer = none)
    (hr : resolve s (s.curTask.reg a) permLd (cursor (s.curTask.reg a).bits) 64 64 .load false = .ok (s1, .mem pa)) (hc : Clean s1 pa 64) :
    ∃ t0 t1, exec (.launch g d a) s = .next (blockTask (asked (s1.chargeCur pa 64) ⟨s1.curTid, s1.readBytes pa 64, t0, t1, s1.curTask.sup.priv⟩)
      s.curTid .spire) := by
  refine ⟨if capPerm (s.curTask.reg a).bits &&& permLdcap = 0 then Tag.data else s1.tagAt (pa + 0),
    if capPerm (s.curTask.reg a).bits &&& permLdcap = 0 then Tag.data else s1.tagAt (pa + 16), ?_⟩
  rw [show exec (.launch g d a) s = execLaunch g d a s from rfl, execLaunch, guarded_on hg]
  simp only [ha, hr, memTarget, bind, Except.bind, loadable_ok hc, throw, throwThe, MonadExceptOf.throw]
  rfl

theorem exec_launch_answer {v : W64} (hg : s.curTask.guardOk g = true) (ha : s.curTask.answer = some v) (hv : (v.extractLsb' 62 2).toNat ≠ 1) :
    exec (.launch g d a) s = .next (s.onCur fun x => ({ x with answer := none }.setR64 d v).advance 4) := by
  have plain : ¬ v.extractLsb' 62 2 = 1 := fun e => hv (by rw [e]; rfl)
  rw [show exec (.launch g d a) s = execLaunch g d a s from rfl, execLaunch, guarded_on hg]
  simp only [ha, launchAnswer, if_neg plain]
  rfl

theorem exec_ipGive (hg : s.curTask.guardOk g = true) (empty : ((s.curTask.r64 b).extractLsb' 32 32).toNat ≤ ((s.curTask.r64 b).extractLsb' 0 32).toNat) :
    exec (.ipGive g a b) s = .next (s.onCur fun x => x.advance 4) := by
  rw [show exec (.ipGive g a b) s = execIpGive g a b s from rfl, execIpGive, guarded_on hg]
  dsimp only
  rw [if_pos empty]
  rfl

theorem exec_ipGive_room (hg : s.curTask.guardOk g = true)
    (range : ((s.curTask.r64 b).extractLsb' 0 32).toNat < ((s.curTask.r64 b).extractLsb' 32 32).toNat)
    (room : ((s.cluster (clusterOf s.cur)).pools.filter fun r => r.pool = (s.curTask.r64 a).toNat % 16).length < 8) :
    exec (.ipGive g a b) s = .next (retire (s.onCluster (clusterOf s.cur) fun y => { y with pools := y.pools ++
      [⟨(s.curTask.r64 a).toNat % 16, s.curTask.job, (s.curTask.r64 b).extractLsb' 0 32, (s.curTask.r64 b).extractLsb' 32 32⟩] }) 4) := by
  rw [show exec (.ipGive g a b) s = execIpGive g a b s from rfl, execIpGive, guarded_on hg]
  dsimp only
  rw [if_neg (Nat.not_le.mpr range), if_neg (Nat.not_le.mpr room)]
  rfl

theorem exec_ipGive_full (hg : s.curTask.guardOk g = true)
    (range : ((s.curTask.r64 b).extractLsb' 0 32).toNat < ((s.curTask.r64 b).extractLsb' 32 32).toNat)
    (full : 8 ≤ ((s.cluster (clusterOf s.cur)).pools.filter fun r => r.pool = (s.curTask.r64 a).toNat % 16).length) :
    exec (.ipGive g a b) s = .next (block s .pool) := by
  rw [show exec (.ipGive g a b) s = execIpGive g a b s from rfl, execIpGive, guarded_on hg]
  dsimp only
  rw [if_neg (Nat.not_le.mpr range), if_pos full]
  rfl

theorem given_pools (s : State) {c : Nat} (f : Cluster → Cluster) (len : Nat) :
    ((retire (s.onCluster c f) len).cluster c).pools = (f (s.cluster c)).pools := by
  rw [← State.cluster_onCluster_same s c f]
  rfl

/-- The task as its instruction retires beside a change of a cluster. -/
theorem given_task (s : State) {c : Nat} (f : Cluster → Cluster) : Retired 4 s.curTask ((retire (s.onCluster c f) 4).task s.curTid) := by
  have e : (retire (s.onCluster c f) 4).task s.curTid = s.curTask.advance 4 := curTask_retire (s.onCluster c f) 4
  rw [e]
  exact Task.advance_retired ..

theorem exec_ipTake_none (hg : s.curTask.guardOk g = true) {ps : List IpRange}
    (h : takeRange ((s.curTask.r64 a).toNat % 16) s.curTask.job (s.cluster (clusterOf s.cur)).pools = (none, ps)) :
    exec (.ipTake g d a) s = .next (s.onCur fun x => (x.setR64 d 0).advance 4) := by
  rw [show exec (.ipTake g d a) s = execIpTake g d a s from rfl, execIpTake, guarded_on hg]
  dsimp only
  rw [h]
  rfl

/-- The cluster and the task after a range is taken. -/
def took (s : State) (d : BitVec 5) (w : W64) (ps : List IpRange) : State :=
  (s.onCur fun x => (x.setR64 d w).advance 4).onCluster (clusterOf s.cur) fun y => { y with pools := ps }

theorem mem_sdel {α : Type} {m : List (Nat × α)} {n : Nat} {e : Nat × α} (h : e ∈ sdel m n) : e ∈ m := by
  induction m with
  | nil => exact h
  | cons q m ih =>
    rw [sdel] at h
    split at h
    · exact .tail _ (ih h)
    · exact (List.mem_cons.mp h).elim (fun e => e ▸ .head _) fun h => .tail _ (ih h)

theorem mem_sins {α : Type} {m : List (Nat × α)} {n : Nat} {v : α} {e : Nat × α} (h : e ∈ sins m n v) : e = (n, v) ∨ e ∈ m := by
  induction m with
  | nil => exact .inl (List.mem_singleton.mp h)
  | cons q m ih =>
    rw [sins] at h
    split at h
    · exact List.mem_cons.mp h
    · obtain e | h := List.mem_cons.mp h
      · exact .inr (e ▸ .head _)
      · exact (ih h).imp_right (.tail _)

theorem mem_sset {α : Type} [DecidableEq α] {d : α} {m : List (Nat × α)} {n : Nat} {v : α} {e : Nat × α} (h : e ∈ sset d m n v) :
    e = (n, v) ∨ e ∈ m := by
  unfold sset at h
  split at h
  · exact .inr (mem_sdel h)
  · exact (mem_sins h).imp_right mem_sdel

theorem sget_mem {α : Type} (d : α) (m : List (Nat × α)) (n : Nat) : sget d m n = d ∨ ∃ k, (k, sget d m n) ∈ m := by
  induction m with
  | nil => exact .inl rfl
  | cons q m ih =>
    rw [sget]
    split
    · exact .inr ⟨q.1, .head _⟩
    · exact ih.imp_right fun ⟨k, h⟩ => ⟨k, .tail _ h⟩

/-- A property of the tasks of the chip that every task has, kept by a change that keeps it. -/
theorem tasks_onTask {P : Task → Prop} {s : State} {t : BitVec 48} {f : Task → Task} (h : ∀ q ∈ s.tasks, P q.2) (hn : P Task.none)
    (hf : ∀ x, P x → P (f x)) : ∀ q ∈ (s.onTask t f).tasks, P q.2 := by
  intro q hq
  obtain rfl | hq := mem_sset hq
  · obtain e | ⟨k, hk⟩ := sget_mem Task.none s.tasks t.toNat
    · exact hf _ (by rw [State.task, e]; exact hn)
    · exact hf _ (h _ hk)
  · exact h q hq

theorem exec_ipTake (hg : s.curTask.guardOk g = true) {w : W64} {freed : Bool} {ps : List IpRange} (idle : ∀ q ∈ s.tasks, q.2.wait ≠ some .pool)
    (h : takeRange ((s.curTask.r64 a).toNat % 16) s.curTask.job (s.cluster (clusterOf s.cur)).pools = (some (w, freed), ps)) :
    ∃ u, exec (.ipTake g d a) s = .next u ∧ (u.cluster (clusterOf s.cur)).pools = ps
      ∧ Retired 4 (s.curTask.setReg d ⟨w.setWidth 128, .data⟩) (u.task s.curTid) := by
  have idle' : ∀ q ∈ (took s d w ps).tasks, q.2.wait ≠ some .pool := by
    have wait (x : Task) : ((x.setR64 d w).advance 4).wait = x.wait := by
      rw [(Task.advance_retired (x.setR64 d w) 4).1, Task.setR64, Task.setReg_rest]
    exact tasks_onTask (P := fun x => x.wait ≠ some .pool) idle (by decide) fun x hx => by rwa [wait]
  refine ⟨took s d w ps, ?_, congrArg Cluster.pools (State.cluster_onCluster_same ..), ?_⟩
  · rw [show exec (.ipTake g d a) s = execIpTake g d a s from rfl, execIpTake, guarded_on hg]
    dsimp only
    rw [h]
    change Host.Outcome.next (if freed = true then wakePools (took s d w ps) _ else took s d w ps) = _
    rw [wakePools_none idle', ite_self]
  · have e : (took s d w ps).task s.curTid = (s.curTask.setR64 d w).advance 4 :=
      State.curTask_onCur s fun x => (x.setR64 d w).advance 4
    rw [e]
    exact Task.advance_retired ..

theorem takeRange_of_eq {p : Nat} {j : W32} {pools pre post : List IpRange} {r : IpRange} (e : pools = pre ++ r :: post)
    (h : ∀ q ∈ pre, ¬ (q.pool = p ∧ q.job = j)) (hp : r.pool = p) (hj : r.job = j) (range : r.first.toNat < r.last.toNat) :
    takeRange p j pools = (let m : W32 := r.last - BitVec.ofNat 32 ((r.last.toNat - r.first.toNat + 1) / 2)
      (some (r.last ++ m, decide (m = r.first)), pre ++ (if m = r.first then [] else [{ r with last := m }]) ++ post)) := by
  rw [e, takeRange_first h hp hj, half_eq range]

end

/-- Settles O37: the checks of SPAWN and AM one by one, then the count and the message; LAUNCH by its access, the pools by their oldest range. -/
theorem taskCreationAndPools : Obligations.TaskCreationAndPools := by
  unfold Obligations.TaskCreationAndPools
  intro s s1 g d a b n pa hg x w en dst desc msg named sealed_ there room args counted c pools p lo hi
  refine ⟨?_, ?_, ?_, ?_, ?_, ?_, ?_, ?_, ?_, ?_, ?_, ?_, ?_, ?_⟩
  · intro entry plain th ro
    exact ⟨_, exec_spawn hg entry plain th ro, creating_sendTask s (retire s 4) _ _ rfl rfl rfl rfl (curTask_retire s 4) rfl⟩
  · exact fun entry high => exec_spawn_high hg entry high
  · exact fun i hi entry before here => exec_am_local hg entry (localArg_first hi before here)
  · exact fun entry plain away => exec_spawn_unreachable hg entry plain away
  · intro entry global th ro sink plain
    have tid := curTid_sinkHeld s dst
    have task := curTask_sinkHeld s dst
    have sunk := me_sinkHeld s dst
    obtain ⟨chip, cur, -, spire⟩ := sinkHeld_rest s dst
    have created := creating_sendTask s (sinkHeld s dst) w (creation s en (amArgs s d n) true) tid cur chip spire task (by rw [sunk])
    have sent := core_sendTask (sinkHeld s dst) w (creation s en (amArgs s d n) true)
    refine ⟨_, exec_am hg entry (localArg_of_args global) th ro sink plain, ?_⟩
    rw [creation_eq (s := s) (u := sinkHeld s dst) en (amArgs s d n) true (by rw [task, advance_job]) (by rw [task, advance_asid]) chip cur tid]
    rw [sunk, cur] at sent
    obtain ⟨count, retired, queue⟩ := created
    exact ⟨count, retired, congrArg Core.sink sent, queue⟩
  · intro entry global th high reply near
    have task := curTask_answering s
    obtain ⟨chip, cur, tid, -⟩ := answering_rest s
    refine ⟨_, exec_am_reply hg entry (localArg_of_args global) th high reply, ?_⟩
    rw [creation_eq (s := s) (u := answering s) en (amArgs s d n) false (by rw [task, advance_job]) (by rw [task, advance_asid]) chip cur tid, chip, cur, if_pos near]
    obtain ⟨count, net, after⟩ := answered s (.task (creation s en (amArgs s d n) false) w) (fun y => { y with unacked := y.unacked ++ [⟨4⟩] }) near
    exact ⟨count, net, congrArg Task.replyTo after, (congrArg Task.unacked after).trans (congrArg (· ++ _) (advance_unacked ..))⟩
  · intro none_ _ v hr clean
    have placed := resolve_view hr
    obtain ⟨t0, t1, e⟩ := exec_launch (g := g) (d := d) hg none_ hr (placed.view.clean.mpr clean)
    have counted_ := placed.counted
    have pcc : s1.curTask.pcc = x.pcc := by rw [counted_]
    have sup : s1.curTask.sup = x.sup := by rw [counted_]
    have spire : s1.spire = s.spire := by rw [placed.1.1.1]
    refine ⟨_, e, ?_, ?_, t0, t1, ?_⟩
    · rw [task_blockTask]
    · rw [task_blockTask, ← pcc, State.curTask, placed.view.tid]
      rfl
    · rw [spire_blockTask, placed.view.tid, placed.view.readBytes, sup]
      exact congrArg (·.requests ++ _) spire
  · intro v hv plain
    refine completes_of_advance (exec_launch_answer hg hv plain) ?_
    rw [Task.setR64, data64]
  · refine completes_of_advance (by rw [show exec (.jobq g d a) s = execJobq g d a s from rfl, execJobq, guarded_on hg]; rfl) ?_
    rw [Task.setR64, data64, BitVec.setWidth_ofNat_of_le_of_lt (by decide) (by omega)]
  · exact fun empty => completes_of_advance (exec_ipGive hg empty) rfl
  · intro some_ room
    exact ⟨_, exec_ipGive_room hg some_ room, given_pools s _ 4, given_task s _⟩
  · intro some_ full
    exact exec_ipGive_full hg some_ full
  · intro other
    refine completes_of_advance (exec_ipTake_none hg (takeRange_none other)) rfl
  · intro pre r post e before pool job idle some_ m
    obtain ⟨u, taken, pools_, task⟩ := exec_ipTake (d := d) hg idle (takeRange_of_eq e before pool job some_)
    exact ⟨u, taken, task, pools_⟩

end Sys2Proof.Machine
end

section
/-! PROOFS. Bindings (R260 to R262): counter triggers, endpoint triggers, counter links. -/

namespace Sys2Proof.Machine

open Sys2Proof.Safety Sys2Proof.Laws

/-! Slots of a core -/

@[simp] theorem counter_onCounter_same (s : State) (k n : Nat) (f : Counter → Counter) :
    ((s.onCounter k n f).core k).counter n = f ((s.core k).counter n) := by
  unfold State.onCounter
  rw [State.core_onCore_same]
  exact sget_sset_same ..

@[simp] theorem ep_onEp_same (s : State) (k n : Nat) (f : Endp → Endp) : (s.onEp k n f).ep k n = f (s.ep k n) := by
  unfold State.onEp State.ep
  rw [State.core_onCore_same]
  exact sget_sset_same ..

theorem counter_onEp (s : State) (k n q : Nat) (f : Endp → Endp) : ((s.onEp k n f).core k).counter q = (s.core k).counter q := by
  unfold State.onEp
  rw [State.core_onCore_same]
  rfl

theorem ep_onCounter (s : State) (k n q : Nat) (f : Counter → Counter) : (s.onCounter k q f).ep k n = s.ep k n := by
  unfold State.onCounter State.ep
  rw [State.core_onCore_same]
  rfl

/-! A trigger at its test (R260) -/

/-- The count has reached the number of a trigger. -/
theorem reached_iff (count : W32) (f : Nat) :
    (count.toNat + 2 ^ 32 - f % 2 ^ 32) % 2 ^ 32 < 2 ^ 31 ↔ (count - BitVec.ofNat 32 f).toNat < 2 ^ 31 := by
  rw [BitVec.toNat_sub, BitVec.toNat_ofNat]
  omega

/-- What a trigger that fires leaves: one message, and one task more in its job. -/
structure Fired (s u : State) (m : Msg) (j : W32) : Prop where
  net : u.net = s.net ++ [m]
  count : (u.job j).count = (s.job j).count + 1
  tasks : u.tasks = s.tasks
  cores : u.cores = s.cores

theorem core_fired (s : State) (j : W32) (m : Msg) (k : Nat) : ((jobRaise s j).post m).core k = s.core k := rfl

theorem fired_post (s : State) (j : W32) (m : Msg) : Fired s ((jobRaise s j).post m) m j := ⟨rfl, count_jobRaise s j, rfl, rfl⟩

section
variable {s : State} {k n : Nat} {g : Trigger}

theorem testCounterTrigger_none (h : ((s.core k).counter n).trig = none) : testCounterTrigger s k n = s := by
  unfold testCounterTrigger
  dsimp only
  rw [h]

theorem testCounterTrigger_waits (h : ((s.core k).counter n).trig = some g)
    (waits : (((s.core k).counter n).count - BitVec.ofNat 32 g.f).toNat ≥ 2 ^ 31) : testCounterTrigger s k n = s := by
  unfold testCounterTrigger
  dsimp only
  rw [h]
  dsimp only
  rw [if_neg]
  rw [Bool.and_eq_true, decide_eq_true_eq, reached_iff]
  omega

theorem testCounterTrigger_fires (h : ((s.core k).counter n).trig = some g) (armed : g.armed = true)
    (reached : (((s.core k).counter n).count - BitVec.ofNat 32 g.f).toNat < 2 ^ 31) :
    testCounterTrigger s k n = (jobRaise (s.onCounter k n fun c => { c with trig := some { g with armed := false } }) g.job).post
      (triggerDesc (s.onCounter k n fun c => { c with trig := some { g with armed := false } }) k g
        [data64 (g.sel.bits.extractLsb' 0 64 &&& 0xF), data64 (((s.core k).counter n).count.setWidth 64)] (64 + n + 128 * g.id)) := by
  unfold testCounterTrigger
  dsimp only
  rw [h]
  dsimp only
  rw [if_pos (by rw [Bool.and_eq_true, decide_eq_true_eq, reached_iff]; exact ⟨armed, reached⟩)]

theorem testEpTrigger_none (h : (s.ep k n).trig = none) : testEpTrigger s k n = s := by
  unfold testEpTrigger
  dsimp only
  rw [h]

theorem testEpTrigger_waits (h : (s.ep k n).trig = some g) (waits : (s.ep k n).buffered < g.f) : testEpTrigger s k n = s := by
  unfold testEpTrigger
  dsimp only
  rw [h]
  dsimp only
  rw [if_neg]
  rw [Bool.and_eq_true, decide_eq_true_eq]
  omega

theorem testEpTrigger_fires (h : (s.ep k n).trig = some g) (armed : g.armed = true) (live : (s.ep k n).status.live = true)
    (reached : g.f ≤ (s.ep k n).buffered) :
    testEpTrigger s k n = (jobRaise (s.onEp k n fun e => { e with trig := some { g with armed := false } }) g.job).post
      (triggerDesc (s.onEp k n fun e => { e with trig := some { g with armed := false } }) k g
        [g.sel, data64 (BitVec.ofNat 64 (s.ep k n).buffered)] (n + 128 * g.id)) := by
  unfold testEpTrigger
  dsimp only
  rw [h]
  dsimp only
  rw [if_pos (by rw [Bool.and_eq_true, Bool.and_eq_true, decide_eq_true_eq]; exact ⟨⟨armed, live⟩, reached⟩)]

end

/-! BIND of a counter trigger and of an endpoint trigger (R260) -/

/-- The task past its BIND, its core's next binding number used. -/
def binding (s : State) : State := (retire s 4).bumpOp

theorem core_binding (s : State) : (binding s).core s.cur = { s.me with nextOp := s.me.nextOp + 1 } := State.core_onCore_same ..

theorem task_binding (s : State) : (binding s).task s.curTid = s.curTask.advance 4 := curTask_retire s 4

/-- The counter slot with its trigger. -/
def counterBound (s : State) (k : Nat) (g : Trigger) : State :=
  (binding s).onCounter s.cur k fun c => { c with fire := BitVec.ofNat 16 g.f, trig := some g }

/-- The endpoint slot with its trigger. -/
def endpointBound (s : State) (n : Nat) (g : Trigger) : State := (binding s).onEp s.cur n fun e => { e with trig := some g }

theorem counter_counterBound (s : State) (k : Nat) (g : Trigger) :
    ((counterBound s k g).core s.cur).counter k = { s.me.counter k with fire := BitVec.ofNat 16 g.f, trig := some g } := by
  rw [counterBound, counter_onCounter_same, core_binding]
  rfl

theorem ep_endpointBound (s : State) (n : Nat) (g : Trigger) : (endpointBound s n g).ep s.cur n = { s.ep s.cur n with trig := some g } := by
  rw [endpointBound, ep_onEp_same, State.ep, core_binding]
  rfl

/-- What a binding leaves beside its slot. -/
theorem binding_rest (s : State) : (binding s).chip = s.chip ∧ (binding s).net = s.net ∧ (binding s).spire = s.spire := by
  unfold binding State.bumpOp
  rw [State.onCore_chip, State.onCore_net, State.onCore_spire, retire_chip, retire_net, retire_spire]
  exact ⟨rfl, rfl, rfl⟩

section
variable {s : State} {g : Guard} {d a b : BitVec 5} {k n : Nat}

/-- The selector of a counter slot of the executing task. -/
def SelectsSlot (s : State) (sel : GVal) (k : Nat) : Prop := sel.tag = .data ∧ ((sel.bits.extractLsb' 0 64).extractLsb' 0 4).toNat < s.curTask.barriers
  ∧ physSlot s.me s.curTask.job ((sel.bits.extractLsb' 0 64).extractLsb' 0 4).toNat = some k

theorem slotNumber_eq (w : W64) : (w.setWidth 4 : BitVec 4) = w.extractLsb' 0 4 := by
  refine BitVec.eq_of_toNat_eq ?_
  simp

theorem barrierSlot_ok {sel : GVal} (h : SelectsSlot s sel k) : barrierSlot s ((sel.bits.extractLsb' 0 64).setWidth 4) = .ok k := by
  obtain ⟨-, few, slot⟩ := h
  unfold barrierSlot
  rw [slotNumber_eq, if_neg (Nat.not_le.mpr few), slot]

/-- An entry capability that a binding of the executing task may name. -/
def MayEnter (s : State) (en : GVal) : Prop := en.tag = .entry ∧ (entrySv en.bits = true → s.curTask.sup.priv = true)

theorem MayEnter.check {en : GVal} (h : MayEnter s en) (i : Instr) : entryCheck s en false i = .ok () := entryCheck_ok i h.1 (.inl rfl) h.2

/-- The number at which a counter trigger fires. -/
def fireCount (w : W64) : Nat := if w.toNat % 2 ^ 16 = 0 then 1 else w.toNat % 2 ^ 16

theorem fireCount_eq (w : W64) : (if (w.setWidth 16).toNat = 0 then 1 else (w.setWidth 16).toNat) = fireCount w := by
  rw [BitVec.toNat_setWidth]
  rfl

theorem exec_bind_counter (hg : s.curTask.guardOk g = true) (slot : SelectsSlot s (s.curTask.reg a) k)
    (trigger : ((s.curTask.reg a).bits.extractLsb' 0 64).getLsbD 10 = false) (entry : MayEnter s (s.curTask.reg b)) :
    exec (.bind g d a b) s = .next (testCounterTrigger (counterBound s k
      (newTrigger s (s.curTask.reg b) (s.curTask.reg a) (fireCount (s.curTask.r64 d)))) s.cur k) := by
  rw [show exec (.bind g d a b) s = execBind g d a b s from rfl, execBind, guarded_on hg, ← fireCount_eq]
  simp only [slot.1, barrierSlot_ok slot, trigger, entry.check, bind, Except.bind, pure, Except.pure, Bool.false_eq_true, if_false]
  rfl

theorem exec_bind_counter_tag (hg : s.curTask.guardOk g = true) (slot : SelectsSlot s (s.curTask.reg a) k)
    (trigger : ((s.curTask.reg a).bits.extractLsb' 0 64).getLsbD 10 = false) (entry : (s.curTask.reg b).tag ≠ .entry) :
    Traps (.bind g d a b) s .capTag ((s.curTask.reg b).bits.extractLsb' 0 64) := by
  have fails : entryCheck s (s.curTask.reg b) false (.bind g d a b) = .error (.trap .capTag ((s.curTask.reg b).bits.extractLsb' 0 64)) := by
    unfold entryCheck
    dsimp only
    rw [failIf_true (decide_eq_true entry)]
    rfl
  refine traps_of_error (show execBind g d a b s = _ from rfl) hg ?_
  simp only [slot.1, barrierSlot_ok slot, trigger, fails, bind, Except.bind, Bool.false_eq_true, if_false]

/-- The capability of an endpoint slot that the executing task holds, CONNECTED. -/
structure Holds (s : State) (sel : GVal) (n : Nat) : Prop where
  tag : sel.tag = .endp
  valid : endpValid sel.bits = true
  loc : endpLoc sel.bits = s.epLoc s.cur n
  owner : (s.ep s.cur n).owner = some s.curTid
  connected : (s.ep s.cur n).status = .connected

theorem Holds.step2 {sel : GVal} (h : Holds s sel n) : epStep2 s sel = .ok n := by
  obtain ⟨tag, valid, loc, owner, connected⟩ := h
  unfold epStep2
  dsimp only
  rw [failIf_false (by rw [tag, valid]; rfl), loc, failIf_false (decide_eq_false fun h => h rfl),
    failIf_false (by
      have mine : decide ((s.ep s.cur (s.epLoc s.cur n).ep).owner ≠ some s.curTid) = false := decide_eq_false fun h => h owner
      rw [mine, Bool.and_false, Bool.false_and])]
  rfl

theorem Holds.step3 {sel : GVal} (h : Holds s sel n) : epStep3 s sel = .ok n := by
  have live : epLive s sel = true := by
    obtain ⟨-, -, loc, -, connected⟩ := h
    unfold epLive
    dsimp only
    rw [loc]
    change (decide ((s.ep s.cur n).status ≠ .free) && decide ((s.ep s.cur n).gen = (s.ep s.cur n).gen)) = true
    rw [connected, decide_eq_true rfl]
    rfl
  unfold epStep3
  rw [h.step2, live]
  rfl

theorem Holds.bindable {sel : GVal} (h : Holds s sel n) (e : Stop) : failIf ((s.ep s.cur n).status ≠ .connected) e = .ok () :=
  failIf_false (decide_eq_false fun no => no h.connected)

theorem exec_bind_endpoint (hg : s.curTask.guardOk g = true) (slot : Holds s (s.curTask.reg a) n) (entry : MayEnter s (s.curTask.reg b)) :
    exec (.bind g d a b) s = .next (testEpTrigger (endpointBound s n (newTrigger s (s.curTask.reg b) (s.curTask.reg a)
      (max 1 (min ((s.curTask.r64 d).toNat % 2 ^ 16) (s.ep s.cur n).image.la)))) s.cur n) := by
  have low : ((s.curTask.r64 d).setWidth 16).toNat = (s.curTask.r64 d).toNat % 2 ^ 16 := BitVec.toNat_setWidth ..
  rw [show exec (.bind g d a b) s = execBind g d a b s from rfl, execBind, guarded_on hg, ← low]
  simp only [slot.tag, slot.step3, slot.bindable, entry.check, bind, Except.bind, pure, Except.pure]
  rfl

end

/-! Counter links (R261) -/

/-- Where no task waits so, none wakes. -/
theorem wakeWhere_none {s : State} {p : Wait → Bool} (h : ∀ q ∈ s.tasks, ∀ w, q.2.wait = some w → p w = false) (k : Nat) : wakeWhere s k p = s := by
  unfold wakeWhere
  rw [List.filter_eq_nil_iff.mpr fun x hx => ?_]
  · rfl
  obtain ⟨q, hq, rfl⟩ := List.mem_map.mp (List.mem_filter.mp hx).1
  rw [Bool.and_eq_true, not_and_or]
  refine .inr ?_
  cases e : q.2.wait with
  | none => exact Bool.false_ne_true
  | some w => simp [h q hq w e]

section
variable {s : State} {k n : Nat}

theorem Endp.head_nil {e : Endp} (h : e.buf = []) : e.head = none := by
  unfold Endp.head
  rw [h, ite_self]

theorem linkStep_none (h : (s.ep k n).head = none) : linkStep s k n = none := by
  unfold linkStep
  dsimp only
  rw [h]
  split
  · next h2 => cases h2
  · rfl

theorem linkAll_none (h : (s.ep k n).head = none) (fuel : Nat) : linkAll fuel s k n = s := by
  cases fuel with
  | zero => rfl
  | succ fuel => rw [linkAll, linkStep_none h]

theorem balance_connected (h : (s.ep k n).status = .connected) : balance s k n = s := by
  have none_ : balanceOf (s.ep k n) = none := by
    unfold balanceOf
    rw [h]
  unfold balance
  dsimp only
  rw [none_]

theorem headClose_none (h : (s.ep k n).head = none) : headClose s k n = s := by
  unfold headClose
  dsimp only
  rw [h]

/-- A slot with nothing buffered, as its tests after a change leave it: only its waiters wake. -/
theorem pump_empty (buf : (s.ep k n).buf = []) (connected : (s.ep k n).status = .connected) (trig : (s.ep k n).trig = none) :
    pump s k n = wakeEp s k n := by
  have head := Endp.head_nil buf
  unfold pump
  dsimp only
  rw [linkAll_none head, balance_connected connected, headClose_none head, testEpTrigger_none trig]

end

theorem advance_wait (x : Task) (len : Nat) : (x.advance len).wait = x.wait := (congrArg Task.wait (Task.advance_retired x len).1).trans rfl

/-- The endpoint slot with its counter link. -/
def linked (s : State) (n k : Nat) : State := (retire s 4).onEp s.cur n fun e => { e with link := some k }

theorem ep_linked (s : State) (n k : Nat) : (linked s n k).ep s.cur n = { s.ep s.cur n with link := some k } := ep_onEp_same ..

section
variable {s : State} {g : Guard} {d a b : BitVec 5} {k n : Nat}

theorem exec_bind_link (hg : s.curTask.guardOk g = true) (slot : SelectsSlot s (s.curTask.reg a) k)
    (link : ((s.curTask.reg a).bits.extractLsb' 0 64).getLsbD 10 = true)
    (hn : (((s.curTask.reg a).bits.extractLsb' 0 64).extractLsb' 4 6).toNat = n)
    (connected : (s.ep s.cur n).status = .connected) (owner : (s.ep s.cur n).owner = some s.curTid) :
    exec (.bind g d a b) s = .next (pump (linked s n k) s.cur n) := by
  have held (e : Stop) : failIf ((s.ep s.cur n).status = .free || (s.ep s.cur n).owner ≠ some s.curTid) e = .ok () :=
    failIf_false (by rw [connected, owner]; simp)
  have live (e : Stop) : failIf ((s.ep s.cur n).status ≠ .connected) e = .ok () := failIf_false (decide_eq_false fun no => no connected)
  rw [show exec (.bind g d a b) s = execBind g d a b s from rfl, execBind, guarded_on hg]
  simp only [slot.1, barrierSlot_ok slot, link, hn, held, live, bind, Except.bind, pure, Except.pure, if_true]
  rfl

theorem pump_linked (connected : (s.ep s.cur n).status = .connected) (buf : (s.ep s.cur n).buf = []) (trig : (s.ep s.cur n).trig = none)
    (idle : ∀ p ∈ s.tasks, p.2.wait ≠ some (.chan n)) : pump (linked s n k) s.cur n = linked s n k := by
  have idle' : ∀ p ∈ (linked s n k).tasks, p.2.wait ≠ some (.chan n) := by
    unfold linked State.onEp retire retireOf
    rw [State.onCore_tasks]
    exact tasks_onTask (P := fun x => x.wait ≠ some (.chan n)) idle (by intro e; cases e) fun x hx => by rwa [advance_wait]
  have ep := ep_linked s n k
  generalize linked s n k = u at *
  rw [pump_empty (by rw [ep]; exact buf) (by rw [ep]; exact connected) (by rw [ep]; exact trig)]
  refine wakeWhere_none (fun q hq w hw => ?_) _
  have other : w ≠ .chan n := fun e => idle' q hq (e ▸ hw)
  simpa using other

/-! UNBIND (R262) -/

theorem exec_unbind (hg : s.curTask.guardOk g = true) : exec (.unbind g a) s = .next (retire (unbindAt s (s.curTask.reg a)) 4) := by
  rw [show exec (.unbind g a) s = execUnbind g a s from rfl, execUnbind, guarded_on hg]
  rfl

theorem unbindAt_counter {sel : GVal} (slot : SelectsSlot s sel k) (trigger : (sel.bits.extractLsb' 0 64).getLsbD 10 = false) :
    unbindAt s sel = s.onCounter s.cur k fun c => { c with trig := none, fire := 0 } := by
  obtain ⟨tag, few, slot⟩ := slot
  unfold unbindAt
  dsimp only
  rw [tag, slotNumber_eq]
  dsimp only
  rw [if_neg (Nat.not_le.mpr few), slot]
  dsimp only
  rw [if_neg (by rw [trigger]; decide)]

theorem unbindAt_link {sel : GVal} (slot : SelectsSlot s sel k) (link : (sel.bits.extractLsb' 0 64).getLsbD 10 = true)
    (hn : ((sel.bits.extractLsb' 0 64).extractLsb' 4 6).toNat = n) (owner : (s.ep s.cur n).owner = some s.curTid)
    (linked : (s.ep s.cur n).link = some k) : unbindAt s sel = s.onEp s.cur n fun e => { e with link := none } := by
  obtain ⟨tag, few, slot⟩ := slot
  unfold unbindAt
  dsimp only
  rw [tag, slotNumber_eq]
  dsimp only
  rw [if_neg (Nat.not_le.mpr few), slot]
  dsimp only
  rw [if_pos link, hn, if_pos (by rw [owner, linked]; simp)]

theorem unbindAt_other {sel : GVal} (h : sel.tag = .mem ∨ sel.tag = .entry) : unbindAt s sel = s := by
  unfold unbindAt
  dsimp only
  obtain h | h := h <;> rw [h]

theorem exec_bind_other (hg : s.curTask.guardOk g = true) (h : (s.curTask.reg a).tag = .mem ∨ (s.curTask.reg a).tag = .entry) :
    Traps (.bind g d a b) s .capTag ((s.curTask.reg a).bits.extractLsb' 0 64) := by
  refine traps_of_error (show execBind g d a b s = _ from rfl) hg ?_
  obtain h | h := h <;> simp only [h, throw, throwThe, MonadExceptOf.throw]

end

/-! A message at a linked head (R261) -/

/-- Waking tasks leaves the slots of every core and the network. -/
structure Woken (s u : State) : Prop where
  net : u.net = s.net
  eps : ∀ k, (u.core k).eps = (s.core k).eps
  counters : ∀ k, (u.core k).counters = (s.core k).counters

theorem Woken.refl (s : State) : Woken s s := ⟨rfl, fun _ => rfl, fun _ => rfl⟩

theorem Woken.trans {s u v : State} (h : Woken s u) (k : Woken u v) : Woken s v :=
  ⟨k.net.trans h.net, fun j => (k.eps j).trans (h.eps j), fun j => (k.counters j).trans (h.counters j)⟩

theorem Scheduled.woken {s u : State} (h : Scheduled s u) : Woken s u :=
  ⟨by rw [h.rest], fun k => by rw [h.core k], fun k => by rw [h.core k]⟩

theorem Woken.onCore {s u : State} (h : Woken s u) {k : Nat} {f : Core → Core} (eps : ∀ c, (f c).eps = c.eps) (counters : ∀ c, (f c).counters = c.counters) :
    Woken s (u.onCore k f) := by
  refine h.trans ⟨rfl, fun j => ?_, fun j => ?_⟩
  · rw [State.core_onCore]
    split
    · next e => rw [eps, e]
    · rfl
  · rw [State.core_onCore]
    split
    · next e => rw [counters, e]
    · rfl

theorem Woken.onTask {s u : State} (h : Woken s u) {t : BitVec 48} {f : Task → Task} : Woken s (u.onTask t f) := h.trans ⟨rfl, fun _ => rfl, fun _ => rfl⟩

theorem Woken.foldl {α : Type} {f : State → α → State} (hf : ∀ x a, Woken x (f x a)) {s u : State} (h : Woken s u) (l : List α) : Woken s (l.foldl f u) := by
  induction l generalizing u with
  | nil => exact h
  | cons a l ih => exact ih (h.trans (hf u a))

theorem woken_wakeWhere (s : State) (k : Nat) (p : Wait → Bool) : Woken s (wakeWhere s k p) :=
  .foldl (fun x _ => (Scheduled.wake (.refl x)).woken) (.refl s) _

theorem woken_onWork (s : State) (k : Nat) {f : Core → Core} (eps : ∀ c, (f c).eps = c.eps) (counters : ∀ c, (f c).counters = c.counters) :
    Woken s (s.onWork k f) := by
  have work : Woken s ((s.settleBallast k).onCore k f) := .onCore (.onCore (.refl s) (fun _ => by rfl) (fun _ => by rfl)) eps counters
  unfold State.onWork
  dsimp only
  split
  · exact work.trans (Scheduled.logSlot (.refl _)).woken
  · exact work

theorem woken_ragUpdate (s : State) (k n : Nat) (count : W32) : Woken s (ragUpdate s k n count) := by
  unfold ragUpdate
  dsimp only
  split
  · exact .refl s
  · exact woken_onWork s k (fun _ => rfl) (fun _ => rfl)

theorem woken_completionViolation (s : State) (k n : Nat) (ws : List Task) : Woken s (completionViolation s k n ws) := by
  unfold completionViolation
  split
  · split
    · exact .onTask (.refl s)
    · exact .refl s
  · exact .refl s

theorem woken_wakeSlot (s : State) (k n : Nat) (completed : Bool) : Woken s (wakeSlot s k n completed) := by
  have violated : Woken s (if completed then completionViolation s k n
      (if completed then (s.tasksOn k).filter fun t => t.status = .waitMsg && (match t.wait with | some w => decide (w = .counter n) | none => false) else [])
      else s) := by
    split
    · exact woken_completionViolation ..
    · exact .refl s
  exact .foldl (fun x _ => (Scheduled.wake (.refl x)).woken)
    (.foldl (fun x _ => (Woken.onTask (.refl x)).trans (Scheduled.wake (.refl _)).woken) violated _) _

theorem Woken.counter {s u : State} (h : Woken s u) (k n : Nat) : (u.core k).counter n = (s.core k).counter n := by
  unfold Core.counter
  rw [h.counters]

theorem Woken.ep {s u : State} (h : Woken s u) (k n : Nat) : u.ep k n = s.ep k n := by
  unfold State.ep Core.ep
  rw [h.eps]

/-- A counter as the test of R170 leaves it. -/
def Counter.tested (c : Counter) : Counter := if c.target ≠ 0 && c.count = c.target then { c with count := 0, phase := !c.phase } else c

theorem Counter.tested_trig (c : Counter) : c.tested.trig = c.trig := by
  unfold Counter.tested
  split <;> rfl

theorem Counter.tested_count (c : Counter) : c.tested.count = if c.target ≠ 0 ∧ c.count = c.target then 0 else c.count := by
  unfold Counter.tested
  simp only [Bool.and_eq_true, decide_eq_true_eq]
  split <;> rfl

theorem Counter.tested_phase (c : Counter) : c.tested.phase = if c.target ≠ 0 ∧ c.count = c.target then !c.phase else c.phase := by
  unfold Counter.tested
  simp only [Bool.and_eq_true, decide_eq_true_eq]
  split <;> rfl

/-- An update of a slot with no trigger. -/
theorem woken_slotUpdate (s : State) (k n : Nat) (f : Counter → Counter) (h : (f ((s.core k).counter n)).trig = none) :
    Woken (s.onCounter k n fun _ => (f ((s.core k).counter n)).tested) (slotUpdate s k n f) := by
  have woken (c : W32) (comp : Bool) (u : State) : Woken u (wakeSlot (ragUpdate u k n c) k n comp) := (woken_ragUpdate ..).trans (woken_wakeSlot ..)
  unfold slotUpdate
  dsimp only
  rw [testCounterTrigger_none]
  · exact woken ..
  · rw [(woken _ _ _).counter, counter_onCounter_same]
    exact (Counter.tested_trig _).trans h

/-- A message within the chip leaves the cores but for their energy, and goes on its way. -/
theorem emit_here {s : State} {k : Nat} {reply : Bool} {dst : Place} {b : Body} (h : dst.chip = s.chip) :
    (s.emit k reply dst b).net = s.net ++ [⟨s.here k, dst, reply, 0, b⟩] ∧ (∀ j, ((s.emit k reply dst b).core j).eps = (s.core j).eps)
      ∧ ∀ j, ((s.emit k reply dst b).core j).counters = (s.core j).counters := by
  have charged (e : Nat) : Woken s (s.charge k e) := .onCore (.refl s) (fun _ => rfl) (fun _ => rfl)
  unfold State.emit State.route
  dsimp only
  split
  · exact ⟨rfl, fun _ => rfl, fun _ => rfl⟩
  · rw [State.charge_chip, if_pos h]
    exact ⟨rfl, (charged _).eps, (charged _).counters⟩

section
variable {s : State} {k n q : Nat} {ty : BitVec 6} {word : W64} {count : BitVec 17} {t : W32} {i : Nat} {p : EpLoc}

/-- The slot after its linked counter consumed the head. -/
def consumed (e : Endp) (t : W32) (count : BitVec 17) (ty : BitVec 6) : Endp := { e.take t count with buf := e.buf.drop 1, lastType := ty }

/-- The state that a transition takes depends on no message. -/
theorem take_state_buf (e : Endp) (l : List BufMsg) (t : W32) (count : BitVec 17) : ({ e with buf := l }.take t count).state = (e.take t count).state := by
  unfold Endp.take
  split
  · rfl
  · split
    · have loops : ({ e with buf := l } : Endp).loop (tLk t) = e.loop (tLk t) := rfl
      rw [loops]
      split <;> rfl
    · rfl

theorem take_rest (e : Endp) (t : W32) (count : BitVec 17) : e.take t count = { e with
    state := (e.take t count).state, loop0 := (e.take t count).loop0, loop1 := (e.take t count).loop1 } := by
  have set (b : Bool) (v : BitVec 17) : e.setLoop b v = { e with loop0 := (e.setLoop b v).loop0, loop1 := (e.setLoop b v).loop1 } := by
    cases b <;> rfl
  unfold Endp.take
  split
  · rw [set]
  · split
    · split
      · rw [set]
      · rw [set]
    · rfl

/-- A slot that has returned one message more. -/
def countedReturn (e : Endp) : Endp := { e with consumed := e.consumed + 1 }

/-- A returned slot: consumed rises and the peer on this chip is told. -/
theorem giveBack_here (peer : (s.ep k n).peer = some p) (live : (s.ep k n).status.live = true) (near : p.at_.chip = s.chip) :
    (giveBack s k n).net = s.net ++ [⟨s.here k, p.at_, true, 0, .slotReturn p (returnWord ((s.ep k n).consumed + 1) (s.ep k n).gen)⟩]
      ∧ (giveBack s k n).ep k n = countedReturn (s.ep k n)
      ∧ ∀ q, ((giveBack s k n).core k).counter q = (s.core k).counter q := by
  unfold giveBack
  dsimp only
  rw [peer]
  dsimp only
  rw [live, Bool.true_or, if_pos rfl]
  obtain ⟨net, eps, counters⟩ := emit_here (s := s.onEp k n countedReturn) (k := k) (reply := true)
    (b := .slotReturn p (returnWord ((s.ep k n).consumed + 1) (s.ep k n).gen)) (show p.at_.chip = _ from near)
  refine ⟨net, ?_, fun q => ?_⟩
  · exact (congrArg (sget Endp.zero · n) (eps k)).trans (ep_onEp_same s k n countedReturn)
  · exact (congrArg (sget Counter.zero · q) (counters k)).trans (counter_onEp s k n q countedReturn)

/-- A slot whose linked counter takes the one message that it holds. -/
structure LinkedHead (s : State) (k n q : Nat) (ty : BitVec 6) (word : W64) (count : BitVec 17) (t : W32) (i : Nat) (p : EpLoc) : Prop where
  connected : (s.ep k n).status = .connected
  order : (s.ep k n).oldSlot = none
  trig : (s.ep k n).trig = none
  link : (s.ep k n).link = some q
  buf : (s.ep k n).buf = [⟨.data ty 0 word count [], i, false⟩]
  found : (s.ep k n).find true 0 (some ty) = some t
  shape : tShape t = 0
  present : holderAway s (s.ep k n) = false
  peer : (s.ep k n).peer = some p
  near : p.at_.chip = s.chip

/-- The state in which the linked counter has consumed the head. -/
def headConsumed (s : State) (k n : Nat) (ty : BitVec 6) (count : BitVec 17) (t : W32) : State := s.onEp k n fun e => consumed e t count ty

theorem LinkedHead.linkStep (h : LinkedHead s k n q ty word count t i p) :
    linkStep s k n = some (slotAdd (giveBack (headConsumed s k n ty count t) k n) k q (word.setWidth 32)) := by
  obtain ⟨connected, order, -, link, buf, found, shape, present, -, -⟩ := h
  have head : (s.ep k n).head = some ⟨.data ty 0 word count [], i, false⟩ := by
    unfold Endp.head
    rw [order, buf]
    rfl
  unfold Machine.linkStep
  dsimp only
  split
  next c ty' word' count' _ _ _ hc hh =>
    cases link.symm.trans hc
    cases head.symm.trans hh
    rw [found]
    dsimp only
    rw [if_pos (by rw [shape, connected, present]; rfl)]
    rfl
  next no => exact absurd head (no q ty word count [] i false link)

theorem LinkedHead.pump (h : LinkedHead s k n q ty word count t i p) (trig : ((s.core k).counter q).trig = none) :
    let u := pump s k n
    let c := (s.core k).counter q
    (u.ep k n).buf = [] ∧ (u.ep k n).state = ((s.ep k n).take t count).state ∧ (u.ep k n).consumed = (s.ep k n).consumed + 1 ∧ (u.ep k n).lastType = ty
      ∧ (u.core k).counter q = { c with count := c.count + word.setWidth 32 }.tested
      ∧ u.net = s.net ++ [⟨s.here k, p.at_, true, 0, .slotReturn p (returnWord ((s.ep k n).consumed + 1) (s.ep k n).gen)⟩] := by
  have step := h.linkStep
  obtain ⟨connected, order, noTrig, link, buf, found, shape, present, peer, near⟩ := h
  have taken : (headConsumed s k n ty count t).ep k n = consumed (s.ep k n) t count ty := ep_onEp_same ..
  have same (j : Nat) : ((headConsumed s k n ty count t).core k).counter j = (s.core k).counter j := counter_onEp ..
  have rest := take_rest (s.ep k n) t count
  obtain ⟨net, ep, counters⟩ := giveBack_here (s := headConsumed s k n ty count t) (p := p) (by rw [taken, consumed, rest]; exact peer)
    (by rw [taken, consumed, rest]; exact congrArg EpStatus.live connected) near
  generalize giveBack (headConsumed s k n ty count t) k n = v at *
  have added := woken_slotUpdate v k q (fun c => { c with count := c.count + word.setWidth 32 }) (by rw [counters, same]; exact trig)
  change Woken _ (slotAdd v k q (word.setWidth 32)) at added
  have after : (slotAdd v k q (word.setWidth 32)).ep k n = countedReturn (consumed (s.ep k n) t count ty) := by
    rw [added.ep k n, ep_onCounter, ep, taken]
  have counter := added.counter k q
  rw [counter_onCounter_same, counters, same] at counter
  have empty : ((slotAdd v k q (word.setWidth 32)).ep k n).buf = [] := by
    rw [after, countedReturn, consumed, buf]
    rfl
  have woken : Woken (slotAdd v k q (word.setWidth 32)) (Machine.pump s k n) := by
    have all : linkAll 9 s k n = slotAdd v k q (word.setWidth 32) := by
      rw [linkAll, step]
      exact linkAll_none (Endp.head_nil empty) 8
    have rest_ := pump_empty (s := slotAdd v k q (word.setWidth 32)) empty
      (by rw [after, countedReturn, consumed, rest]; exact connected) (by rw [after, countedReturn, consumed, rest]; exact noTrig)
    have one : Machine.pump s k n = Machine.pump (slotAdd v k q (word.setWidth 32)) k n := by
      unfold Machine.pump
      dsimp only
      rw [all, linkAll_none (Endp.head_nil empty)]
    rw [one, rest_]
    exact woken_wakeWhere ..
  refine ⟨?_, ?_, ?_, ?_, ?_, ?_⟩
  · rw [woken.ep, empty]
  · rw [woken.ep, after]
    rfl
  · rw [woken.ep, after, countedReturn, consumed, rest]
  · rw [woken.ep, after]
    rfl
  · rw [woken.counter, counter]
  · rw [woken.net, added.net]
    refine net.trans ?_
    rw [taken, consumed, rest]
    rfl

end

/-! The arrival of a channel's message (R231) -/

theorem curTid_onCore (s : State) (k : Nat) {f : Core → Core} (h : ∀ c, (f c).issuing = c.issuing) : (s.onCore k f).curTid = s.curTid := by
  have me : (s.onCore k f).me.issuing = s.me.issuing := by
    unfold State.me
    rw [State.onCore_cur, State.core_onCore]
    split
    · next e => rw [h, e]
    · rfl
  unfold State.curTid
  rw [me]
  rfl

theorem core_retire (s : State) (len k : Nat) : (retire s len).core k = s.core k := rfl

theorem retired_retire (s : State) : Retired 4 s.curTask ((retire s 4).task s.curTid) := by
  rw [retire, retireOf, State.task_onTask_same]
  exact Task.advance_retired ..

/-- The task as its instruction retires beside a change of its core. -/
theorem retired_onCore (s : State) (k : Nat) {f : Core → Core} (h : ∀ c, (f c).issuing = c.issuing) :
    Retired 4 s.curTask ((retire (s.onCore k f) 4).task s.curTid) := by
  have retired := retired_retire (s.onCore k f)
  rw [curTid_onCore s k h] at retired
  have task : (s.onCore k f).curTask = s.curTask := by
    unfold State.curTask
    rw [curTid_onCore s k h, State.task_onCore]
  rw [task] at retired
  exact retired

section
variable {s : State} {i : Nat} {m : Msg} {l src : EpLoc} {via : Option EpLoc} {ty : BitVec 6} {word : W64} {count : BitVec 17}

/-- A slot's buffer with one message. -/
def holding (s : State) (k n : Nat) (b : BufMsg) : State := s.onEp k n fun e => { e with buf := putMsg b e.buf }

theorem counter_holding (s : State) (k n q : Nat) (b : BufMsg) : ((holding s k n b).core k).counter q = (s.core k).counter q := counter_onEp ..

theorem holding_head {k n q : Nat} {t : W32} {p : EpLoc} (j : Nat) (connected : (s.ep k n).status = .connected) (order : (s.ep k n).oldSlot = none)
    (trig : (s.ep k n).trig = none) (buf : (s.ep k n).buf = []) (present : holderAway s (s.ep k n) = false) (peer : (s.ep k n).peer = some p)
    (near : p.at_.chip = s.chip) (link : (s.ep k n).link = some q) (found : (s.ep k n).find true 0 (some ty) = some t) (shape : tShape t = 0) :
    LinkedHead (holding s k n ⟨.data ty 0 word count [], j, false⟩) k n q ty word count t j p ∧
      (holding s k n ⟨.data ty 0 word count [], j, false⟩).ep k n = { s.ep k n with buf := [⟨.data ty 0 word count [], j, false⟩] } := by
  have ep : (holding s k n ⟨.data ty 0 word count [], j, false⟩).ep k n = { s.ep k n with buf := [⟨.data ty 0 word count [], j, false⟩] } := by
    rw [holding, ep_onEp_same, buf]
    rfl
  refine ⟨⟨?_, ?_, ?_, ?_, ?_, ?_, shape, ?_, ?_, near⟩, ep⟩
  · rw [ep, connected]
  · rw [ep, order]
  · rw [ep, trig]
  · rw [ep, link]
  · rw [ep]
  · rw [ep]
    exact found
  · rw [ep]
    exact present
  · rw [ep, peer]

theorem exec_arrival (arrives : arrivable s i = some m) (body : m.body = .chan l src via (.data ty 0 word count []))
    (connected : (s.ep l.at_.core l.ep).status = .connected) (gen : (s.ep l.at_.core l.ep).gen = l.gen)
    (order : (s.ep l.at_.core l.ep).oldSlot = none) (stays : (s.ep l.at_.core l.ep).forwarding = false)
    (room : freeFrames (s.ep l.at_.core l.ep) ≠ []) :
    ∃ j, exec (.channelMessageArrival i) s =
      .next (pump (holding (unnet s i) l.at_.core l.ep ⟨.data ty 0 word count [], j, false⟩) l.at_.core l.ep) := by
  have live : slotLive (unnet s i) l = true := by
    change (decide ((s.ep l.at_.core l.ep).status ≠ .free) && decide ((s.ep l.at_.core l.ep).gen = l.gen)) = true
    rw [connected, gen, decide_eq_true rfl]
    rfl
  have late : early s l = false := by
    unfold early
    dsimp only
    rw [connected]
    simp
  obtain ⟨j, frame⟩ : ∃ j, nextFrame (unnet s i) (s.ep l.at_.core l.ep) = some j := by
    unfold nextFrame
    dsimp only
    rw [List.getElem?_eq_getElem (Nat.mod_lt _ (List.length_pos_of_ne_nil room))]
    exact ⟨_, rfl⟩
  have kept : (unnet s i).ep l.at_.core l.ep = s.ep l.at_.core l.ep := rfl
  refine ⟨j, ?_⟩
  rw [show exec (.channelMessageArrival i) s = execChannelMessageArrival i s from rfl, execChannelMessageArrival, arrive1]
  simp only [arrives, body, bodySlot, isFlowBody, isFlow, late, live, Bool.not_false, Bool.and_self, if_true, chanArrival, kept, stays, connected, order,
    EpStatus.live, Option.isSome_none, Bool.false_and, Bool.false_eq_true, if_false, placeMsg, Bool.not_true, frame]
  rfl

end

/-- The data values of a trigger's arguments. -/
theorem data64_ofNat (v : W64) : data64 v = ⟨BitVec.ofNat 128 v.toNat, .data⟩ := by
  have bits : v.setWidth 128 = BitVec.ofNat 128 v.toNat := BitVec.eq_of_toNat_eq (by simp)
  rw [data64, bits]

theorem selectorArg_eq (w : W64) : data64 (w &&& 0xF) = ⟨BitVec.ofNat 128 (w.toNat % 16), .data⟩ := by
  rw [data64_ofNat, BitVec.toNat_and]
  exact congrArg (fun n => (⟨BitVec.ofNat 128 n, .data⟩ : GVal)) (Nat.and_two_pow_sub_one_eq_mod _ 4)

theorem countArg_eq (c : W32) : data64 (c.setWidth 64) = ⟨BitVec.ofNat 128 c.toNat, .data⟩ := by
  rw [data64_ofNat, BitVec.toNat_setWidth, Nat.mod_eq_of_lt (by omega)]

section
variable {s : State} {k n : Nat} {g : Trigger}

theorem counterBound_rest (s : State) (k : Nat) (g : Trigger) : (counterBound s k g).chip = s.chip ∧ (counterBound s k g).net = s.net
    ∧ (counterBound s k g).spire = s.spire ∧ (counterBound s k g).task s.curTid = s.curTask.advance 4 := by
  obtain ⟨chip, net, spire⟩ := binding_rest s
  unfold counterBound State.onCounter
  rw [State.onCore_chip, State.onCore_net, State.onCore_spire, State.task_onCore]
  exact ⟨chip, net, spire, task_binding s⟩

theorem endpointBound_rest (s : State) (n : Nat) (g : Trigger) : (endpointBound s n g).chip = s.chip ∧ (endpointBound s n g).net = s.net
    ∧ (endpointBound s n g).spire = s.spire ∧ (endpointBound s n g).task s.curTid = s.curTask.advance 4 := by
  obtain ⟨chip, net, spire⟩ := binding_rest s
  unfold endpointBound State.onEp
  rw [State.onCore_chip, State.onCore_net, State.onCore_spire, State.task_onCore]
  exact ⟨chip, net, spire, task_binding s⟩

theorem counterBound_waits (waits : ((s.me.counter k).count - BitVec.ofNat 32 g.f).toNat ≥ 2 ^ 31) :
    let u := testCounterTrigger (counterBound s k g) s.cur k
    (u.core s.cur).counter k = { s.me.counter k with fire := BitVec.ofNat 16 g.f, trig := some g } ∧ u.net = s.net
      ∧ Retired 4 s.curTask (u.task s.curTid) := by
  have counter := counter_counterBound s k g
  obtain ⟨-, net, -, task⟩ := counterBound_rest s k g
  dsimp only
  rw [testCounterTrigger_waits (g := g) (by rw [counter]) (by rw [counter]; exact waits), task]
  exact ⟨counter, net, Task.advance_retired ..⟩

theorem endpointBound_waits (waits : (s.ep s.cur n).buffered < g.f) :
    let u := testEpTrigger (endpointBound s n g) s.cur n
    u.ep s.cur n = { s.ep s.cur n with trig := some g } ∧ u.net = s.net ∧ Retired 4 s.curTask (u.task s.curTid) := by
  have ep := ep_endpointBound s n g
  obtain ⟨-, net, -, task⟩ := endpointBound_rest s n g
  dsimp only
  rw [testEpTrigger_waits (g := g) (by rw [ep]) (by rw [ep]; exact waits), task]
  exact ⟨ep, net, Task.advance_retired ..⟩

/-- A trigger's message names the core by its chip. -/
theorem triggerDesc_chip {s v : State} (h : v.chip = s.chip) (k : Nat) (g : Trigger) (args : List GVal) (b : Nat) :
    triggerDesc v k g args b = triggerDesc s k g args b := by
  unfold triggerDesc State.here
  rw [h]

/-- A state that a trigger's test starts from, but for the slots of its cores. -/
structure Testing (s v : State) : Prop where
  chip : v.chip = s.chip
  net : v.net = s.net
  spire : v.spire = s.spire
  task : v.task s.curTid = s.curTask.advance 4

theorem Testing.onCore {v : State} (h : Testing s v) (k : Nat) (f : Core → Core) : Testing s (v.onCore k f) := ⟨h.chip, h.net, h.spire, h.task⟩

theorem Testing.fired {v : State} (h : Testing s v) (k : Nat) (args : List GVal) (b : Nat) :
    let u := (jobRaise v g.job).post (triggerDesc v k g args b)
    (u.job g.job).count = (s.job g.job).count + 1 ∧ Retired 4 s.curTask (u.task s.curTid) ∧ u.net = s.net ++ [triggerDesc s k g args b] := by
  obtain ⟨chip, net, spire, task⟩ := h
  obtain ⟨sent, count, tasks, -⟩ := fired_post v g.job (triggerDesc v k g args b)
  have job : v.job g.job = s.job g.job := by unfold State.job; rw [spire]
  have same : ((jobRaise v g.job).post (triggerDesc v k g args b)).task s.curTid = v.task s.curTid := by unfold State.task; rw [tasks]
  refine ⟨by rw [count, job], ?_, by rw [sent, net, triggerDesc_chip chip]⟩
  rw [same, task]
  exact Task.advance_retired ..

theorem counterBound_fires (armed : g.armed = true) (reached : ((s.me.counter k).count - BitVec.ofNat 32 g.f).toNat < 2 ^ 31) :
    let u := testCounterTrigger (counterBound s k g) s.cur k
    (u.core s.cur).counter k = { s.me.counter k with fire := BitVec.ofNat 16 g.f, trig := some { g with armed := false } }
      ∧ (u.job g.job).count = (s.job g.job).count + 1 ∧ Retired 4 s.curTask (u.task s.curTid)
      ∧ u.net = s.net ++ [triggerDesc s s.cur g [⟨BitVec.ofNat 128 ((g.sel.bits.extractLsb' 0 64).toNat % 16), .data⟩,
        ⟨BitVec.ofNat 128 (s.me.counter k).count.toNat, .data⟩] (64 + k + 128 * g.id)] := by
  have counter := counter_counterBound s k g
  obtain ⟨chip, net, spire, task⟩ := counterBound_rest s k g
  have testing : Testing s (counterBound s k g) := ⟨chip, net, spire, task⟩
  dsimp only
  rw [testCounterTrigger_fires (g := g) (by rw [counter]) armed (by rw [counter]; exact reached), counter, selectorArg_eq, countArg_eq]
  generalize counterBound s k g = v at *
  refine ⟨?_, ?_⟩
  · rw [core_fired, counter_onCounter_same, counter]
  · exact (testing.onCore ..).fired ..

theorem endpointBound_fires (armed : g.armed = true) (live : (s.ep s.cur n).status.live = true) (reached : g.f ≤ (s.ep s.cur n).buffered) :
    let u := testEpTrigger (endpointBound s n g) s.cur n
    u.ep s.cur n = { s.ep s.cur n with trig := some { g with armed := false } }
      ∧ (u.job g.job).count = (s.job g.job).count + 1 ∧ Retired 4 s.curTask (u.task s.curTid)
      ∧ u.net = s.net ++ [triggerDesc s s.cur g [g.sel, ⟨BitVec.ofNat 128 ((s.ep s.cur n).buffered % 2 ^ 64), .data⟩] (n + 128 * g.id)] := by
  have ep := ep_endpointBound s n g
  obtain ⟨chip, net, spire, task⟩ := endpointBound_rest s n g
  have testing : Testing s (endpointBound s n g) := ⟨chip, net, spire, task⟩
  have count : ((endpointBound s n g).ep s.cur n).buffered = (s.ep s.cur n).buffered := by rw [ep]; rfl
  dsimp only
  rw [testEpTrigger_fires (g := g) (by rw [ep]) armed (by rw [ep]; exact live) (by rw [count]; exact reached), count, data64_ofNat, BitVec.toNat_ofNat]
  generalize endpointBound s n g = v at *
  refine ⟨?_, ?_⟩
  · rw [State.ep, core_fired, ← State.ep, ep_onEp_same, ep]
  · exact (testing.onCore ..).fired ..

end

/-- Settles O36: a trigger at its test, the link by the one message that it finds, UNBIND by its selector. -/
theorem bindingsArmAndFire : Obligations.BindingsArmAndFire := by
  unfold Obligations.BindingsArmAndFire
  intro s g d a b k n hg x fired sel w en f c slot entry trigger
  refine ⟨?_, ?_, ?_, ?_, ?_, ?_, ?_, ?_, ?_⟩
  · intro hs bit he waits
    obtain ⟨counter, net, retired⟩ := counterBound_waits (g := newTrigger s en sel (fireCount (x.r64 d))) waits
    exact ⟨_, exec_bind_counter hg hs bit he, counter, net, retired⟩
  · intro hs bit he reached
    obtain ⟨counter, count, retired, net⟩ := counterBound_fires (g := newTrigger s en sel (fireCount (x.r64 d))) rfl reached
    exact ⟨_, exec_bind_counter hg hs bit he, counter, count, retired, _, _, net, rfl, rfl, rfl, rfl, rfl⟩
  · intro f16 tag valid loc owner connected he
    have held : Holds s sel n := ⟨tag, valid, loc, owner, connected⟩
    refine ⟨fun few => ?_, fun enough => ?_⟩
    · obtain ⟨ep, net, retired⟩ := endpointBound_waits (g := newTrigger s en sel f16) few
      exact ⟨_, exec_bind_endpoint hg held he, ep, net, retired⟩
    · obtain ⟨ep, count, retired, net⟩ := endpointBound_fires (g := newTrigger s en sel f16) rfl (by rw [connected]; rfl) enough
      exact ⟨_, exec_bind_endpoint hg held he, ep, count, retired, _, _, net, rfl, rfl, rfl, rfl, rfl⟩
  · intro i m l src p via q t ty word cnt r e h count arrives body connected gen order stays trig buf room present peer near link ctrig found shape
    obtain ⟨j, run⟩ := exec_arrival arrives body connected gen order stays room
    have counter := counter_holding (unnet s i) r l.ep q ⟨.data ty 0 word cnt [], j, false⟩
    obtain ⟨head, ep⟩ := holding_head (s := unnet s i) (word := word) (count := cnt) j connected order trig buf present peer near link found shape
    have done := head.pump (by rw [counter]; exact ctrig)
    refine ⟨_, run, ?_⟩
    generalize pump (holding (unnet s i) l.at_.core l.ep ⟨.data ty 0 word cnt [], j, false⟩) l.at_.core l.ep = u at *
    obtain ⟨buf', state, consumed, last, after, net⟩ := done
    rw [ep] at state consumed net
    rw [counter] at after
    refine ⟨buf', ?_, consumed, last, ?_, ?_, net⟩
    · exact state.trans (take_state_buf ..)
    · rw [after, Counter.tested_count]
      rfl
    · rw [after, Counter.tested_phase]
      rfl
  · exact fun hs bit no => exec_bind_counter_tag hg hs bit no
  · intro hs bit hn connected owner buf trig idle
    refine ⟨_, exec_bind_link hg hs bit hn connected owner, ?_⟩
    rw [pump_linked connected buf trig idle]
    exact ⟨ep_linked s n k, retired_retire s⟩
  · intro hs bit
    refine ⟨_, exec_unbind hg, ?_⟩
    rw [unbindAt_counter hs bit]
    refine ⟨?_, retired_onCore s s.cur fun _ => rfl⟩
    rw [core_retire, counter_onCounter_same]
    rfl
  · intro hs bit hn owner link
    refine ⟨_, exec_unbind hg, ?_⟩
    rw [unbindAt_link hs bit hn owner link]
    refine ⟨?_, retired_onCore s s.cur fun _ => rfl⟩
    rw [State.ep, core_retire, ← State.ep, ep_onEp_same]
  · intro other
    refine ⟨exec_bind_other hg other, ?_⟩
    have e := exec_unbind (g := g) (a := a) hg
    rw [unbindAt_other other] at e
    exact completes_of_advance e rfl

end Sys2Proof.Machine
end

section
/-! PROOFS. Tasks arrive, are admitted and move (R50, R257, R305 to R311, R319, R418). -/

namespace Sys2Proof.Machine

open Sys2Proof.Safety Sys2Proof.Laws

/-! Arrival in a run queue (R306) -/

theorem Scheduled.noteHeld {s u : State} (h : Scheduled s u) (k : Nat) (job : W32) : Scheduled s (noteHeld u k job) := by
  unfold Machine.noteHeld
  exact iteInduction (motive := Scheduled s) (fun _ => .onCore h fun _ => by rfl) fun _ => h

theorem Scheduled.net {s u : State} (h : Scheduled s u) : u.net = s.net := by rw [h.rest]

theorem Scheduled.runBase {s u : State} (h : Scheduled s u) (k : Nat) : (u.core k).runBase = (s.core k).runBase := by rw [h.core k]

theorem queueDesc_base (s : State) (k : Nat) {d : TaskDesc} (h : entryHl d.entry.bits = false) :
    (queueDesc s k d).net = s.net ∧ ((queueDesc s k d).core k).runBase = (s.core k).runBase ++ [.desc d] := by
  have queued (u : State) (net : u.net = s.net) (base : (u.core k).runBase = (s.core k).runBase) :
      (u.onCore k fun c => { c with runBase := c.runBase ++ [.desc d] }).net = s.net
        ∧ ((u.onCore k fun c => { c with runBase := c.runBase ++ [.desc d] }).core k).runBase = (s.core k).runBase ++ [.desc d] := by
    refine ⟨net, ?_⟩
    rw [State.core_onCore_same, ← base]
  unfold queueDesc
  rw [if_neg (by rw [h]; decide)]
  dsimp only
  split
  · exact queued s rfl rfl
  · have noted : Scheduled s (Machine.noteHeld s k d.job) := .noteHeld (.refl s) k d.job
    exact queued _ noted.net (noted.runBase k)

section
variable {s : State} {k : Nat} {m : Msg} {d : TaskDesc} {w : W64} (arrives : arrivable s k = some m) (body : m.body = .task d w)
  (request : m.reply = false) (there : s.harvested m.dst.core = false)
include arrives body request there

theorem exec_taskArrival (up : s.coreUp m.dst.core = true) (room : freeRun (s.core m.dst.core) ≠ 0) :
    exec (.taskMessageArrival k) s = .next (if (s.job d.job).state = .killing then dropDesc (unnet s k) m.dst.core d else queueDesc (unnet s k) m.dst.core d) := by
  have passes : (!s.coreUp m.dst.core || (!m.reply && decide (freeRun (s.core m.dst.core) = 0))) = false := by
    rw [up, decide_eq_false room]
    simp
  rw [show exec (.taskMessageArrival k) s = execTaskMessageArrival k s from rfl, execTaskMessageArrival, arrives]
  dsimp only
  rw [body]
  rw [there, passes, request]
  rfl

theorem exec_taskArrival_waits (full : s.coreUp m.dst.core = false ∨ freeRun (s.core m.dst.core) = 0) : exec (.taskMessageArrival k) s = .next s := by
  have waits : (!s.coreUp m.dst.core || (!m.reply && decide (freeRun (s.core m.dst.core) = 0))) = true := by
    rw [request]
    obtain h | h := full
    · rw [h]; rfl
    · rw [decide_eq_true h]; simp
  rw [show exec (.taskMessageArrival k) s = execTaskMessageArrival k s from rfl, execTaskMessageArrival, arrives]
  dsimp only
  rw [body]
  rw [there, waits]
  rfl

end

/-! The pod ports (R257, R418) -/

theorem exec_podDiscard {s : State} {k : Nat} {m : Msg} {d : TaskDesc} {w : W64} (at_ : s.net[k]? = some m) (body : m.body = .task d w)
    (far : m.dst.chip ≠ s.chip) (cut : podFibre s m.dst.chip = none) :
    exec (.podPortDiscard k) s = .next ((unnet s k).post { src := m.dst, dst := m.src, reply := true, header := 0, body := .podError d w }) := by
  have gone : unreachable s m.dst.chip = true := by
    unfold unreachable
    rw [cut, decide_eq_true far]
    rfl
  rw [show exec (.podPortDiscard k) s = execPodPortDiscard k s from rfl, execPodPortDiscard, at_]
  dsimp only
  rw [body]
  simp only [gone, if_true]

theorem exec_podError {s : State} {k : Nat} {m : Msg} {d : TaskDesc} {w : W64} (arrives : arrivable s k = some m) (body : m.body = .podError d w)
    (spawn : d.am = false) :
    exec (.podErrorReply k) s = .next (finishPreempt (raiseAsync (jobLower (unnet s k) d.job) d.by_ .busError w) d.job) := by
  rw [show exec (.podErrorReply k) s = execPodErrorReply k s from rfl, execPodErrorReply, arrives]
  dsimp only
  rw [body]
  simp only [spawn, Bool.false_eq_true, if_false]

/-- Saving a job leaves the network, the tasks and the count of every job. -/
structure Saves (s u : State) : Prop where
  net : u.net = s.net
  tasks : u.tasks = s.tasks
  count : ∀ j, (u.job j).count = (s.job j).count

theorem Saves.refl (s : State) : Saves s s := ⟨rfl, rfl, fun _ => rfl⟩

theorem Saves.trans {s u v : State} (h : Saves s u) (k : Saves u v) : Saves s v :=
  ⟨k.net.trans h.net, k.tasks.trans h.tasks, fun j => (k.count j).trans (h.count j)⟩

theorem Saves.onCore {s u : State} (h : Saves s u) (k : Nat) (f : Core → Core) : Saves s (u.onCore k f) := h.trans ⟨rfl, rfl, fun _ => rfl⟩

theorem Saves.withBusy {s u : State} (h : Saves s u) (b : Option W32) : Saves s { u with spire := { u.spire with busy := b } } :=
  h.trans ⟨rfl, rfl, fun _ => rfl⟩

theorem Saves.write {s u : State} (h : Saves s u) (a : Nat) (bs : List Byte) : Saves s (u.write a bs) := by
  refine h.trans ?_
  have e := State.write_same u bs a
  refine ⟨?_, ?_, fun j => ?_⟩
  · rw [e]
  · rw [e]
  · unfold State.job
    rw [e]

theorem Saves.onJob {s u : State} (h : Saves s u) (j : W32) {f : Job → Job} (hf : ∀ x, (f x).count = x.count) : Saves s (u.onJob j f) := by
  refine h.trans ⟨rfl, rfl, fun i => ?_⟩
  unfold State.onJob State.setJob State.job
  dsimp only
  rw [sget_sset]
  split
  · next e => rw [hf, e]
  · rfl

theorem Saves.writeChunks {s u : State} (h : Saves s u) (a : Nat) (cs : List Chunk) : Saves s (writeChunks u a cs) := by
  induction cs generalizing u a with
  | nil => exact h
  | cons c cs ih =>
    have written := h.write a c.1
    unfold Machine.writeChunks
    dsimp only
    split
    · exact ih written _
    · have tagged : Saves s ((u.write a c.1).setTag a c.2) := written.trans ⟨rfl, rfl, fun _ => rfl⟩
      exact ih tagged _

theorem Saves.putRecord {s u : State} (h : Saves s u) (job : W32) (cs : List Chunk) : Saves s (putRecord u job cs).1 := by
  unfold Machine.putRecord
  dsimp only
  split
  · exact h
  · dsimp only
    exact (h.writeChunks _ _).onJob job fun _ => by rfl

theorem Saves.saveGroup {s u : State} (h : Saves s u) (job : W32) (k : Nat) : Saves s (saveGroup u job k) := by
  unfold Machine.saveGroup
  dsimp only
  split
  · split
    · exact h
    · exact ((h.putRecord _ _).onJob job fun _ => by rfl).onCore k _
  · exact h

theorem Saves.foldl {α : Type} {f : State → α → State} (hf : ∀ s u x, Saves s u → Saves s (f u x)) {s u : State} (h : Saves s u) (l : List α) :
    Saves s (l.foldl f u) := by
  induction l generalizing u with
  | nil => exact h
  | cons x l ih => exact ih (hf s u x h)

theorem Saves.writeJobHeader {s u : State} (h : Saves s u) (job : W32) : Saves s (writeJobHeader u job) := by
  unfold Machine.writeJobHeader
  dsimp only
  split
  · exact h
  · exact h.write _ _

theorem Saves.finishPreempt {s u : State} (h : Saves s u) (job : W32) : Saves s (finishPreempt u job) := by
  unfold Machine.finishPreempt
  dsimp only
  split
  · have saved : Saves s ((u.cores.map fun p => p.1).foldl (fun s k => Machine.saveGroup s job k) u) := .foldl (fun s u k h => h.saveGroup job k) h _
    exact ((saved.onJob job fun _ => by rfl).writeJobHeader job).withBusy _
  · exact h

theorem count_jobLower (s : State) (j : W32) : ((jobLower s j).job j).count = (s.job j).count - 1 := by
  unfold jobLower State.onJob State.setJob State.job
  dsimp only
  rw [sget_sset_same]
  split <;> rfl

/-- A trap that is not taken at once is held in its task. -/
theorem raiseAsync_held {s : State} {t : BitVec 48} {c : Cause} (w : W64) (lives : (s.task t).status ≠ .ended) (hc : c ≠ .memUe) :
    raiseAsync s t c w = s.onTask t fun x => { x with held := x.held ++ [⟨causeCode c, w⟩] } := by
  unfold raiseAsync logUe
  rw [if_neg lives, if_neg hc]

/-! Shipment to a home cluster (R319) -/

theorem tasks_idleCore (s : State) (k : Nat) (pinned : Bool) : (idleCore s k pinned).tasks = s.tasks :=
  congrArg Prod.fst (tasksAndSlots_idleCore s k pinned)

theorem tasks_logSlot (s : State) (k : Nat) : (logSlot s k).tasks = s.tasks := congrArg Prod.fst (tasksAndSlots_logSlot s k)

/-- No task but one waits for a message. -/
def NoneWaits (s : State) (t : BitVec 48) : Prop := ∀ p ∈ s.tasks, p.1 ≠ t.toNat → p.2.status ≠ .waitMsg

section
variable {s : State} {t : BitVec 48}

theorem NoneWaits.of_tasks {u : State} (h : NoneWaits s t) (e : u.tasks = s.tasks) : NoneWaits u t := by
  unfold NoneWaits
  rw [e]
  exact h

theorem NoneWaits.onTask_self (h : NoneWaits s t) (f : Task → Task) : NoneWaits (s.onTask t f) t := by
  intro q hq key
  obtain rfl | hq := mem_sset hq
  · exact absurd rfl key
  · exact h q hq key

theorem NoneWaits.onTask (h : NoneWaits s t) (u : BitVec 48) {f : Task → Task} (hf : ∀ x, (f x).status ≠ .waitMsg) : NoneWaits (s.onTask u f) t := by
  intro q hq key
  obtain rfl | hq := mem_sset hq
  · exact hf _
  · exact h q hq key

theorem NoneWaits.onCore (h : NoneWaits s t) (k : Nat) (f : Core → Core) : NoneWaits (s.onCore k f) t := h

theorem NoneWaits.dispatch (h : NoneWaits s t) (k : Nat) : NoneWaits (dispatch s k) t := by
  have high : NoneWaits (fillHigh s k) t := by
    unfold fillHigh
    split
    · split
      · exact h
      · refine (h.onTask _ fun x => ?_).onCore k _
        exact TStatus.noConfusion
    · exact h
  have base : NoneWaits (fillBase (fillHigh s k) k) t := by
    unfold fillBase
    split
    · refine (high.onTask _ fun x => ?_).onCore k _
      exact TStatus.noConfusion
    · exact high
  have marked : NoneWaits (markSuspended (fillBase (fillHigh s k) k) k) t := by
    unfold markSuspended
    split
    · refine (base.onTask _ fun x => ?_).onCore k _
      show (if _ then TStatus.suspended else .running) ≠ _
      split <;> exact TStatus.noConfusion
    · exact base.onCore k _
  rw [dispatch_eq]
  exact marked.of_tasks (tasks_logSlot ..)

theorem NoneWaits.leaveSlot (h : NoneWaits s t) (st : TStatus) : NoneWaits (leaveSlot s t st) t := by
  rw [leaveSlot_eq]
  have off : NoneWaits (offSlot s t st) t := (h.onTask_self _).onCore _ _
  exact (off.of_tasks (tasks_idleCore ..)).dispatch _

/-- With that task gone, none waits. -/
theorem NoneWaits.gone (h : NoneWaits s t) : ∀ p ∈ (s.setTask t Task.none).tasks, p.2.status ≠ .waitMsg := by
  have e : (s.setTask t Task.none).tasks = sdel s.tasks t.toNat := by
    unfold State.setTask sset
    dsimp only
    exact if_pos rfl
  rw [e]
  exact fun p hp => h p (mem_sdel hp) (sdel_keys _ _ p hp)

theorem wakeWhere_idle (h : ∀ p ∈ s.tasks, p.2.status ≠ .waitMsg) (k : Nat) (p : Wait → Bool) : wakeWhere s k p = s := by
  unfold wakeWhere
  rw [List.filter_eq_nil_iff.mpr fun x hx => ?_]
  · rfl
  obtain ⟨q, hq, rfl⟩ := List.mem_map.mp (List.mem_filter.mp hx).1
  simp [h q hq]

theorem wakeLocks_idle (h : ∀ p ∈ s.tasks, p.2.status ≠ .waitMsg) : wakeLocks s = s := by
  unfold wakeLocks
  rw [List.filter_eq_nil_iff.mpr fun x hx => ?_]
  · rfl
  obtain ⟨q, hq, rfl⟩ := List.mem_map.mp hx
  simp [h q hq]

end

/-- The core of a task without the matrix work, the locks and the stores of that task. -/
def unworked (s : State) (t : BitVec 48) : State :=
  ((s.settleBallast (s.task t).core).onCore (s.task t).core fun c =>
      { c with mx0 := c.mx0.filter (fun o => o.task ≠ t), mx1 := c.mx1.filter (fun o => o.task ≠ t) }).onCore (s.task t).core fun c => { c with
    sh0 := c.sh0.release t, sh1 := c.sh1.release t, locks := c.locks.filter (fun l => l.task ≠ t), loop := c.loop.filter fun e => e.task ≠ t }

theorem liftTask_eq {s : State} {t : BitVec 48} (h : NoneWaits s t) (kind : Nat) :
    liftTask s t kind = ((leaveSlot (unworked s t) t .ended).setTask t Task.none, saveOf s t kind) := by
  have off : NoneWaits (unworked s t) t := ((h.onCore _ _).onCore _ _).onCore _ _
  have idle := (off.leaveSlot .ended).gone
  unfold liftTask
  dsimp only
  change (wakeLocks (wakeWhere ((leaveSlot (unworked s t) t .ended).setTask t Task.none) _ _), saveOf s t kind) = _
  rw [wakeWhere_idle idle, wakeLocks_idle idle]

theorem ships_lifted (s : State) (t : BitVec 48) : ((leaveSlot (unworked s t) t .ended).setTask t Task.none).ships = s.ships := by
  have left : Scheduled (unworked s t) (leaveSlot (unworked s t) t .ended) := .leaveSlot (.refl _)
  rw [State.setTask_ships, left.rest]
  unfold unworked State.settleBallast
  rw [State.onCore_ships, State.onCore_ships, State.onCore_ships]

theorem endGroup_rest (s : State) (k : Nat) (j : W32) : (endGroup s k j).ships = s.ships ∧ ∀ t, (endGroup s k j).task t = s.task t := by
  unfold endGroup
  split <;> exact ⟨rfl, fun _ => rfl⟩

/-- The chip with one task more on its way. -/
def shipping (s : State) (e : Nat × Saved) : State := { s with ships := s.ships ++ [e] }

theorem task_shipping (s : State) (e : Nat × Saved) (t : BitVec 48) : (shipping s e).task t = s.task t := rfl

theorem ships_shipping (s : State) (e : Nat × Saved) : (shipping s e).ships = s.ships ++ [e] := rfl

/-- A task on its way, as it left. -/
def onItsWay (s : State) (t : BitVec 48) : State := s.onTask t fun x => { x with ship := none, wait := none, unacked := [] }

theorem NoneWaits.onItsWay {s : State} {t : BitVec 48} (h : NoneWaits s t) : NoneWaits (onItsWay s t) t :=
  h.onTask_self _

theorem ships_onItsWay (s : State) (t : BitVec 48) : (onItsWay s t).ships = s.ships :=
  State.onTask_ships ..

theorem task_saveOf (s : State) (t : BitVec 48) (kind : Nat) : (saveOf s t kind).task = s.task t := rfl

/-- The chip once a lifted task is on its way to a destination. -/
def sendsOff (s : State) (t : BitVec 48) (away : Nat) (lifted : State × Saved) : State :=
  shipping (endGroup lifted.1 (s.task t).core (s.task t).job)
    (away, { lifted.2 with task := { lifted.2.task with job := (s.task t).job, lbLines := [] } })

theorem task_sendsOff (s : State) (t : BitVec 48) (away : Nat) (lifted : State × Saved) : (sendsOff s t away lifted).task t = lifted.1.task t := by
  rw [sendsOff, task_shipping]
  exact (endGroup_rest ..).2 t

theorem ships_sendsOff (s : State) (t : BitVec 48) (away : Nat) (lifted : State × Saved) :
    (sendsOff s t away lifted).ships = lifted.1.ships ++ [(away, { lifted.2 with task := { lifted.2.task with job := (s.task t).job, lbLines := [] } })] := by
  rw [sendsOff, ships_shipping, (endGroup_rest ..).1]

theorem exec_migrationShip {s : State} {j die home : Nat} (ship : (s.task (BitVec.ofNat 48 j)).ship = some (die, home))
    (waits : (s.task (BitVec.ofNat 48 j)).status = .waitMsg) (empty : drained s (BitVec.ofNat 48 j) = true) :
    exec (.migrationShip j) s =
      .next (sendsOff s (BitVec.ofNat 48 j) (die * 80 + home) (liftTask (onItsWay s (BitVec.ofNat 48 j)) (BitVec.ofNat 48 j) 1)) := by
  rw [show exec (.migrationShip j) s = execMigrationShip j s from rfl, execMigrationShip]
  dsimp only
  rw [ship]
  dsimp only
  rw [if_neg (by rw [waits, empty]; decide)]
  rfl

theorem shipped (s : State) (t : BitVec 48) : (onItsWay s t).task t = { s.task t with ship := none, wait := none, unacked := [] } :=
  State.task_onTask_same ..

/-! Quanta (R309) -/

section
variable {s : State} {k : Nat} {i : BitVec 48}

/-- A core of which no issue slot is held, and no high-level task is ready, runs the next base-level task. -/
structure Turns (s : State) (k : Nat) (i : BitVec 48) : Prop where
  high : (s.core k).slotHigh = none
  base : (s.core k).slotBase = none
  ready : (s.core k).readyHigh = []
  next : (s.core k).readyBase.head? = some i
  alone : (s.core k).towerOf = none
  free : (s.core k).suspBy = none

/-- The state in which the next base-level task runs. -/
def turned (s : State) (k : Nat) (i : BitVec 48) : State :=
  (s.onTask i fun x => { x with status := .running, since := s.timebase }).onCore k fun c =>
    { c with slotBase := some i, readyBase := c.readyBase.filter (· ≠ i) }

theorem core_turned (s : State) (k : Nat) (i : BitVec 48) : (turned s k i).core k =
    { s.core k with slotBase := some i, readyBase := (s.core k).readyBase.filter (· ≠ i) } := State.core_onCore_same ..

theorem Turns.dispatch (h : Turns s k i) : ((dispatch s k).core k).slotBase = some i
    ∧ ((dispatch s k).core k).readyBase = (s.core k).readyBase.filter (· ≠ i) ∧ ((dispatch s k).task i).status = .running
    ∧ ∀ v, v ≠ i → (dispatch s k).task v = s.task v := by
  obtain ⟨high, base, ready, next, alone, free⟩ := h
  have e1 : fillHigh s k = s := by
    unfold fillHigh
    rw [high, ready]
  have e2 : nextBase s k = some i := by
    unfold nextBase State.boundTo
    dsimp only
    rw [alone]
    exact next
  have e3 : fillBase s k = turned s k i := by
    unfold fillBase
    rw [high, base, e2]
    rfl
  have core := core_turned s k i
  have e4 : suspender (turned s k i) k = none := by
    unfold suspender
    dsimp only
    rw [core]
    dsimp only
    rw [free, high]
  have e5 : markSuspended (turned s k i) k = ((turned s k i).onTask i fun x => { x with status := .running }).onCore k fun c => { c with suspBy := none } := by
    unfold markSuspended
    rw [core]
    dsimp only
    rw [e4]
    rfl
  have marked : (markSuspended (turned s k i) k).core k = { (turned s k i).core k with suspBy := none } := by
    rw [e5, State.core_onCore_same, State.core_onTask]
  have kept := tasksAndSlots_logSlot (markSuspended (turned s k i) k) k
  have slots : ((logSlot (markSuspended (turned s k i) k) k).core k).slots = ((turned s k i).core k).slots := by
    have same : ((logSlot (markSuspended (turned s k i) k) k).core k).slots = ((markSuspended (turned s k i) k).core k).slots :=
      congrFun (congrArg Prod.snd kept) k
    rw [same, marked]
    rfl
  rw [core] at slots
  have tasks (v : BitVec 48) : (logSlot (markSuspended (turned s k i) k) k).task v = if v = i then { s.task i with status := .running, since := s.timebase } else s.task v := by
    rw [task_of_tasksAndSlots kept, e5, State.task_onCore, State.task_onTask, turned, State.task_onCore, State.task_onCore, State.task_onTask,
      State.task_onTask, if_pos rfl]
    split <;> rfl
  rw [dispatch_eq, e1, e3]
  refine ⟨congrArg (fun x => x.2.1) slots, congrArg (fun x => x.2.2.2) slots, ?_, fun v hv => ?_⟩
  · rw [tasks, if_pos rfl]
  · rw [tasks, if_neg hv]

/-- The state in which a task has given up its slot and stands behind the others of its level. -/
def requeued (s : State) (t : BitVec 48) : State :=
  (s.onTask t fun x => { x with status := .ready, wait := none }).onCore (s.task t).core fun c =>
    let c := unslot c t
    if (s.task t).high then { c with readyHigh := c.readyHigh ++ [t] } else { c with readyBase := c.readyBase ++ [t] }

theorem makeReady_eq (s : State) (t : BitVec 48) : makeReady s t = dispatch (requeued s t) (s.task t).core := rfl

end

section
variable {s : State} {k : Nat} {t i : BitVec 48} {l : List (BitVec 48)} (slot : (s.core k).slotBase = some t) (high : (s.core k).slotHigh = none)
  (ready : (s.core k).readyHigh = []) (alone : (s.core k).towerOf = none) (here : (s.task t).core = k) (low : (s.task t).high = false)
  (free : (s.core k).suspBy = none) (queue : (s.core k).readyBase = i :: l) (out : t ∉ i :: l)
include slot high ready here low queue out

theorem core_requeued : (requeued s t).core k = { s.core k with slotBase := none, readyBase := i :: l ++ [t] } := by
  have rest : (i :: l).filter (· ≠ t) = i :: l := List.filter_eq_self.mpr fun a ha => decide_eq_true fun e => out (e ▸ ha)
  unfold requeued
  rw [here, State.core_onCore_same, State.core_onTask]
  dsimp only
  rw [low, if_neg Bool.false_ne_true]
  unfold unslot
  dsimp only
  rw [high, slot, ready, queue, rest, if_pos rfl, if_neg (by simp)]
  rfl

include alone free

theorem quantum_turn (once : i ∉ l) : ((makeReady s t).core k).slotBase = some i ∧ ((makeReady s t).core k).readyBase = l ++ [t]
    ∧ ((makeReady s t).task t).status = .ready ∧ ((makeReady s t).task i).status = .running := by
  have core := core_requeued slot high ready here low queue out
  have apart : t ≠ i := fun e => out (e ▸ .head _)
  have turns : Turns (requeued s t) k i := by
    refine ⟨?_, ?_, ?_, ?_, ?_, ?_⟩ <;> rw [core]
    · exact high
    · exact ready
    · rfl
    · exact alone
    · exact free
  obtain ⟨base, order, runs, others⟩ := turns.dispatch
  have rest : (i :: l ++ [t]).filter (· ≠ i) = l ++ [t] := by
    rw [List.cons_append, List.filter_cons_of_neg (by simp)]
    refine List.filter_eq_self.mpr fun a ha => decide_eq_true fun e => ?_
    obtain h | h := List.mem_append.mp ha
    · exact once (e ▸ h)
    · exact apart (e ▸ (List.mem_singleton.mp h).symm)
  rw [makeReady_eq, here]
  refine ⟨base, ?_, ?_, runs⟩
  · rw [order, core]
    exact rest
  · rw [others t apart]
    unfold requeued
    rw [State.task_onCore, State.task_onTask_same]

end

/-! Registers at creation (R50) -/

theorem sget_zipIdx_foldl (l : List GVal) (m : Sparse GVal) (n j : Nat) :
    sget .zero ((l.zipIdx n).foldl (fun m (v, i) => sset .zero m (2 + i) v) m) j =
      if 2 + n ≤ j then l.getD (j - (2 + n)) (sget .zero m j) else sget .zero m j := by
  induction l generalizing m n with
  | nil => simp
  | cons v l ih =>
    rw [List.zipIdx_cons, List.foldl_cons, ih]
    simp only [sget_sset]
    by_cases h : j = 2 + n
    · subst h
      rw [if_neg (by omega), if_pos rfl, if_pos (Nat.le_refl _), Nat.sub_self]
      rfl
    · rw [if_neg h]
      by_cases h2 : 2 + n ≤ j
      · rw [if_pos h2, if_pos (by omega), show j - (2 + n) = (j - (2 + (n + 1))) + 1 by omega]
        rfl
      · rw [if_neg h2, if_neg (by omega)]

theorem startRegs_get (base size : Nat) (args : List GVal) (j : Nat) : sget .zero (startRegs base size args) j =
    if 2 ≤ j then (args.take 6).getD (j - 2) .zero else if j = 1 then exactCap g1Perm base size (BitVec.ofNat 64 base) else .zero := by
  unfold startRegs
  rw [sget_zipIdx_foldl, sget_sset]
  by_cases h : 2 ≤ j
  · rw [if_pos h, if_pos h, if_neg (by omega)]
    rfl
  · rw [if_neg h, if_neg h]
    rfl

/-- The values of g1 to g31 of a task as it is created. -/
theorem startRegs_reg {x : Task} {base size : Nat} {args : List GVal} (h : x.g = startRegs base size args) :
    x.reg 1 = exactCap g1Perm base size (BitVec.ofNat 64 base) ∧ (∀ i < 6, x.reg (BitVec.ofNat 5 (2 + i)) = args.getD i .zero)
      ∧ ∀ i, 8 ≤ i → i < 32 → x.reg (BitVec.ofNat 5 i) = .zero := by
  have at_ (j : Nat) (h0 : 0 < j) (hj : j < 32) : x.reg (BitVec.ofNat 5 j) = sget .zero (startRegs base size args) j := by
    have value : (BitVec.ofNat 5 j).toNat = j := by rw [BitVec.toNat_ofNat]; omega
    have nonzero : BitVec.ofNat 5 j ≠ 0 := fun e => by
      have := congrArg BitVec.toNat e
      rw [value] at this
      exact absurd this (by simp; omega)
    rw [Task.reg, if_neg nonzero, value, h]
  refine ⟨(at_ 1 (by decide) (by decide)).trans ?_, fun i hi => ?_, fun i lo hi => ?_⟩
  · rw [startRegs_get]
    rfl
  · rw [at_ _ (by omega) (by omega), startRegs_get, if_pos (by omega), Nat.add_sub_cancel_left, List.getD_eq_getElem?_getD,
      List.getElem?_take_of_lt hi, List.getD_eq_getElem?_getD]
  · rw [at_ _ (by omega) hi, startRegs_get, if_pos (by omega), List.getD_eq_default]
    simp
    omega

/-! Memory under a quiet state log (R435) -/

/-- No core writes its state log, and memory is as before. -/
structure Hushed (s u : State) : Prop where
  quiet : ∀ k, (u.core k).slog.ctl.getLsbD 0 = false
  mem : u.mem = s.mem

section
variable {s u : State} (h : Hushed s u)
include h

theorem Hushed.onTask (t : BitVec 48) (f : Task → Task) : Hushed s (u.onTask t f) := ⟨h.quiet, h.mem⟩

theorem Hushed.setTask (t : BitVec 48) (x : Task) : Hushed s (u.setTask t x) := ⟨h.quiet, h.mem⟩

theorem Hushed.onCore (k : Nat) {f : Core → Core} (hf : ∀ c, (f c).slog.ctl.getLsbD 0 = c.slog.ctl.getLsbD 0) : Hushed s (u.onCore k f) := by
  refine ⟨fun j => ?_, h.mem⟩
  rw [State.core_onCore]
  split
  · rw [hf, h.quiet]
  · exact h.quiet j

theorem Hushed.logSlot (k : Nat) : Hushed s (logSlot u k) := by
  have off : ∀ l : List (List Byte), l.foldl (fun (x : State × Ring) b => ringPut x.1 x.2 b) (u, (u.core k).slog) = (u, (u.core k).slog) := by
    intro l
    induction l with
    | nil => rfl
    | cons b l ih =>
      have one : ringPut u (u.core k).slog b = (u, (u.core k).slog) := if_pos (h.quiet k)
      rw [List.foldl_cons, one, ih]
  unfold Machine.logSlot
  dsimp only
  split
  · exact h
  · rw [off]
    refine ⟨fun j => ?_, h.mem⟩
    rw [State.core_onCore]
    split
    · exact h.quiet k
    · exact h.quiet j

theorem Hushed.fillHigh (k : Nat) : Hushed s (fillHigh u k) := by
  unfold Machine.fillHigh
  split
  · split
    · exact h
    · exact (h.onTask _ _).onCore k fun _ => by rfl
  · exact h

theorem Hushed.fillBase (k : Nat) : Hushed s (fillBase u k) := by
  unfold Machine.fillBase
  split
  · exact (h.onTask _ _).onCore k fun _ => by rfl
  · exact h

theorem Hushed.markSuspended (k : Nat) : Hushed s (markSuspended u k) := by
  unfold Machine.markSuspended
  split
  · exact (h.onTask _ _).onCore k fun _ => by rfl
  · exact h.onCore k fun _ => by rfl

theorem Hushed.dispatch (k : Nat) : Hushed s (dispatch u k) := by
  rw [dispatch_eq]
  exact (((h.fillHigh k).fillBase k).markSuspended k).logSlot k

theorem Hushed.makeReady (t : BitVec 48) : Hushed s (makeReady u t) := by
  unfold Machine.makeReady
  refine ((h.onTask t _).onCore _ fun c => ?_).dispatch _
  dsimp only
  split <;> rfl

theorem Hushed.releaseHeld (k : Nat) : Hushed s (releaseHeld u k) := by
  have fold : ∀ (l : List Task) (v : State), Hushed s v → Hushed s (l.foldl (fun s t =>
      Machine.makeReady (s.onCore k fun c => { c with gov := { c.gov with rampw := c.gov.rampw + BitVec.ofNat 48 (u.timebase - t.since).toNat } }) t.gtid) v) := by
    intro l
    induction l with
    | nil => exact fun v hv => hv
    | cons t l ih => exact fun v hv => ih _ ((hv.onCore k fun _ => by rfl).makeReady t.gtid)
  exact fold _ u h

end

/-! Admission (R306, R307) -/

/-- What granting resources leaves of the cores. -/
structure Granting (s u : State) : Prop where
  chip : u.chip = s.chip
  serial : ∀ k, (u.core k).serial = (s.core k).serial
  runBase : ∀ k, (u.core k).runBase = (s.core k).runBase
  slog : ∀ k, (u.core k).slog = (s.core k).slog

theorem Granting.refl (s : State) : Granting s s := ⟨rfl, fun _ => rfl, fun _ => rfl, fun _ => rfl⟩

/-- A core with other tiles, counters and groups. -/
def Core.Granted (c d : Core) : Prop := d.serial = c.serial ∧ d.runBase = c.runBase ∧ d.slog = c.slog

theorem Granting.onCore {s u : State} (h : Granting s u) (k : Nat) {f : Core → Core} (hf : ∀ c : Core, c.Granted (f c)) : Granting s (u.onCore k f) := by
  refine ⟨h.chip, fun j => ?_, fun j => ?_, fun j => ?_⟩ <;> rw [State.core_onCore] <;> split
  · next e => rw [(hf _).1, ← e, h.serial]
  · exact h.serial j
  · next e => rw [(hf _).2.1, ← e, h.runBase]
  · exact h.runBase j
  · next e => rw [(hf _).2.2, ← e, h.slog]
  · exact h.slog j

theorem granted_foldl {α : Type} {f : Core → α → Core} (hf : ∀ (c : Core) a, c.Granted (f c a)) (l : List α) (c : Core) : c.Granted (l.foldl f c) := by
  induction l generalizing c with
  | nil => exact ⟨rfl, rfl, rfl⟩
  | cons a l ih =>
    obtain ⟨h1, h2, h3⟩ := hf c a
    obtain ⟨k1, k2, k3⟩ := ih (f c a)
    exact ⟨k1.trans h1, k2.trans h2, k3.trans h3⟩

theorem Granting.takeGrant {s u : State} (h : Granting s u) (k : Nat) (job : W32) (r : Grant) (target : Nat) : Granting s (takeGrant u k job r target) := by
  have tiles : Granting s (u.onCore k fun c => r.tiles.foldl (fun c i => putTile c i []) c) :=
    h.onCore k fun c => granted_foldl (f := fun c i => putTile c i []) (fun _ _ => ⟨rfl, rfl, rfl⟩) r.tiles c
  unfold Machine.takeGrant
  dsimp only
  split
  · next l _ =>
    refine tiles.onCore k fun c => ?_
    exact granted_foldl (f := fun c i => { c with counters := sset Counter.zero c.counters i { Counter.zero with target := BitVec.ofNat 32 target } })
      (fun _ _ => ⟨rfl, rfl, rfl⟩) l c
  · exact tiles

theorem Granting.foldl {α : Type} {f : State → α → State} {s u : State} {l : List α} (h : Granting s u)
    (hf : ∀ v a, Granting s v → Granting s (f v a)) : Granting s (l.foldl f u) := by
  induction l generalizing u with
  | nil => exact h
  | cons a l ih => exact ih (hf u a h)

theorem Granting.onJobs {s u : State} (h : Granting s u) (job : W32) (f : Job → Job) : Granting s (u.onJob job f) := ⟨h.chip, h.serial, h.runBase, h.slog⟩

theorem Granting.restoreGroup {s u : State} (h : Granting s u) (k : Nat) (job : W32) : Granting s (restoreGroup u k job) := by
  unfold Machine.restoreGroup
  dsimp only
  split
  · refine Granting.onJobs ?_ job _
    refine h.foldl fun v p hv => ?_
    split
    · exact hv.onCore k fun _ => ⟨rfl, rfl, rfl⟩
    · exact hv
  · exact h

/-- The state in which the head of a run queue has left it and holds what it was granted. -/
def granted (s : State) (k : Nat) (d : TaskDesc) (r : Grant) : State :=
  let u := takeGrant (popBase s k) k d.job r (if d.launched then d.onCore else 0)
  if r.slots.isSome then restoreGroup u k d.job else u

theorem granting_granted (s : State) (k : Nat) (d : TaskDesc) (r : Grant) : Granting (popBase s k) (granted s k d r) := by
  have taken : Granting (popBase s k) (takeGrant (popBase s k) k d.job r (if d.launched then d.onCore else 0)) := (Granting.refl _).takeGrant ..
  unfold granted
  dsimp only
  split
  · exact taken.restoreGroup ..
  · exact taken

theorem admitStart_active {s : State} {k : Nat} (h : (s.core k).gov.kind = .active) (job : W32) (pinned : Bool) :
    admitStart s k job pinned = (s, true) := by
  have started (p : Bool) : govStart s k p = (s, true) := by
    unfold govStart
    rw [h]
  unfold admitStart
  dsimp only
  rw [h, started]
  rfl

theorem admitDesc_active {s : State} {k : Nat} {d : TaskDesc} {h : W64} {r : Grant} (header : headerOf s k d.asid d.entry.bits = some h)
    (grant : grantFor s k d.job h none = some r) (active : (s.core k).gov.kind = .active) :
    admitDesc s k d =
      releaseHeld (startTask (granted s k d r) (newTask (granted s k d r) k d h r.tiles r.spad (h.extractLsb' 32 20).toNat) none) k := by
  unfold admitDesc
  dsimp only
  rw [header, Option.getD_some, grant]
  dsimp only
  rw [admitStart_active active]
  rfl

theorem exec_admission {s : State} {k : Nat} {d : TaskDesc} {rest : List RunEntry} (alone : (s.core k).towerOf = none) (up : s.coreUp k = true)
    (high : (s.core k).runHigh = []) (head : (s.core k).runBase = .desc d :: rest) (free : jobHeld s d.job = false) :
    exec (.taskAdmission k) s = .next (admitDesc s k d) := by
  rw [show exec (.taskAdmission k) s = execTaskAdmission k s from rfl, execTaskAdmission]
  rw [alone, up, high, head, if_neg (by decide)]
  change Host.Outcome.next (if jobHeld s d.job = true then s else admitDesc s k d) = _
  rw [if_neg (by rw [free]; decide)]

theorem exec_admission_tower {s : State} {k : Nat} (held : (s.core k).towerOf ≠ none) : exec (.taskAdmission k) s = .next s := by
  have bound : ((s.core k).towerOf.isSome || !s.coreUp k) = true := by rw [Option.isSome_iff_ne_none.mpr held, Bool.true_or]
  rw [show exec (.taskAdmission k) s = execTaskAdmission k s from rfl, execTaskAdmission]
  rw [if_pos bound]

theorem sget_absent {α : Type} {d : α} {m : List (Nat × α)} {n : Nat} (h : ∀ e ∈ m, e.1 ≠ n) : sget d m n = d := by
  induction m with
  | nil => rfl
  | cons e m ih => rw [sget, if_neg fun k => h e (.head _) k.symm, ih fun q hq => h q (.tail _ hq)]

theorem byte_clearRange {s : State} {o n a : Nat} (lo : o ≤ a) (hi : a < o + n) : (clearRange s o n).byte a = 0 := by
  refine sget_absent fun e he => ?_
  have kept := (List.mem_filter.mp he).2
  rintro rfl
  simp [lo, hi] at kept

/-- The state in which a new task stands, before it is made ready. -/
def stored (s : State) (x : Task) : State :=
  ((clearRange s (spadPa x.core + x.spadBase) x.spadSize).onCore x.core fun c => { c with serial := c.serial + 1 }).setTask x.gtid x

theorem startTask_eq (s : State) (x : Task) : startTask s x none = makeReady (stored s x) x.gtid := rfl

theorem core_setTask (s : State) (t : BitVec 48) (x : Task) (k : Nat) : (s.setTask t x).core k = s.core k := rfl

theorem core_clearRange (s : State) (o n k : Nat) : (clearRange s o n).core k = s.core k := rfl

theorem core_stored (s : State) (x : Task) : (stored s x).core x.core = { s.core x.core with serial := (s.core x.core).serial + 1 } := by
  rw [stored, core_setTask, State.core_onCore_same, core_clearRange]

/-- Everything that scheduling may change apart, a task is stored as it was created. -/
theorem started (s : State) (x : Task) (k : Nat) : Scheduled (stored s x) (releaseHeld (startTask s x none) k) := by
  rw [startTask_eq, releaseHeld]
  exact .releaseHeldAt (.makeReady (.refl _))

theorem hushed_started {s : State} (quiet : ∀ j, (s.core j).slog.ctl.getLsbD 0 = false) (x : Task) (k : Nat) :
    (releaseHeld (startTask s x none) k).mem = (clearRange s (spadPa x.core + x.spadBase) x.spadSize).mem := by
  have cleared : Hushed (clearRange s (spadPa x.core + x.spadBase) x.spadSize) (clearRange s (spadPa x.core + x.spadBase) x.spadSize) := ⟨quiet, rfl⟩
  have ready := ((cleared.onCore x.core (f := fun c => { c with serial := c.serial + 1 }) fun _ => by rfl).setTask x.gtid x).makeReady x.gtid
  rw [startTask_eq]
  exact (ready.releaseHeld k).mem

section
variable {s : State} {k : Nat} {d : TaskDesc} {h : W64} {r : Grant} {rest : List RunEntry} (head : (s.core k).runBase = .desc d :: rest)

/-- The task that an admission creates. -/
def admitted (s : State) (k : Nat) (d : TaskDesc) (h : W64) (r : Grant) : Task :=
  newTask (granted s k d r) k d h r.tiles r.spad (h.extractLsb' 32 20).toNat

theorem admitted_gtid (s : State) (k : Nat) (d : TaskDesc) (h : W64) (r : Grant) :
    (admitted s k d h r).gtid = mkGtid s.chip k (s.core k).serial := by
  have granting := granting_granted s k d r
  change mkGtid (granted s k d r).chip k ((granted s k d r).core k).serial = _
  rw [granting.chip, granting.serial, popBase, State.core_onCore_same, State.onCore_chip]

include head

theorem core_admitted : ((stored (granted s k d r) (admitted s k d h r)).core k).runBase = rest
    ∧ ((stored (granted s k d r) (admitted s k d h r)).core k).serial = (s.core k).serial + 1 := by
  have granting := granting_granted s k d r
  have popped : (popBase s k).core k = { s.core k with runBase := rest } := by
    rw [popBase, State.core_onCore_same, head]
    rfl
  have same : (stored (granted s k d r) (admitted s k d h r)).core k = { (granted s k d r).core k with serial := ((granted s k d r).core k).serial + 1 } :=
    core_stored (granted s k d r) (admitted s k d h r)
  rw [same]
  exact ⟨by rw [granting.runBase, popped], by rw [granting.serial, popped]⟩

end

/-- Memory, the core and the task after an admission. -/
theorem admission_leaves {s : State} {k : Nat} {d : TaskDesc} {h : W64} {r : Grant} {rest : List RunEntry} (head : (s.core k).runBase = .desc d :: rest)
    (quiet : ∀ j, (s.core j).slog.ctl.getLsbD 0 = false) :
    let u := releaseHeld (startTask (granted s k d r) (admitted s k d h r) none) k
    (u.core k).runBase = rest ∧ (u.core k).serial = (s.core k).serial + 1 ∧ (admitted s k d h r).Rescheduled (u.task (mkGtid s.chip k (s.core k).serial))
      ∧ ∀ a, spadPa k + r.spad ≤ a → a < spadPa k + r.spad + (h.extractLsb' 32 20).toNat → u.byte a = 0 := by
  have granting := granting_granted s k d r
  obtain ⟨base, serial⟩ := core_admitted (d := d) (h := h) (r := r) head
  have scheduled := started (granted s k d r) (admitted s k d h r) k
  have hushed : ∀ j, ((granted s k d r).core j).slog.ctl.getLsbD 0 = false := by
    intro j
    rw [granting.slog, popBase, State.core_onCore]
    split
    · exact quiet k
    · exact quiet j
  have mem := hushed_started hushed (admitted s k d h r) k
  have task := scheduled.task (mkGtid s.chip k (s.core k).serial)
  rw [show (stored (granted s k d r) (admitted s k d h r)).task (mkGtid s.chip k (s.core k).serial) = admitted s k d h r by
    rw [stored, admitted_gtid, State.task_setTask_same]] at task
  have core := scheduled.core k
  dsimp only
  generalize releaseHeld (startTask (granted s k d r) (admitted s k d h r) none) k = u at *
  refine ⟨by rw [core, base], by rw [core, serial], task, fun a lo hi => ?_⟩
  have cleared : (clearRange (granted s k d r) (spadPa k + r.spad) (h.extractLsb' 32 20).toNat).byte a = 0 := byte_clearRange lo hi
  rw [State.byte, mem]
  exact cleared

/-- What a new task is, wherever its schedule stands. -/
theorem admitted_fields {s : State} {k : Nat} {d : TaskDesc} {h : W64} {r : Grant} {z : Task} (e : (admitted s k d h r).Rescheduled z) :
    z.job = d.job ∧ z.asid = d.asid ∧ z.khdr = h ∧ z.core = k ∧ z.tiles = r.tiles ∧ z.spadBase = r.spad
      ∧ z.pcc = ⟨permEx ++ d.entry.bits.extractLsb' 0 120, .mem⟩ ∧ z.sup.priv = entrySv d.entry.bits ∧ z.p = 1
      ∧ z.m = [(0, BitVec.allOnes 64)] ∧ z.g = startRegs r.spad (h.extractLsb' 32 20).toNat d.args := by
  unfold admitted newTask at e
  unfold Task.Rescheduled at e
  rw [e]
  exact ⟨rfl, rfl, rfl, rfl, rfl, rfl, rfl, rfl, rfl, rfl, rfl⟩

theorem exec_quantum {s : State} {k : Nat} {t : BitVec 48} (slot : (s.core k).slotBase = some t) (runs : (s.task t).status = .running)
    (more : (s.core k).readyBase ≠ []) (plain : (s.task t).tower = []) :
    exec (.quantumExpiry k) s = .next (if 65536 ≤ (s.timebase - (s.task t).since).toNat then makeReady s t else s) := by
  rw [show exec (.quantumExpiry k) s = execQuantumExpiry k s from rfl, execQuantumExpiry]
  dsimp only
  rw [slot]
  dsimp only
  refine congrArg Host.Outcome.next (if_congr ?_ rfl rfl)
  simp [runs, more, plain]

theorem exec_migrationArrival {s : State} {k home j : Nat} {v : Saved} (at_ : s.ships[k]? = some (home, v)) (goes : shipCore s v home = some j) :
    exec (.migrationArrival k) s =
      .next (State.onCore { s with ships := s.ships.eraseIdx k } j fun x => { x with runBase := x.runBase ++ [RunEntry.saved v] }) := by
  rw [show exec (.migrationArrival k) s = execMigrationArrival k s from rfl, execMigrationArrival, at_]
  dsimp only
  rw [goes]

/-- A task as it leaves for its home cluster, and the chip that it leaves. -/
theorem shipment {s : State} {t : BitVec 48} (away : Nat) (idle : NoneWaits s t) :
    let u := sendsOff s t away (liftTask (onItsWay s t) t 1)
    u.task t = Task.none ∧ ∃ v, u.ships = s.ships ++ [(away, v)] ∧ v.task.gtid = (s.task t).gtid ∧ v.task.job = (s.task t).job
      ∧ v.task.pcc = (s.task t).pcc ∧ v.task.g = (s.task t).g ∧ v.task.v = (s.task t).v ∧ v.task.arrived = (s.task t).arrived := by
  have sent := ships_sendsOff s t away (liftTask (onItsWay s t) t 1)
  have gone := task_sendsOff s t away (liftTask (onItsWay s t) t 1)
  have saved : (liftTask (onItsWay s t) t 1).2.task = { s.task t with ship := none, wait := none, unacked := [] } := by
    rw [liftTask_eq idle.onItsWay, task_saveOf, shipped]
  rw [saved] at sent
  rw [liftTask_eq idle.onItsWay, ships_lifted, ships_onItsWay, ← liftTask_eq idle.onItsWay] at sent
  rw [liftTask_eq idle.onItsWay, State.task_setTask_same, ← liftTask_eq idle.onItsWay] at gone
  exact ⟨gone, _, sent, rfl, rfl, rfl, rfl, rfl, rfl⟩

/-- A held error of an unreachable destination, and the state that the answer leaves. -/
theorem podError_leaves (s : State) {d : TaskDesc} (w : W64) (alive : (s.task d.by_).status ≠ .ended) :
    let u := finishPreempt (raiseAsync (jobLower s d.job) d.by_ .busError w) d.job
    u.net = s.net ∧ (u.job d.job).count = (s.job d.job).count - 1 ∧ (u.task d.by_).held = (s.task d.by_).held ++ [⟨0x18, w⟩] := by
  have lowered : (jobLower s d.job).task d.by_ = s.task d.by_ := rfl
  have net : (jobLower s d.job).net = s.net := rfl
  have count := count_jobLower s d.job
  have held := raiseAsync_held (s := jobLower s d.job) (t := d.by_) (c := .busError) w (by rw [lowered]; exact alive) (by decide)
  generalize jobLower s d.job = v at *
  dsimp only
  rw [held]
  have saves := (Saves.refl (v.onTask d.by_ fun x => { x with held := x.held ++ [⟨causeCode .busError, w⟩] })).finishPreempt d.job
  refine ⟨saves.net.trans net, (saves.count d.job).trans count, ?_⟩
  rw [State.task, saves.tasks, ← State.task, State.task_onTask_same, lowered]
  rfl

/-- Settles O38: each event by its queue, admission by what its grant leaves, a turn by the dispatch of its core, shipment by the state that it lifts. -/
theorem tasksArriveAreAdmittedAndMove : Obligations.TasksArriveAreAdmittedAndMove := by
  unfold Obligations.TasksArriveAreAdmittedAndMove
  intro s core k j m d w h rest r t v die home y tid quiet x
  refine ⟨?_, ?_, ?_, ?_, ?_, ?_, ?_, ?_⟩
  · intro arrives body request plain there
    refine ⟨fun up room => ⟨fun alive => ?_, fun killing spawn => ?_⟩, fun full => exec_taskArrival_waits arrives body request there full⟩
    · obtain ⟨net, base⟩ := queueDesc_base (unnet s k) m.dst.core plain
      refine ⟨_, exec_taskArrival arrives body request there up room, ?_⟩
      rw [if_neg alive]
      exact ⟨net, base⟩
    · have same : dropDesc (unnet s k) m.dst.core d = unnet s k := if_neg (by rw [spawn]; decide)
      refine (exec_taskArrival arrives body request there up room).trans ?_
      rw [if_pos killing, same]
      rfl
  · intro alone up high head free header grant active quiet_
    obtain ⟨base, serial, task, bytes⟩ := admission_leaves (h := h) (r := r) head quiet_
    have run : exec (.taskAdmission core) s = .next (releaseHeld (startTask (granted s core d r) (admitted s core d h r) none) core) := by
      rw [exec_admission alone up high head free, admitDesc_active header grant active]
      rfl
    refine ⟨_, run, base, serial, ?_⟩
    clear run
    generalize (releaseHeld (startTask (granted s core d r) (admitted s core d h r) none) core) = u at *
    obtain ⟨job, asid, khdr, here, tiles, spad, pcc, level, p, m, g⟩ := admitted_fields task
    obtain ⟨first, args, others⟩ := startRegs_reg g
    refine ⟨job, asid, khdr, here, tiles, spad, pcc, level, p, ?_, first, args, others, bytes⟩
    rw [Task.mask, m]
    rfl
  · exact exec_admission_tower
  · intro i l slot high ready alone here low free runs tower queue out once
    have run := exec_quantum slot runs (by rw [queue]; exact List.cons_ne_nil _ _) tower
    refine ⟨fun late => ⟨_, run, ?_⟩, fun within => run.trans ?_⟩
    · rw [if_pos late]
      exact quantum_turn slot high ready alone here low free queue out once
    · rw [if_neg (Nat.not_le.mpr within)]
  · intro e ship waits empty idle
    subst e
    exact ⟨_, exec_migrationShip ship waits empty, shipment _ idle⟩
  · intro at_ goes
    refine ⟨_, exec_migrationArrival at_ goes, rfl, ?_⟩
    rw [State.core_onCore_same]
    rfl
  · exact fun at_ body far cut => ⟨_, exec_podDiscard at_ body far cut, rfl⟩
  · intro arrives body spawn alive
    obtain ⟨net, count, held⟩ := podError_leaves (unnet s k) w alive
    exact ⟨_, exec_podError arrives body spawn, net, count, held⟩

end Sys2Proof.Machine
end

section
/-! PROOFS. The lanes of vector loads and stores (R192 to R196): their addresses, what their checks leave, and packed registers. -/

namespace Sys2Proof.Machine

open Sys2Proof.Safety Sys2Proof.Laws

/-! The checks of lanes (R196) -/

theorem stopsHere_check4 (s : State) (a : W64) (n : Nat) (write : Bool) : StopsHere (check4 s a n write) :=
  stopsHere_lockStop _ _

theorem stopsHere_checkLanes (s : State) (c : GVal) (perm : Byte) (scaled write : Bool) (ls : List VLane) :
    StopsHere (checkLanes s c perm scaled write ls) := by
  induction ls with
  | nil => exact stopsHere_ok ()
  | cons l ls ih =>
    exact stopsHere_bind (stopsHere_check1 _ _ _ _ _) fun _ => stopsHere_bind (stopsHere_failIf _ .refl) fun _ =>
      stopsHere_bind (stopsHere_check2 _ _) fun _ => stopsHere_bind (stopsHere_failIf _ .refl) fun _ =>
      stopsHere_bind (stopsHere_check3 _ _ _ _) fun _ => stopsHere_bind (stopsHere_check4 _ _ _ _) fun _ => ih

theorem stopsHere_watchLanes (s : State) (u : Use) (ls : List VLane) : StopsHere (watchLanes s u ls) := by
  induction ls with
  | nil => exact stopsHere_ok ()
  | cons l ls ih => exact stopsHere_bind (stopsHere_checkWatch _ _ _ _) fun _ => ih

theorem placeLanes_view {u : Use} {s t : State} {ls : List VLane} {ps : List (VLane × Nat)} (h : placeLanes s u ls = .ok (t, ps)) :
    PlacedView s t ∧ ps.map Prod.fst = ls := by
  induction ls generalizing s t ps with
  | nil => cases h; exact ⟨.refl s, rfl⟩
  | cons l ls ih =>
    unfold placeLanes at h
    simp only [bind, Except.bind] at h
    split at h
    · cases h
    · next r hr =>
      split at h
      · cases h
      · next q hq =>
        obtain ⟨s1, pa⟩ := q
        split at h
        · cases h
        · next q hq' =>
          obtain ⟨s2, rest⟩ := q
          cases h
          obtain ⟨view, lanes⟩ := ih hq'
          have hr : place s l.a l.n u = .ok (s1, .mem pa) := hr.trans (congrArg _ (memTarget_ok hq))
          exact ⟨(place_view hr).trans view, congrArg (l :: ·) lanes⟩

theorem placeLanes_unwritten {u : Use} {s : State} {ls : List VLane} {st : Stop} (h : placeLanes s u ls = .error st) : Unwritten s st := by
  induction ls generalizing s with
  | nil => cases h
  | cons l ls ih =>
    unfold placeLanes at h
    simp only [bind, Except.bind] at h
    split at h
    · next hp => cases h; exact place_unwritten hp
    · next r hr =>
      split at h
      · next hm => cases h; exact .trans (place_view hr) (memTarget_unwritten hm)
      · next q hq =>
        obtain ⟨s1, pa⟩ := q
        rw [memTarget_ok hq] at hr
        split at h
        · next ht => cases h; exact .trans (place_view hr) (ih ht)
        · cases h

section
variable {s : State} {c : GVal} {perm : Byte} {f : Nat} {u : Use} {ls : List VLane}

theorem resolveLanes_view {t : State} {ps : List (VLane × Nat)} (h : resolveLanes s c perm f u ls = .ok (t, ps)) :
    PlacedView s t ∧ ps.map Prod.fst = ls := by
  unfold resolveLanes at h
  simp only [bind, Except.bind] at h
  split at h
  · cases h
  · split at h
    · cases h
    · split at h
      · cases h
      · next hs =>
        obtain ⟨view, lanes⟩ := placeLanes_view h
        exact ⟨(translateEach_view hs).trans view, lanes⟩

theorem resolveLanes_unwritten {st : Stop} (h : resolveLanes s c perm f u ls = .error st) : Unwritten s st := by
  unfold resolveLanes at h
  simp only [bind, Except.bind] at h
  split at h
  · next he => cases h; exact stopsHere_checkLanes _ _ _ _ _ _ _ he s
  · split at h
    · next he => cases h; exact stopsHere_watchLanes _ _ _ _ he s
    · split at h
      · next he => cases h; exact translateEach_unwritten he
      · next he => exact .trans (translateEach_view he) (placeLanes_unwritten h)

end

/-! Addresses of lanes (R192, R193) -/

/-- The active lanes of a mask, of so many. -/
def lanesOn (x : Task) (m : BitVec 2) (n : Nat) : List Nat := (List.range n).filter fun k => (x.mask m).getLsbD k

theorem rowLanes_raw (x : Task) (m : BitVec 2) (base : W64) :
    rowLanes x m 0 base = (lanesOn x m 64).map fun k => ⟨k, base + BitVec.ofNat 64 k, 1, 1, none, false, base.toNat % 16 ≠ 0⟩ := rfl

/-- A lane of a row outside the plane windows. -/
def rowLane (f : Nat) (base : W64) (k : Nat) : VLane :=
  if rawBits f = 4 then ⟨k, base + BitVec.ofNat 64 (k / 2), 1, 1, some (k % 2 = 1), false, false⟩
  else laneAt f k (base + BitVec.ofNat 64 (k * max 1 (rawBits f / 8))) none

theorem rowLanes_plain {f : Nat} (x : Task) (m : BitVec 2) {base : W64} (hf : f ≠ 0) (hw : planeWin base = none) :
    rowLanes x m f base = (lanesOn x m (fmtLanes f)).map (rowLane f base) := by
  unfold rowLanes
  rw [if_neg hf, hw]
  rfl

theorem rowLane_fields {f : Nat} (base : W64) (k : Nat) (h : 8 ≤ rawBits f) :
    ((rowLane f base k).k, (rowLane f base k).a) = (k, base + BitVec.ofNat 64 (k * (rawBits f / 8))) := by
  rw [rowLane, if_neg (by omega), Nat.max_eq_right (by omega)]
  rfl

theorem rowLane_nibble {f : Nat} (base : W64) (k : Nat) (h : rawBits f = 4) :
    ((rowLane f base k).k, (rowLane f base k).a, (rowLane f base k).nib) = (k, base + BitVec.ofNat 64 (k / 2), some (decide (k % 2 = 1))) := by
  rw [rowLane, if_pos h]

/-- A lane at an offset from a cursor. -/
def offsetLane (f : Nat) (c : W64) (off : Nat → W64) (k : Nat) : VLane :=
  if rawBits f = 4 then laneAt f k (c + (off k).sshiftRight 1) (some ((off k).getLsbD 0)) else laneAt f k (c + off k) none

theorem offsetLanes_eq (x : Task) (m : BitVec 2) (f : Nat) (c : W64) (off : Nat → W64) :
    offsetLanes x m f c off = (lanesOn x m (fmtLanes f)).map (offsetLane f c off) := rfl

theorem offsetLane_fields {f : Nat} (c : W64) (off : Nat → W64) (k : Nat) (h : rawBits f ≠ 4) :
    ((offsetLane f c off k).k, (offsetLane f c off k).a) = (k, c + off k) := by
  rw [offsetLane, if_neg h]
  rfl

theorem sshiftRight_one (x : W64) : x.sshiftRight 1 = BitVec.ofInt 64 (x.toInt / 2) := by
  apply BitVec.eq_of_toInt_eq
  rw [BitVec.toInt_sshiftRight, Int.shiftRight_eq_div_pow, BitVec.toInt_ofInt]
  have lo := BitVec.le_toInt x
  have hi := BitVec.toInt_lt (x := x)
  rw [Int.bmod_eq_of_le] <;> omega

theorem offsetLane_nibble {f : Nat} (c : W64) (off : Nat → W64) (k : Nat) (h : rawBits f = 4) :
    ((offsetLane f c off k).k, (offsetLane f c off k).a, (offsetLane f c off k).nib)
      = (k, c + BitVec.ofInt 64 ((off k).toInt / 2), some (decide ((off k).toNat % 2 = 1))) := by
  rw [offsetLane, if_pos h, ← sshiftRight_one]
  simp [laneAt, BitVec.getLsbD]

/-! Packed registers (R181) -/

theorem packNat_lane {w : Nat} (l : List Nat) (k : Nat) : packNat w l / 2 ^ (w * k) % 2 ^ w = l.getD k 0 % 2 ^ w := by
  induction l generalizing k with
  | nil => simp [packNat]
  | cons x l ih =>
    have low : x % 2 ^ w < 2 ^ w := Nat.mod_lt _ (Nat.two_pow_pos w)
    rw [packNat]
    cases k with
    | zero => rw [Nat.mul_zero, Nat.pow_zero, Nat.div_one, Nat.add_mul_mod_self_left, Nat.mod_mod]; rfl
    | succ k =>
      rw [Nat.mul_succ, Nat.add_comm (w * k), Nat.pow_add, ← Nat.div_div_eq_div_mul, Nat.add_mul_div_left _ _ (Nat.two_pow_pos w),
        Nat.div_eq_of_lt low, Nat.zero_add, ih]
      rfl

theorem laneOf_packLanes {w k : Nat} (l : List Nat) (h : w * k + w ≤ 512) : laneOf (packLanes w l) w k = l.getD k 0 % 2 ^ w := by
  rw [← packNat_lane, laneOf, packLanes, BitVec.extractLsb'_toNat, BitVec.toNat_ofNat, Nat.shiftRight_eq_div_pow]
  rw [show 512 = w * k + (512 - w * k) by omega, Nat.pow_add, Nat.mod_mul_right_div_self, Nat.mod_mod_of_dvd]
  exact Nat.pow_dvd_pow 2 (by omega)

theorem laneOf_lt (v : W512) (w k : Nat) : laneOf v w k < 2 ^ w := BitVec.isLt _

end Sys2Proof.Machine
end

section
/-! PROOFS. Vector loads (R192 to R196, R356): what reaches the register and the vector queue. -/

namespace Sys2Proof.Machine

open Sys2Proof.Safety Sys2Proof.Laws

/-! Entry into the vector queue (R177) -/

theorem vecEnter_room {s : State} (room : s.me.vecq.length < 16) (fl : Flags) (ue : Option W64) : vecEnter s fl ue = .ok (enqueued s fl ue) :=
  if_neg (by omega)

theorem accessed_vecq {s t : State} (h : Accessed s t) : t.me.vecq = s.me.vecq := by
  unfold State.me
  rw [show t.cur = s.cur by rw [h.1], h.2.2.1 s.cur]

theorem SameView.enqueued {s u : State} (h : SameView s u) {fl : Flags} {ue : Option W64} : SameView s (enqueued u fl ue) :=
  h.onCore fun _ => ⟨rfl, rfl, rfl⟩

/-- One more entry on both sides. -/
theorem accessed_enqueued {s t : State} (h : Accessed s t) (fl : Flags) (ue : Option W64) : Accessed (enqueued s fl ue) (enqueued t fl ue) := by
  have tid := accessed_curTid h
  have cur : t.cur = s.cur := by rw [h.1]
  obtain ⟨rest, task, core, cluster, die⟩ := h
  have own : (enqueued s fl ue).curTid = s.curTid := (SameView.refl s).enqueued.tid
  refine ⟨?_, own ▸ task, fun k => ?_, cluster, die⟩
  · exact congrArg (fun v : State => { v with cores := (enqueued t fl ue).cores }) rest
  · unfold enqueued
    rw [State.core_onCore, State.core_onCore, cur, tid]
    split
    · rw [core s.cur]
    · exact core k

/-- An access that its task's advance completes, with its entry. -/
theorem queuedAccess {s u : State} {i : Instr} {len : Nat} {f : Task → Task} {fl : Flags} {ue : Option W64} {m : State → Prop} {x : Task}
    (h : exec i s = .next (enqueued u fl ue)) (acc : Accessed s u) (hm : m (enqueued u fl ue)) (hx : Counted s.curTask x)
    (hu : u.curTask = (f x).advance len) : QueuedAccess i len s f fl ue m := by
  refine ⟨_, x, h, accessed_enqueued acc fl ue, hm, hx, ?_⟩
  rw [← accessed_curTid acc, show (enqueued u fl ue).task u.curTid = (f x).advance len from hu]
  exact Task.advance_retired _ _

theorem curTask_onCur (u : State) (f : Task → Task) : (u.onCur f).curTask = f u.curTask := by
  unfold State.curTask
  rw [State.onCur, State.curTid_onTask, State.task_onTask_same]

theorem byte_enqueued (u : State) (fl : Flags) (ue : Option W64) (b : Nat) : (enqueued u fl ue).byte b = u.byte b :=
  (SameView.refl u).enqueued.byte b

/-! Energy of lanes (R422) -/

theorem SameView.chargeLanes {s u : State} (h : SameView s u) {write : Bool} {ps : List (VLane × Nat)} : SameView s (chargeLanes u write ps) := by
  have step {α : Type} {f : State → α → State} (hf : ∀ x a, SameView x (f x a)) {y : State} (k : SameView s y) (l : List α) :
      SameView s (l.foldl f y) := by
    induction l generalizing y with
    | nil => exact k
    | cons a l ih => exact ih (k.trans (hf y a))
  unfold Machine.chargeLanes
  refine step (fun x w => ?_) (step (fun x p => ?_) h _) _
  all_goals
    split
    · exact .chargeOut (.refl x)
    · exact .chargeCur (.refl x)

theorem Stores.chargeLanes {s u : State} (h : Stores s u) {write : Bool} {ps : List (VLane × Nat)} : Stores s (chargeLanes u write ps) := by
  unfold Machine.chargeLanes
  refine .foldl (fun x w => ?_) (.foldl (fun x p => ?_) h _) _
  all_goals
    split
    · exact .chargeOut (.refl x)
    · exact .chargeCur (.refl x)

/-! Failed channels leave the vector queues -/

/-- The vector queues of the chip are as they were. -/
structure QueuesKept (s u : State) : Prop where
  cur : u.cur = s.cur
  vecq : ∀ k, (u.core k).vecq = (s.core k).vecq

theorem QueuesKept.refl (s : State) : QueuesKept s s := ⟨rfl, fun _ => rfl⟩

theorem QueuesKept.trans {s u v : State} (h : QueuesKept s u) (k : QueuesKept u v) : QueuesKept s v :=
  ⟨k.cur.trans h.cur, fun j => (k.vecq j).trans (h.vecq j)⟩

theorem QueuesKept.me {s u : State} (h : QueuesKept s u) : u.me.vecq = s.me.vecq := by
  unfold State.me
  rw [h.cur, h.vecq]

theorem QueuesKept.foldl {α : Type} {f : State → α → State} (hf : ∀ x a, QueuesKept x (f x a)) {s u : State} (h : QueuesKept s u) (l : List α) :
    QueuesKept s (l.foldl f u) := by
  induction l generalizing u with
  | nil => exact h
  | cons a l ih => exact ih (h.trans (hf u a))

section
variable {s u : State} (h : QueuesKept s u)
include h

theorem QueuesKept.scheduled {v : State} (k : Scheduled u v) : QueuesKept s v :=
  h.trans ⟨by rw [k.rest], fun j => by rw [k.core j]⟩

theorem QueuesKept.onCore {k : Nat} {f : Core → Core} (hf : ∀ c, (f c).vecq = c.vecq) : QueuesKept s (u.onCore k f) := by
  refine h.trans ⟨State.onCore_cur .., fun j => ?_⟩
  rw [State.core_onCore]
  split
  · next e => rw [hf, e]
  · rfl

theorem QueuesKept.onEp {k n : Nat} {f : Endp → Endp} : QueuesKept s (u.onEp k n f) := h.onCore fun _ => rfl

theorem QueuesKept.onCluster {c : Nat} {f : Cluster → Cluster} : QueuesKept s (u.onCluster c f) := h.trans ⟨rfl, fun _ => rfl⟩

theorem QueuesKept.charge {k e : Nat} : QueuesKept s (u.charge k e) := h.onCore fun _ => rfl

theorem QueuesKept.post {m : Msg} : QueuesKept s (u.post m) := h.trans ⟨rfl, fun _ => rfl⟩

theorem QueuesKept.sending {o : Sent} : QueuesKept s { u with sent := u.sent ++ [o] } := h.trans ⟨rfl, fun _ => rfl⟩

theorem QueuesKept.route {m : Msg} : QueuesKept s (u.route m) := by
  unfold State.route
  extract_lets v
  have charged : QueuesKept s v := by
    show QueuesKept s (if _ then u else u.charge _ _)
    split
    · exact h
    · exact h.charge
  clear_value v
  split
  · exact charged.post
  · split
    · exact charged
    · split
      · exact charged.sending
      · exact charged.post
      · exact charged

theorem QueuesKept.emit {k : Nat} {reply : Bool} {dst : Place} {b : Body} : QueuesKept s (u.emit k reply dst b) := h.route

theorem QueuesKept.wakeEp {k n : Nat} : QueuesKept s (wakeEp u k n) :=
  .foldl (fun x _ => (QueuesKept.refl x).scheduled (.wake (.refl x))) h _

theorem QueuesKept.onTask {t : BitVec 48} {f : Task → Task} : QueuesKept s (u.onTask t f) := h.trans ⟨rfl, fun _ => rfl⟩

theorem QueuesKept.onCounter {k n : Nat} {f : Counter → Counter} : QueuesKept s (u.onCounter k n f) := h.onCore fun _ => by rfl

theorem QueuesKept.jobRaise {j : W32} : QueuesKept s (jobRaise u j) := h.trans ⟨rfl, fun _ => rfl⟩

theorem QueuesKept.ragUpdate {k n : Nat} {v : W32} : QueuesKept s (ragUpdate u k n v) := by
  have work (f : Core → Core) (hf : ∀ c, (f c).vecq = c.vecq) : QueuesKept s (u.onWork k f) := by
    have settled : QueuesKept s ((u.settleBallast k).onCore k f) := (h.onCore (f := fun c => c.settleBallast u.timebase) fun _ => rfl).onCore hf
    unfold State.onWork
    dsimp only
    split
    · exact settled.scheduled (.logSlot (.refl _))
    · exact settled
  unfold Machine.ragUpdate
  dsimp only
  split
  · exact h
  · exact work _ fun _ => rfl

theorem QueuesKept.testCounterTrigger {k n : Nat} : QueuesKept s (testCounterTrigger u k n) := by
  unfold Machine.testCounterTrigger
  dsimp only
  split
  · exact h
  · split
    · exact h.onCounter.jobRaise.post
    · exact h

theorem QueuesKept.completionViolation {k n : Nat} {ws : List Task} : QueuesKept s (completionViolation u k n ws) := by
  unfold Machine.completionViolation
  split
  · split
    · exact h.onTask
    · exact h
  · exact h

theorem QueuesKept.wakeSlot {k n : Nat} {completed : Bool} : QueuesKept s (wakeSlot u k n completed) := by
  unfold Machine.wakeSlot
  dsimp only
  refine .foldl (fun x _ => (QueuesKept.refl x).scheduled (.wake (.refl x)))
    (.foldl (fun x _ => (QueuesKept.refl x).onTask.scheduled (.wake (.refl _))) ?_ _) _
  split
  · exact h.completionViolation
  · exact h

theorem QueuesKept.slotUpdate {k n : Nat} {f : Counter → Counter} : QueuesKept s (slotUpdate u k n f) := by
  unfold Machine.slotUpdate
  exact .testCounterTrigger (.wakeSlot (.ragUpdate h.onCounter))

theorem QueuesKept.notify {w : W64} : QueuesKept s (notify u w) := by
  unfold Machine.notify
  split
  · dsimp only
    split
    · exact h.slotUpdate
    · exact h
  · exact h

theorem QueuesKept.peerRecord {k n : Nat} {w : W64} {t : BitVec 48} : QueuesKept s (peerRecord u k n w t) := by
  unfold Machine.peerRecord
  split
  · exact h
  · exact h.onCluster.notify

theorem QueuesKept.notifyPeer {k n : Nat} {w : W64} {t : BitVec 48} : QueuesKept s (notifyPeer u k n w t) := by
  unfold Machine.notifyPeer
  split
  · exact h.emit
  · exact h

theorem QueuesKept.freeSlot {k n : Nat} : QueuesKept s (freeSlot u k n) := (h.onEp.onCluster).wakeEp

theorem QueuesKept.giveBack {k n : Nat} : QueuesKept s (giveBack u k n) := by
  unfold Machine.giveBack
  dsimp only
  split
  · split
    · exact h.onEp.emit
    · exact h
  · exact h

theorem QueuesKept.sendReturns {k n : Nat} : QueuesKept s (sendReturns u k n) := by
  unfold Machine.sendReturns
  split
  · exact h
  · exact .foldl (fun x _ => ((QueuesKept.refl x).onEp).giveBack) h _

end

theorem loseRecord_kept (fuel : Nat) (s : State) (l : EpLoc) : QueuesKept s (loseRecord fuel s l) := by
  induction fuel generalizing s l with
  | zero => exact .refl s
  | succ fuel ih =>
    unfold loseRecord
    dsimp only
    split
    · exact .foldl ih ((QueuesKept.refl s).notifyPeer).freeSlot _
    · exact .refl s

theorem closeNow_kept (s : State) (k n : Nat) (w : W64) (t : BitVec 48) : QueuesKept s (closeNow s k n w t) :=
  (QueuesKept.foldl (loseRecord_kept 64) (QueuesKept.refl s).onEp _).wakeEp

theorem failClose_kept (s : State) (k n reason cause : Nat) (t : BitVec 48) : QueuesKept s (failClose s k n reason cause t) := by
  have told (w : W64) : QueuesKept s (notifyPeer (sendReturns s k n) k n w t) := (QueuesKept.refl s).sendReturns.notifyPeer
  unfold failClose
  dsimp only
  split
  · exact .refl s
  · exact .refl s
  · exact closeNow_kept ..
  · refine .trans ?_ (closeNow_kept ..)
    split
    · exact (told _).peerRecord
    · exact told _

theorem closeFrames_kept (s : State) (pa n : Nat) : QueuesKept s (closeFrames s pa n) :=
  .foldl (fun x _ => failClose_kept x _ _ _ _ _) (.refl s) _

/-! Loads (R193, R194, R356) -/

/-- Width of the lanes that a vector memory instruction takes from its register. -/
def memWidth (f : Nat) : Nat := if f = 0 then 8 else fmtWidth f

theorem memWidth_cases (f : Nat) : memWidth f = 8 ∨ memWidth f = 32 ∨ memWidth f = 64 := by
  unfold memWidth fmtWidth
  split
  · exact .inl rfl
  · split
    · exact .inr (.inr rfl)
    · exact .inr (.inl rfl)

/-- What a lane of a load gets. -/
def gotLane (s : State) (f : Nat) (p : VLane × Nat) : Nat × Flags := if f = 0 then (s.seenNat p.1.a p.2 1, 0) else loadLane s f p.1 p.2

/-- Lane k of the register that a load leaves. -/
def loadedLane (s : State) (old : W512) (f : Nat) (ps : List (VLane × Nat)) (k : Nat) : Nat :=
  (ps.find? fun p => p.1.k = k).elim (laneOf old (memWidth f) k) fun p => (gotLane s f p).1

/-- That register. -/
def loadedVec (s : State) (old : W512) (f : Nat) (ps : List (VLane × Nat)) : W512 :=
  packLanes (memWidth f) ((List.range (512 / memWidth f)).map (loadedLane s old f ps))

/-- The flags of its lanes. -/
def loadedFlags (s : State) (f : Nat) (ps : List (VLane × Nat)) : Flags := ps.foldl (fun acc p => acc ||| (gotLane s f p).2) 0

theorem laneOf_loadedVec {s : State} {old : W512} {f : Nat} {ps : List (VLane × Nat)} {k : Nat} (h : k < 512 / memWidth f) :
    laneOf (loadedVec s old f ps) (memWidth f) k = loadedLane s old f ps k % 2 ^ memWidth f := by
  have fits : memWidth f * k + memWidth f ≤ 512 := by
    rcases memWidth_cases f with e | e | e <;> rw [e] at h ⊢ <;> omega
  rw [loadedVec, laneOf_packLanes _ fits, List.getD_eq_getElem _ _ (by rw [List.length_map, List.length_range]; exact h), List.getElem_map,
    List.getElem_range]

theorem foldl_flags {α : Type} (fl : α → Flags) (l : List α) (acc : Flags) (j : Nat) :
    (l.foldl (fun acc x => acc ||| fl x) acc).getLsbD j = true ↔ acc.getLsbD j = true ∨ ∃ x ∈ l, (fl x).getLsbD j = true := by
  induction l generalizing acc with
  | nil => simp
  | cons x l ih => rw [List.foldl_cons, ih]; simp [or_assoc]

/-- A load that meets no uncorrectable codeword. -/
theorem loadLanes_clean {s : State} {d : BitVec 4} {f len : Nat} {ps : List (VLane × Nat)} (clean : ∀ p ∈ ps, laneBad s p.1 p.2 = false)
    (room : s.me.vecq.length < 16) : loadLanes s d f ps len =
      .ok (enqueued ((chargeLanes s false ps).onCur fun x => (x.setVec d (loadedVec s (s.curTask.vec d) f ps)).advance len) (loadedFlags s f ps) none) := by
  have none : (ps.find? fun p => laneBad s p.1 p.2) = none := by
    rw [List.find?_eq_none]
    intro p hp
    simp [clean p hp]
  have acc (v : W512) : Accessed s ((chargeLanes s false ps).onCur fun x => (x.setVec d v).advance len) :=
    accessed_onCur (Stores.chargeLanes (.refl s)).acc
  unfold loadLanes
  dsimp only
  rw [none]
  refine Eq.trans (congrArg₂ (fun l fl => vecEnter ((chargeLanes s false ps).onCur fun x => (x.setVec d (packLanes (memWidth f) l)).advance len) fl .none)
    (List.map_congr_left fun k _ => ?_) List.foldl_map) (vecEnter_room (by rw [accessed_vecq (acc _)]; exact room) _ _)
  rw [List.find?_map, loadedLane]
  unfold Function.comp
  dsimp only
  generalize ps.find? (fun p => decide (p.1.k = k)) = o
  cases o <;> rfl

end Sys2Proof.Machine
end

section
/-! PROOFS. Vector loads as instructions (R192 to R196, R356). -/

namespace Sys2Proof.Machine

open Sys2Proof.Safety Sys2Proof.Laws

theorem Counted.vec {x y : Task} (h : Counted x y) (d : BitVec 4) : y.vec d = x.vec d := by
  have h : y = { x with counts := y.counts } := by rw [h]
  rw [h]
  rfl

theorem PlacedView.vecq {s u : State} (h : PlacedView s u) : u.me.vecq = s.me.vecq := accessed_vecq h.1.1

/-- Dome-only service lets an instruction be. -/
theorem withheld_served {s : State} {f : BitVec 4} (h : ¬ ((f = 11 ∨ f = 13) ∧ s.domeOnly = true)) (i : Instr) :
    withheld s i (f = 11 || f = 13) = .ok () := by
  refine failIf_false (eq_false_of_ne_true fun e => h ?_)
  simpa using e

theorem memWidth_toNat (f : BitVec 4) : memWidth f.toNat = if f = 0 then 8 else if f = 11 ∨ f = 13 then 64 else 32 := by
  revert f
  decide

section
variable {s s1 : State} {i : Instr} {g : Guard} {f d : BitVec 4} {a : BitVec 5} {lanes : Task → GVal → List VLane} {ps : List (VLane × Nat)}
  (exec_eq : exec i s = vecLoad g i f d a lanes s) (hg : s.curTask.guardOk g = true) (room : s.me.vecq.length < 16)
  (served : ¬ ((f = 11 ∨ f = 13) ∧ s.domeOnly = true))
include exec_eq hg served

theorem vecLoad_stops {st : Stop}
    (h : resolveLanes s (s.curTask.reg a) permLd f.toNat .load (lanes s.curTask (s.curTask.reg a)) = .error st) : StopsUnwritten i s st := by
  refine stopsUnwritten_of_error (show exec i s = guarded g 4 s _ from exec_eq) hg ?_ (resolveLanes_unwritten h)
  simp only [withheld_served served, h, bind, Except.bind]

theorem vecLoad_exec (h : resolveLanes s (s.curTask.reg a) permLd f.toNat .load (lanes s.curTask (s.curTask.reg a)) = .ok (s1, ps)) :
    exec i s = finish s (loadLanes s1 d f.toNat ps 4) := by
  rw [exec_eq, vecLoad, guarded_on hg]
  simp only [withheld_served served, h, bind, Except.bind]

include room

theorem vecLoad_clean (h : resolveLanes s (s.curTask.reg a) permLd f.toNat .load (lanes s.curTask (s.curTask.reg a)) = .ok (s1, ps))
    (clean : ∀ p ∈ ps, laneBad s1 p.1 p.2 = false) :
    QueuedAccess i 4 s (fun x => x.setVec d (loadedVec s1 (s.curTask.vec d) f.toNat ps)) (loadedFlags s1 f.toNat ps) none (MemorySame s) := by
  have placed := (resolveLanes_view h).1
  have charged : Stores s1 (chargeLanes s1 false ps) := .chargeLanes (.refl s1)
  have run := vecLoad_exec exec_eq hg served h
  rw [loadLanes_clean clean (by rw [placed.vecq]; exact room), Counted.vec placed.counted] at run
  refine queuedAccess (x := s1.curTask) run (accessed_onCur (accessed_trans placed.1.1 charged.acc)) ?_ placed.counted ?_
  · exact SameView.memorySame (.enqueued (.onCur (.chargeLanes placed.view)))
  · rw [curTask_onCur, charged.curTask]

theorem vecLoad_faulty {p : VLane × Nat}
    (h : resolveLanes s (s.curTask.reg a) permLd f.toNat .load (lanes s.curTask (s.curTask.reg a)) = .ok (s1, ps))
    (bad : ps.find? (fun p => laneBad s1 p.1 p.2) = some p) :
    Answers i s (enqueued (retire (closeFrames s1 p.2 p.1.n) 4) 0 (some p.1.a))
    ∧ (closeFrames s1 p.2 p.1.n = s1 → QueuedAccess i 4 s id 0 (some p.1.a) (MemorySame s)) := by
  have placed := (resolveLanes_view h).1
  have retired (u : State) (k : QueuesKept s1 u) : QueuesKept s1 (retire u 4) :=
    (k.onTask : QueuesKept s1 (u.onTask u.curTid fun x => x.advance 4))
  have kept := retired _ (closeFrames_kept s1 p.2 p.1.n)
  have run : exec i s = .next (enqueued (retire (closeFrames s1 p.2 p.1.n) 4) 0 (some p.1.a)) := by
    rw [vecLoad_exec exec_eq hg served h, loadLanes, bad]
    dsimp only
    rw [vecEnter_room (by rw [kept.me, placed.vecq]; exact room)]
    rfl
  refine ⟨run, fun same => ?_⟩
  rw [same] at run
  refine queuedAccess (x := s1.curTask) run ?_ (SameView.memorySame (.enqueued (.retire placed.view))) placed.counted ?_
  · exact accessed_trans placed.1.1 (accessed_onCur (accessed_refl s1))
  · exact curTask_onCur s1 _

end

end Sys2Proof.Machine
end

section
/-! PROOFS. Stores through the loop-back paths one after another (R367): which cells lie under a store of the other path. -/

namespace Sys2Proof.Machine

open Sys2Proof.Safety Sys2Proof.Laws

/-! Changes of memory alone -/

theorem State.sameButMemory_refl (s : State) : s.sameButMemory s := rfl

theorem State.sameButMemory_trans {s u v : State} (h : s.sameButMemory u) (k : u.sameButMemory v) : s.sameButMemory v := by
  unfold State.sameButMemory at *
  rw [k, h]

theorem State.sameButMemory_foldl {α : Type} {f : State → α → State} (hf : ∀ (x : State) a, x.sameButMemory (f x a)) (s : State) (l : List α) :
    s.sameButMemory (l.foldl f s) := by
  induction l generalizing s with
  | nil => exact s.sameButMemory_refl
  | cons a l ih => exact State.sameButMemory_trans (hf s a) (ih _)

theorem State.putByte_same (s : State) (a : Nat) (b : Byte) : s.sameButMemory (s.putByte a b) := rfl
theorem State.setTag_same (s : State) (a : Nat) (g : Tag) : s.sameButMemory (s.setTag a g) := rfl

theorem found_sameButMemory (s : State) (a : W64) (ps : List Nat) : s.sameButMemory (s.found a ps) :=
  State.sameButMemory_foldl (fun x _ => State.sameButMemory_trans (x.putByte_same ..) (State.setTag_same ..)) s ps

theorem giveBack_sameButMemory (s : State) (a : W64) (ps : List Nat) (t : State) : t.sameButMemory (s.giveBack a ps t) := by
  refine State.sameButMemory_foldl (fun x p => ?_) t ps
  have bytes : x.sameButMemory (if s.under a p = true then x.putByte p (s.byte p) else x) := by
    split
    · exact x.putByte_same ..
    · exact x.sameButMemory_refl
  dsimp only
  generalize (if s.under a p = true then x.putByte p (s.byte p) else x) = y at bytes ⊢
  split
  · exact State.sameButMemory_trans bytes (y.setTag_same ..)
  · exact bytes

section
variable {s u : State} (h : s.sameButMemory u)
include h

theorem State.sameButMemory_cur : u.cur = s.cur := by rw [h]
theorem State.sameButMemory_tid : u.curTid = s.curTid := by rw [h]; rfl
theorem State.sameButMemory_loop : u.me.loop = s.me.loop := by rw [h]; rfl

end

/-! The list of stores after one more -/

/-- One of the stores holds a byte at an offset. -/
def holds (es : List LoopStore) (o : Nat) : Prop := ∃ e ∈ es, ∃ x ∈ e.bytes, x.1 = o

theorem byteCells_ne_nil (es : List LoopStore) (o : Nat) : byteCells es o ≠ [] ↔ holds es o := by
  unfold byteCells holds
  rw [ne_eq, List.filterMap_eq_nil_iff]
  simp

theorem under_iff (s : State) (a : W64) (b : Nat) :
    s.under a b = true ↔ ∃ o, ownOffset s b = some o ∧ holds (s.ahead (viaGlobal a)) o := by
  unfold State.under
  cases ownOffset s b with
  | none => simp
  | some o => simp [← byteCells_ne_nil]

theorem holds_append (l k : List LoopStore) (o : Nat) : holds (l ++ k) o ↔ holds l o ∨ holds k o := by
  unfold holds
  simp [or_and_right, exists_or]

theorem settleOn_keys {α : Type} (n cs : List (Nat × α × α)) : (settleOn n cs).map Prod.fst = cs.map Prod.fst := by
  unfold settleOn
  rw [List.map_map]
  refine List.map_congr_left fun c _ => ?_
  dsimp only [Function.comp]
  split <;> rfl

theorem layUnder_fields (n : LoopStore) (es : List LoopStore) :
    (layUnder n es).map (fun e => (e.task, e.glob, e.bytes.map Prod.fst)) = es.map fun e => (e.task, e.glob, e.bytes.map Prod.fst) := by
  induction es generalizing n with
  | nil => rfl
  | cons e es ih => rw [layUnder, List.map_cons, List.map_cons, ih, settleOn_keys]

theorem holds_iff_fields (es : List LoopStore) (o : Nat) :
    holds es o ↔ ∃ f ∈ es.map (fun e => (e.task, e.glob, e.bytes.map Prod.fst)), o ∈ f.2.2 := by
  unfold holds
  simp [List.mem_map]

theorem holds_layUnder (n : LoopStore) (es : List LoopStore) (o : Nat) : holds (layUnder n es) o ↔ holds es o := by
  rw [holds_iff_fields, holds_iff_fields, layUnder_fields]

/-- The stores of the other path at the end of a list. -/
def trailing (glob : Bool) (l : List LoopStore) : List LoopStore := (l.reverse.takeWhile fun e => e.glob ≠ glob).reverse

theorem ahead_eq (s : State) (glob : Bool) : s.ahead glob = trailing glob s.loopMine := rfl

theorem trailing_suffix (glob : Bool) (l : List LoopStore) : l.take (l.length - (trailing glob l).length) ++ trailing glob l = l := by
  have split := List.takeWhile_append_dropWhile (p := fun e : LoopStore => decide (e.glob ≠ glob)) (l := l.reverse)
  have whole : (l.reverse.dropWhile fun e => decide (e.glob ≠ glob)).reverse ++ trailing glob l = l := by
    rw [trailing, ← List.reverse_append, split, List.reverse_reverse]
  generalize (l.reverse.dropWhile fun e => decide (e.glob ≠ glob)).reverse = pre at whole
  generalize trailing glob l = post at whole ⊢
  subst whole
  rw [List.length_append, Nat.add_sub_cancel, List.take_left]

theorem mem_trailing {glob : Bool} {l : List LoopStore} {e : LoopStore} (h : e ∈ trailing glob l) : e.glob ≠ glob := by
  have h := List.mem_takeWhile_imp (List.mem_reverse.mp h)
  simpa using h

theorem trailing_append_all {glob : Bool} (l k : List LoopStore) (h : ∀ e ∈ k, e.glob ≠ glob) : trailing glob (l ++ k) = trailing glob l ++ k := by
  unfold trailing
  rw [List.reverse_append, List.takeWhile_append_of_pos, List.reverse_append, List.reverse_reverse]
  intro e he
  simpa using h e (List.mem_reverse.mp he)

theorem trailing_append_one {glob : Bool} (l : List LoopStore) {e : LoopStore} (h : e.glob = glob) : trailing glob (l ++ [e]) = [] := by
  unfold trailing
  rw [List.reverse_append, List.reverse_singleton, List.singleton_append, List.takeWhile_cons_of_neg (by simp [h])]
  rfl

/-- The list of a task's stores once one more lies in it. -/
def laidIn (l : List LoopStore) (e : LoopStore) : List LoopStore :=
  l.take (l.length - (trailing e.glob l).length) ++ e :: layUnder e (trailing e.glob l)

theorem glob_layUnder {e : LoopStore} {es : List LoopStore} {g : Bool} (h : ∀ x ∈ es, x.glob ≠ g) : ∀ x ∈ layUnder e es, x.glob ≠ g := by
  intro x hx
  have hx : (x.task, x.glob, x.bytes.map Prod.fst) ∈ es.map fun e => (e.task, e.glob, e.bytes.map Prod.fst) :=
    layUnder_fields e es ▸ List.mem_map_of_mem hx
  obtain ⟨y, hy, eq⟩ := List.mem_map.mp hx
  have eq : y.glob = x.glob := congrArg (fun f => f.2.1) eq
  exact eq ▸ h y hy

/-- The new store's own path overtakes what it overtook. -/
theorem trailing_laidIn_same (l : List LoopStore) (e : LoopStore) : trailing e.glob (laidIn l e) = layUnder e (trailing e.glob l) := by
  unfold laidIn
  rw [List.append_cons, trailing_append_all _ _ (glob_layUnder fun _ => mem_trailing), trailing_append_one _ rfl, List.nil_append]

/-- The other path has the new store behind it too, where it stands last. -/
theorem holds_trailing_laidIn_other (l : List LoopStore) (e : LoopStore) {g : Bool} (hg : e.glob ≠ g) {o : Nat} (out : ∀ x ∈ e.bytes, x.1 ≠ o) :
    holds (trailing g (laidIn l e)) o ↔ holds (trailing g l) o := by
  have whole := trailing_suffix e.glob l
  rcases List.eq_nil_or_concat (trailing e.glob l) with none | ⟨es, x, some⟩
  · have laid : laidIn l e = l ++ [e] := by
      unfold laidIn
      rw [none, List.length_nil, Nat.sub_zero, List.take_length]
      rfl
    rw [laid, trailing_append_all _ _ (by simpa using hg), holds_append]
    exact or_iff_left fun ⟨y, hy, c, hc, eq⟩ => by
      rw [List.mem_singleton.mp hy] at hc
      exact out c hc eq
  · have other : ∀ p q r : Bool, q ≠ r → p ≠ q → p = r := by decide
    have last (k : List LoopStore) (y : LoopStore) (hy : y.glob ≠ e.glob) : trailing g (k ++ [y]) = [] :=
      trailing_append_one _ (other _ _ _ hg hy)
    have old : trailing g l = [] := by
      rw [← whole, some, List.concat_eq_append, ← List.append_assoc]
      exact last _ _ (mem_trailing (by rw [some]; simp))
    have new : trailing g (laidIn l e) = [] := by
      have under := glob_layUnder (e := e) (es := trailing e.glob l) fun _ => mem_trailing
      have len : (layUnder e (trailing e.glob l)).length = (trailing e.glob l).length := by
        simpa using congrArg List.length (layUnder_fields e (trailing e.glob l))
      unfold laidIn
      rcases List.eq_nil_or_concat (layUnder e (trailing e.glob l)) with nil | ⟨ys, y, eq⟩
      · rw [nil, some] at len
        simp at len
      · rw [eq] at under ⊢
        rw [List.concat_eq_append] at under ⊢
        rw [← List.cons_append, ← List.append_assoc]
        exact last _ _ (under y (by simp))
    rw [old, new]

theorem loopMine_setLoop (s : State) {es : List LoopStore} (h : ∀ e ∈ es, e.task = s.curTid) : (s.setLoop es).loopMine = es := by
  have new : es.filter (fun e => decide (e.task = s.curTid)) = es := List.filter_eq_self.mpr fun e he => decide_eq_true (h e he)
  have old : (s.me.loop.filter fun e => decide (e.task ≠ s.curTid)).filter (fun e => decide (e.task = s.curTid)) = [] := by
    rw [List.filter_filter, List.filter_eq_nil_iff]
    simp
  unfold State.loopMine
  rw [loop_setLoop, curTid_setLoop, List.filter_append, new, old, List.nil_append]

theorem task_loopMine {s : State} {e : LoopStore} (h : e ∈ s.loopMine) : e.task = s.curTid := by
  simpa using (List.mem_filter.mp h).2

theorem task_laidIn {l : List LoopStore} {e : LoopStore} {t : BitVec 48} (he : e.task = t) (hl : ∀ x ∈ l, x.task = t) :
    ∀ x ∈ laidIn l e, x.task = t := by
  intro x hx
  rcases List.mem_append.mp hx with hx | hx
  · exact hl x (List.mem_of_mem_take hx)
  · rcases List.mem_cons.mp hx with rfl | hx
    · exact he
    · have hx : (x.task, x.glob, x.bytes.map Prod.fst) ∈ (trailing e.glob l).map fun e => (e.task, e.glob, e.bytes.map Prod.fst) :=
        layUnder_fields e _ ▸ List.mem_map_of_mem hx
      obtain ⟨y, hy, eq⟩ := List.mem_map.mp hx
      have eq : y.task = x.task := congrArg (fun f => f.1) eq
      refine eq ▸ hl y ?_
      rw [← trailing_suffix e.glob l]
      exact List.mem_append_right _ hy

/-- A store through a path lays one more store into the list, which holds the cells of its own scratchpad and no others. -/
theorem loopMine_through (s : State) (a : W64) (pas : List Nat) {f : State → State} (hf : ∀ x : State, x.sameButMemory (f x)) :
    (s.through a pas f).cur = s.cur ∧ (s.through a pas f).curTid = s.curTid ∧
      ((s.through a pas f).loopMine = s.loopMine ∨ ∃ e, e.glob = viaGlobal a ∧ e.bytes.map Prod.fst = (s.ownCells pas).map (· - spadPa s.cur)
        ∧ (s.through a pas f).loopMine = laidIn s.loopMine e) := by
  unfold State.through
  extract_lets ps c d t e es v
  split
  · have kept := hf s
    refine ⟨State.sameButMemory_cur kept, State.sameButMemory_tid kept, .inl ?_⟩
    unfold State.loopMine
    rw [State.sameButMemory_loop kept, State.sameButMemory_tid kept]
  · have base : s.sameButMemory d := by
      show s.sameButMemory (if s.me.loop = [] then s else s.found a ps)
      split
      · rfl
      · exact found_sameButMemory ..
    have stored : s.sameButMemory v := by
      show s.sameButMemory (if es = [] then t else s.giveBack a ps t)
      have written : s.sameButMemory t := State.sameButMemory_trans base (hf d)
      split
      · exact written
      · exact State.sameButMemory_trans written (giveBack_sameButMemory ..)
    have tid := State.sameButMemory_tid stored
    refine ⟨(State.onCore_cur ..).trans (State.sameButMemory_cur stored), (curTid_setLoop ..).trans tid, .inr ⟨e, rfl, ?_, ?_⟩⟩
    · exact List.map_map
    · refine loopMine_setLoop v ?_
      rw [tid]
      exact task_laidIn (e := e) rfl fun _ => task_loopMine

/-- Which cells lie under a store of the other path: a store through a path leaves that as it is for its own path, and for the other
beside its cells. -/
theorem under_through (s : State) {a a' : W64} {pas : List Nat} {f : State → State} (hf : ∀ x : State, x.sameButMemory (f x)) {b : Nat}
    (h : viaGlobal a' = viaGlobal a ∨ b ∉ pas) : (s.through a pas f).under a' b = s.under a' b := by
  obtain ⟨cur, -, list⟩ := loopMine_through s a pas hf
  generalize s.through a pas f = u at *
  have own : ownOffset u b = ownOffset s b := by unfold ownOffset; rw [cur]
  rw [Bool.eq_iff_iff, under_iff, under_iff, own]
  refine exists_congr fun o => and_congr_right fun ho => ?_
  rw [ahead_eq, ahead_eq]
  rcases list with same | ⟨e, glob, cells, laid⟩
  · rw [same]
  · rw [laid]
    by_cases hg : viaGlobal a' = viaGlobal a
    · rw [hg, ← glob, trailing_laidIn_same, holds_layUnder]
    · refine holds_trailing_laidIn_other _ e (by rw [glob]; exact fun x => hg x.symm) fun x hx eq => ?_
      have hx : x.1 ∈ (s.ownCells pas).map (· - spadPa s.cur) := cells ▸ List.mem_map_of_mem hx
      obtain ⟨p, hp, eq'⟩ := List.mem_map.mp hx
      obtain ⟨hp, isOwn⟩ := (mem_ownCells_iff s pas p).mp hp
      refine h.resolve_left hg ?_
      have same : p = b := by
        unfold ownOffset at ho isOwn
        split at ho
        · next hb =>
          split at isOwn
          · next hp' =>
            simp only [Bool.and_eq_true, decide_eq_true_eq] at hb hp'
            cases ho
            omega
          · cases isOwn
        · cases ho
      exact same ▸ hp

end Sys2Proof.Machine
end

section
/-! PROOFS. Vector stores, lane by lane and by runs of bytes (R193 to R197, R367). -/

namespace Sys2Proof.Machine

open Sys2Proof.Safety Sys2Proof.Laws

/-! One store after another -/

theorem byte_store (s : State) (a : W64) (pa : Nat) (bs : List Byte) (b : Nat) :
    (s.store a pa bs).byte b = if s.under a b = true then s.byte b else overlaid pa bs b (s.byte b) :=
  byte_through s a _ (fun x b => byte_write x pa bs b) (fun b _ h => overlaid_outside (by rw [mem_range_add] at h; omega)) b

theorem byte_store_outside {s : State} {a : W64} {pa b : Nat} {bs : List Byte} (h : b < pa ∨ pa + bs.length ≤ b) : (s.store a pa bs).byte b = s.byte b := by
  rw [byte_store, overlaid_outside h, ite_self]

theorem under_store {s : State} {a a' : W64} {pa b : Nat} {bs : List Byte} (h : viaGlobal a' = viaGlobal a ∨ b < pa ∨ pa + bs.length ≤ b) :
    (s.store a pa bs).under a' b = s.under a' b :=
  under_through s (fun x => x.write_same bs pa) (h.imp_right fun h => by rw [mem_range_add]; omega)

/-! Lanes outside the plane windows -/

/-- What a lane writes of a value: the bytes of its element, or the byte that its nibble goes into. -/
def laneBytes (old : Byte) (l : VLane) (c : Nat) : List Byte :=
  match l.nib with
  | none => leBytes l.n c
  | some hi => leBytes 1 (if hi then old.toNat % 16 + c % 16 * 16 else old.toNat / 16 * 16 + c % 16)

/-- How many bytes. -/
def laneSpan (l : VLane) : Nat := if l.nib = none then l.n else 1

theorem length_laneBytes (old : Byte) (l : VLane) (c : Nat) : (laneBytes old l c).length = laneSpan l := by
  unfold laneBytes laneSpan
  cases l.nib with
  | none => exact leBytes_length ..
  | some hi => exact leBytes_length ..

theorem laneSpan_le {l : VLane} (h : 1 ≤ l.n) : laneSpan l ≤ l.n := by
  unfold laneSpan
  split
  · exact Nat.le_refl _
  · exact h

/-- A lane's element, stored. -/
def laneStored (elem : VLane × Nat → Nat) (s : State) (p : VLane × Nat) : State :=
  s.store p.1.a p.2 (laneBytes (s.foundByte p.1.a p.2) p.1 (elem p))

/-- A cell that a lane does not write. -/
def Beside (p : VLane × Nat) (b : Nat) : Prop := b < p.2 ∨ p.2 + laneSpan p.1 ≤ b

section
variable (elem : VLane × Nat → Nat)

theorem byte_laneStored_beside {s : State} {p : VLane × Nat} {b : Nat} (h : Beside p b) : (laneStored elem s p).byte b = s.byte b :=
  byte_store_outside (by rw [length_laneBytes]; exact h)

theorem under_laneStored {s : State} {p : VLane × Nat} {a : W64} {b : Nat} (h : Beside p b) : (laneStored elem s p).under a b = s.under a b :=
  under_store (.inr (by rw [length_laneBytes]; exact h))

theorem byte_lanesStored_beside {s : State} {ps : List (VLane × Nat)} {b : Nat} (h : ∀ p ∈ ps, Beside p b) :
    (ps.foldl (laneStored elem) s).byte b = s.byte b := by
  induction ps generalizing s with
  | nil => rfl
  | cons p ps ih => rw [List.foldl_cons, ih fun q hq => h q (.tail _ hq), byte_laneStored_beside elem (h p (.head _))]

theorem under_lanesStored {s : State} {ps : List (VLane × Nat)} {a : W64} {b : Nat} (h : ∀ p ∈ ps, Beside p b) :
    (ps.foldl (laneStored elem) s).under a b = s.under a b := by
  induction ps generalizing s with
  | nil => rfl
  | cons p ps ih => rw [List.foldl_cons, ih fun q hq => h q (.tail _ hq), under_laneStored elem (h p (.head _))]

/-- A cell that one lane alone writes. -/
theorem byte_lanesStored {s : State} {ps : List (VLane × Nat)} (once : ps.Nodup) {p : VLane × Nat} (hp : p ∈ ps) {k : Nat} (hk : k < laneSpan p.1)
    (alone : ∀ q ∈ ps, q ≠ p → Beside q (p.2 + k)) : (ps.foldl (laneStored elem) s).byte (p.2 + k) =
      if s.under p.1.a (p.2 + k) = true then s.byte (p.2 + k) else (laneBytes (s.byte p.2) p.1 (elem p)).getD k 0 := by
  obtain ⟨pre, post, rfl⟩ := List.append_of_mem hp
  obtain ⟨out, after⟩ := List.nodup_cons.mp ((List.perm_middle.nodup_iff).mp once)
  have before : ∀ q ∈ pre, Beside q (p.2 + k) := fun q hq =>
    alone q (List.mem_append_left _ hq) fun e => out (List.mem_append_left _ (e ▸ hq))
  have behind : ∀ q ∈ post, Beside q (p.2 + k) := fun q hq =>
    alone q (List.mem_append_right _ (.tail _ hq)) fun e => out (List.mem_append_right _ (e ▸ hq))
  have byte := byte_lanesStored_beside elem (s := s) before
  have under := under_lanesStored elem (s := s) (a := p.1.a) before
  rw [List.foldl_append, List.foldl_cons, byte_lanesStored_beside elem behind]
  generalize pre.foldl (laneStored elem) s = u at *
  rw [laneStored, byte_store, under, byte]
  split
  · rfl
  · next free =>
    rw [overlaid, if_pos (by rw [length_laneBytes]; omega), Nat.add_sub_cancel_left]
    unfold laneBytes
    unfold laneSpan at hk
    cases hn : p.1.nib with
    | none => rfl
    | some hi =>
      rw [hn, if_neg (by simp)] at hk
      obtain rfl : k = 0 := by omega
      rw [Nat.add_zero] at *
      rw [foundByte_free (by rw [under]; simpa using free), byte]

end

/-- How a lane store rounds (R197). -/
def laneRounding (sd : Option W16) (k : Nat) : Rounding := match sd with | some z => .sr (srDraw z k) | none => .rne

theorem storeLane_outside (s : State) (f : Nat) (sat : Bool) (sd : Option W16) (v : Nat) {l : VLane} (pa : Nat) (hw : planeWin l.a = none) :
    storeLane s f sat sd v l pa = (s.store l.a pa (laneBytes (s.foundByte l.a pa) l (narrow f sat (laneRounding sd l.k) v).1),
      (narrow f sat (laneRounding sd l.k) v).2) := by
  unfold storeLane laneBytes
  dsimp only
  rw [hw]
  unfold laneRounding
  cases l.nib <;> rfl

theorem stores_storeLane (s : State) (f : Nat) (sat : Bool) (sd : Option W16) (v : Nat) (l : VLane) (pa : Nat) :
    Stores s (storeLane s f sat sd v l pa).1 := by
  cases hw : planeWin l.a with
  | none =>
    rw [storeLane_outside s f sat sd v pa hw]
    exact .store (.refl s)
  | some w =>
    unfold storeLane
    dsimp only
    rw [hw]
    exact stores_codeStored ..

/-- The lanes of a vector store, with the flags of their conversions. -/
def lanesNarrowed (s : State) (f : Nat) (sat : Bool) (sd : Option W16) (val : VLane × Nat → Nat) (ps : List (VLane × Nat)) : State × Flags :=
  ps.foldl (fun r p => ((storeLane r.1 f sat sd (val p) p.1 p.2).1, r.2 ||| (storeLane r.1 f sat sd (val p) p.1 p.2).2)) (s, 0)

theorem stores_lanesNarrowed (s : State) (f : Nat) (sat : Bool) (sd : Option W16) (val : VLane × Nat → Nat) (ps : List (VLane × Nat)) :
    Stores s (lanesNarrowed s f sat sd val ps).1 := by
  unfold lanesNarrowed
  have key (r : State × Flags) (h : Stores s r.1) : Stores s (ps.foldl (fun r p =>
      ((storeLane r.1 f sat sd (val p) p.1 p.2).1, r.2 ||| (storeLane r.1 f sat sd (val p) p.1 p.2).2)) r).1 := by
    induction ps generalizing r with
    | nil => exact h
    | cons p ps ih => exact ih _ (h.trans (stores_storeLane ..))
  exact key _ (.refl s)

theorem lanesNarrowed_outside (s : State) (f : Nat) (sat : Bool) (sd : Option W16) (val : VLane × Nat → Nat) {ps : List (VLane × Nat)}
    (outside : ∀ p ∈ ps, planeWin p.1.a = none) :
    let elem (p : VLane × Nat) : Nat × Flags := narrow f sat (laneRounding sd p.1.k) (val p)
    lanesNarrowed s f sat sd val ps = (ps.foldl (laneStored fun p => (elem p).1) s, ps.foldl (fun acc p => acc ||| (elem p).2) 0) := by
  intro elem
  unfold lanesNarrowed
  generalize (0 : Flags) = fl
  induction ps generalizing s fl with
  | nil => rfl
  | cons p ps ih =>
    rw [List.foldl_cons, List.foldl_cons, List.foldl_cons, storeLane_outside s f sat sd (val p) p.2 (outside p (.head _))]
    exact ih _ (fun q hq => outside q (.tail _ hq)) _

/-! Bytes in runs -/

/-- What writes of single bytes, one after another, make of a cell. -/
def laid (l : List (Nat × Byte)) (b : Nat) (v : Byte) : Byte := l.foldl (fun v e => if e.1 = b then e.2 else v) v

theorem laid_outside {l : List (Nat × Byte)} {b : Nat} {v : Byte} (h : ∀ e ∈ l, e.1 ≠ b) : laid l b v = v := by
  unfold laid
  induction l generalizing v with
  | nil => rfl
  | cons e l ih => rw [List.foldl_cons, if_neg (h e (.head _)), ih fun q hq => h q (.tail _ hq)]

theorem laid_mem {l : List (Nat × Byte)} (once : (l.map Prod.fst).Nodup) {e : Nat × Byte} (he : e ∈ l) (v : Byte) : laid l e.1 v = e.2 := by
  obtain ⟨pre, post, rfl⟩ := List.append_of_mem he
  rw [List.map_append, List.map_cons] at once
  have out := (List.nodup_cons.mp ((List.perm_middle.nodup_iff).mp once)).1
  have behind : ∀ q ∈ post, q.1 ≠ e.1 := fun q hq eq => out (List.mem_append_right _ (eq ▸ List.mem_map_of_mem hq))
  unfold laid
  rw [List.foldl_append, List.foldl_cons, if_pos rfl]
  exact laid_outside behind

/-- What writes of runs make of a cell. -/
def laidRuns (rs : List (Nat × List Byte)) (b : Nat) (v : Byte) : Byte := rs.foldl (fun v r => overlaid r.1 r.2 b v) v

theorem byte_writeRuns (s : State) (rs : List (Nat × List Byte)) (b : Nat) :
    (rs.foldl (fun s r => s.write r.1 r.2) s).byte b = laidRuns rs b (s.byte b) := by
  unfold laidRuns
  induction rs generalizing s with
  | nil => rfl
  | cons r rs ih => rw [List.foldl_cons, List.foldl_cons, ih, byte_write]

theorem overlaid_one (a : Nat) (x : Byte) (b : Nat) (v : Byte) : overlaid a [x] b v = if a = b then x else v := by
  unfold overlaid
  by_cases h : a = b
  · subst h
    simp
  · rw [if_neg h, if_neg (by rw [List.length_singleton]; omega)]

theorem overlaid_cons (a : Nat) (x : Byte) (bs : List Byte) (b : Nat) (v : Byte) :
    overlaid a (x :: bs) b v = overlaid (a + 1) bs b (if a = b then x else v) := by
  unfold overlaid
  rw [List.length_cons]
  by_cases h : a = b
  · subst h
    rw [if_pos (by omega), if_neg (by omega), if_pos rfl, Nat.sub_self]
    rfl
  · rw [if_neg h]
    by_cases hb : a < b ∧ b < a + 1 + bs.length
    · rw [if_pos (by omega), if_pos (by omega), show b - a = b - (a + 1) + 1 by omega, List.getD_cons_succ]
    · rw [if_neg (by omega), if_neg (by omega)]

theorem laidRuns_byteRuns (l : List (Nat × Byte)) (b : Nat) (v : Byte) : laidRuns (byteRuns l) b v = laid l b v := by
  induction l generalizing v with
  | nil => rfl
  | cons e l ih =>
    obtain ⟨a, x⟩ := e
    have ih := ih (if a = b then x else v)
    rw [show laid ((a, x) :: l) b v = laid l b (if a = b then x else v) from rfl, ← ih]
    rw [byteRuns]
    generalize byteRuns l = rs
    cases rs with
    | nil => exact overlaid_one a x b v
    | cons r rs =>
      obtain ⟨a', bs⟩ := r
      dsimp only
      split
      · next h =>
        subst h
        exact congrArg (fun v => laidRuns rs b v) (overlaid_cons a x bs b v)
      · exact congrArg (fun v => laidRuns ((a', bs) :: rs) b v) (overlaid_one a x b v)

end Sys2Proof.Machine
end

section
/-! PROOFS. RAW stores through both paths, and vector stores as instructions (R193 to R197, R367). -/

namespace Sys2Proof.Machine

open Sys2Proof.Safety Sys2Proof.Laws

/-! Byte lanes (R193) -/

/-- The byte lanes of a register, at their places. -/
def rawCells (v : W512) (ps : List (VLane × Nat)) : List (Nat × Byte) := ps.map fun q => (q.2, BitVec.ofNat 8 (laneOf v 8 q.1.k))

theorem rawCells_keys (v : W512) (ps : List (VLane × Nat)) : (rawCells v ps).map Prod.fst = ps.map Prod.snd := by
  rw [rawCells, List.map_map]
  rfl

theorem rawCells_ne {v : W512} {ps : List (VLane × Nat)} {b : Nat} (h : ∀ p ∈ ps, p.2 ≠ b) : ∀ e ∈ rawCells v ps, e.1 ≠ b := by
  intro e he
  obtain ⟨p, hp, rfl⟩ := List.mem_map.mp he
  exact h p hp

/-- Runs written, as a change of the state. -/
def runsWritten (l : List (Nat × Byte)) (s : State) : State := (byteRuns l).foldl (fun s r => s.write r.1 r.2) s

theorem byte_runsWritten (l : List (Nat × Byte)) (s : State) (b : Nat) : (runsWritten l s).byte b = laid l b (s.byte b) := by
  rw [runsWritten, byte_writeRuns, laidRuns_byteRuns]

theorem runsWritten_sameButMemory (l : List (Nat × Byte)) (s : State) : s.sameButMemory (runsWritten l s) :=
  State.sameButMemory_foldl (f := fun (s : State) (r : Nat × List Byte) => s.write r.1 r.2) (fun x r => x.write_same r.2 r.1) s (byteRuns l)

theorem storeRaw_cons (s : State) (v : W512) (p : VLane × Nat) (ps : List (VLane × Nat)) :
    storeRaw s v (p :: ps) = s.through p.1.a ((p :: ps).map Prod.snd) (runsWritten (rawCells v (p :: ps))) := rfl

theorem stores_storeRaw (s : State) (v : W512) (ps : List (VLane × Nat)) : Stores s (storeRaw s v ps) := by
  cases ps with
  | nil => exact .refl s
  | cons p ps =>
    rw [storeRaw_cons]
    exact .through (.refl s) fun x => .foldl (fun y _ => .write (.refl y)) (.refl x) _

theorem under_path (s : State) {a a' : W64} (h : viaGlobal a = viaGlobal a') (b : Nat) : s.under a b = s.under a' b := by
  unfold State.under
  rw [h]

section
variable {s : State} {v : W512} {ps : List (VLane × Nat)}

theorem byte_storeRaw_cons (p : VLane × Nat) (b : Nat) : (storeRaw s v (p :: ps)).byte b =
    if s.under p.1.a b = true then s.byte b else laid (rawCells v (p :: ps)) b (s.byte b) := by
  rw [storeRaw_cons]
  refine byte_through s p.1.a _ (fun x b => byte_runsWritten _ x b) (fun b w out => laid_outside (rawCells_ne fun q hq eq => out ?_)) b
  exact eq ▸ List.mem_map_of_mem hq

theorem byte_storeRaw_outside {b : Nat} (out : ∀ p ∈ ps, p.2 ≠ b) : (storeRaw s v ps).byte b = s.byte b := by
  cases ps with
  | nil => rfl
  | cons p ps => rw [byte_storeRaw_cons, laid_outside (rawCells_ne out), ite_self]

theorem under_storeRaw {a : W64} {b : Nat} (out : ∀ p ∈ ps, p.2 ≠ b) : (storeRaw s v ps).under a b = s.under a b := by
  cases ps with
  | nil => rfl
  | cons p ps =>
    rw [storeRaw_cons]
    refine under_through s (runsWritten_sameButMemory _) (.inr fun hb => ?_)
    obtain ⟨q, hq, eq⟩ := List.mem_map.mp hb
    exact out q hq eq

/-- One lane of a store through one path. -/
theorem byte_storeRaw {g : Bool} (path : ∀ p ∈ ps, viaGlobal p.1.a = g) (once : (ps.map Prod.snd).Nodup) {p : VLane × Nat} (hp : p ∈ ps) :
    (storeRaw s v ps).byte p.2 = if s.under p.1.a p.2 = true then s.byte p.2 else BitVec.ofNat 8 (laneOf v 8 p.1.k) := by
  cases ps with
  | nil => exact absurd hp List.not_mem_nil
  | cons q ps =>
    have mem : (p.2, BitVec.ofNat 8 (laneOf v 8 p.1.k)) ∈ rawCells v (q :: ps) := List.mem_map.mpr ⟨p, hp, rfl⟩
    rw [byte_storeRaw_cons, under_path s ((path q (.head _)).trans (path p hp).symm)]
    refine if_congr Iff.rfl rfl ?_
    exact laid_mem (by rw [rawCells_keys]; exact once) mem _

end

/-- A RAW store: the lanes through the private alias, then those through the global address. -/
def rawStored (s : State) (v : W512) (ps : List (VLane × Nat)) : State :=
  storeRaw (storeRaw s v (ps.filter fun p => !viaGlobal p.1.a)) v (ps.filter fun p => viaGlobal p.1.a)

theorem stores_rawStored (s : State) (v : W512) (ps : List (VLane × Nat)) : Stores s (rawStored s v ps) :=
  (stores_storeRaw ..).trans (stores_storeRaw ..)

section
variable {s : State} {v : W512} {ps : List (VLane × Nat)}

theorem byte_rawStored_outside {b : Nat} (out : ∀ p ∈ ps, p.2 ≠ b) : (rawStored s v ps).byte b = s.byte b := by
  rw [rawStored, byte_storeRaw_outside fun p hp => out p (List.mem_of_mem_filter hp),
    byte_storeRaw_outside fun p hp => out p (List.mem_of_mem_filter hp)]

theorem byte_rawStored (once : (ps.map Prod.snd).Nodup) {p : VLane × Nat} (hp : p ∈ ps) :
    (rawStored s v ps).byte p.2 = if s.under p.1.a p.2 = true then s.byte p.2 else BitVec.ofNat 8 (laneOf v 8 p.1.k) := by
  have part (g : VLane × Nat → Bool) : ((ps.filter g).map Prod.snd).Nodup := once.sublist (List.filter_sublist.map _)
  have alone (q : VLane × Nat) (hq : q ∈ ps) (differ : viaGlobal q.1.a ≠ viaGlobal p.1.a) : q.2 ≠ p.2 := fun eq =>
    differ (by rw [List.inj_on_of_nodup_map once hq hp eq])
  have priv : ∀ q ∈ ps.filter (fun p => !viaGlobal p.1.a), viaGlobal q.1.a = false := fun q hq => by simpa using (List.mem_filter.mp hq).2
  have glob : ∀ q ∈ ps.filter (fun p => viaGlobal p.1.a), viaGlobal q.1.a = true := fun q hq => (List.mem_filter.mp hq).2
  rw [rawStored]
  cases hg : viaGlobal p.1.a with
  | false =>
    rw [byte_storeRaw_outside fun q hq => alone q (List.mem_of_mem_filter hq) (by rw [glob q hq, hg]; decide)]
    exact byte_storeRaw priv (part _) (List.mem_filter.mpr ⟨hp, by rw [hg]; rfl⟩)
  | true =>
    have before : ∀ q ∈ ps.filter (fun p => !viaGlobal p.1.a), q.2 ≠ p.2 := fun q hq =>
      alone q (List.mem_of_mem_filter hq) (by rw [priv q hq, hg]; decide)
    rw [byte_storeRaw glob (part _) (List.mem_filter.mpr ⟨hp, hg⟩), under_storeRaw before, byte_storeRaw_outside before]

end

/-! Vector stores as instructions -/

/-- What a vector store does to memory, with its flags. -/
def vecStored (s : State) (v : W512) (f : Nat) (sat : Bool) (sd : Option W16) (ps : List (VLane × Nat)) : State × Flags :=
  if f = 0 then (rawStored s v ps, 0) else lanesNarrowed s f sat sd (fun p => laneOf v (memWidth f) p.1.k) ps

theorem stores_vecStored (s : State) (v : W512) (f : Nat) (sat : Bool) (sd : Option W16) (ps : List (VLane × Nat)) :
    Stores s (vecStored s v f sat sd ps).1 := by
  unfold vecStored
  split
  · exact stores_rawStored ..
  · exact stores_lanesNarrowed ..

/-- A task whose store is performed at these lanes. -/
def owesLanes (ps : List (VLane × Nat)) (x : Task) : Task := if ps = [] then x else owing x

/-- The state of a performed store, counted and retired. -/
def vecPosted (u : State) (ps : List (VLane × Nat)) (len : Nat) : State :=
  retire (if ps = [] then chargeLanes u true ps else (chargeLanes u true ps).owe 4) len

theorem storeLanes_eq (s : State) (d : BitVec 4) (f : Nat) (sat : Bool) (sd : Option W16) (ps : List (VLane × Nat)) (len : Nat) :
    storeLanes s d f sat sd ps len = vecEnter (vecPosted (vecStored s (s.curTask.vec d) f sat sd ps).1 ps len)
      (vecStored s (s.curTask.vec d) f sat sd ps).2 none := by
  unfold storeLanes vecStored vecPosted
  dsimp only
  by_cases h : f = 0
  · rw [if_pos h, if_pos h]
    rfl
  · rw [if_neg h, if_neg h, memWidth, if_neg h]
    rfl

theorem SameView.vecPosted (u : State) (ps : List (VLane × Nat)) (len : Nat) : SameView u (vecPosted u ps len) := by
  refine .retire ?_
  split
  · exact .chargeLanes (.refl u)
  · exact .owe (.chargeLanes (.refl u))

theorem accessed_vecPosted (u : State) (ps : List (VLane × Nat)) (len : Nat) : Accessed u (vecPosted u ps len) := by
  have charged : Accessed u (chargeLanes u true ps) := (Stores.chargeLanes (.refl u)).acc
  have retired (x : State) (k : Accessed u x) : Accessed u (retire x len) := accessed_onCur k
  refine retired _ ?_
  split
  · exact charged
  · exact accessed_owe charged 4

theorem curTask_vecPosted (u : State) (ps : List (VLane × Nat)) (len : Nat) : (vecPosted u ps len).curTask = (owesLanes ps u.curTask).advance len := by
  have charged : (chargeLanes u true ps).curTask = u.curTask := (Stores.chargeLanes (.refl u)).curTask
  have retired (x : State) : (retire x len).curTask = x.curTask.advance len := curTask_onCur x _
  rw [vecPosted, retired, owesLanes]
  split
  · rw [charged]
  · rw [curTask_owe, charged]

section
variable {s s1 : State} {i : Instr} {g : Guard} {len : Nat} {f d : BitVec 4} {a : BitVec 5} {sat : BitVec 1} {sd : Option W16}
  {lanes : Task → GVal → List VLane} {ps : List (VLane × Nat)}
  (exec_eq : exec i s = vecStore g i len f d a sat sd lanes s) (hg : s.curTask.guardOk g = true) (room : s.me.vecq.length < 16)
  (served : ¬ ((f = 11 ∨ f = 13) ∧ s.domeOnly = true))
include exec_eq hg served

theorem vecStore_stops {st : Stop}
    (h : resolveLanes s (s.curTask.reg a) permSt f.toNat .store (lanes s.curTask (s.curTask.reg a)) = .error st) : StopsUnwritten i s st := by
  refine stopsUnwritten_of_error (show exec i s = guarded g len s _ from exec_eq) hg ?_ (resolveLanes_unwritten h)
  simp only [withheld_served served, h, bind, Except.bind]

include room

theorem vecStore_queued {m : State → Prop}
    (h : resolveLanes s (s.curTask.reg a) permSt f.toNat .store (lanes s.curTask (s.curTask.reg a)) = .ok (s1, ps))
    (hm : ∀ t : State, (∀ b, t.byte b = (vecStored s1 (s.curTask.vec d) f.toNat (decide (sat = 1)) sd ps).1.byte b) → m t) :
    QueuedAccess i len s (owesLanes ps) (vecStored s1 (s.curTask.vec d) f.toNat (decide (sat = 1)) sd ps).2 none m := by
  have placed := (resolveLanes_view h).1
  have stored := stores_vecStored s1 (s.curTask.vec d) f.toNat (decide (sat = 1)) sd ps
  have run : exec i s = finish s (storeLanes s1 d f.toNat (decide (sat = 1)) sd ps len) := by
    rw [exec_eq, vecStore, guarded_on hg]
    simp only [withheld_served served, h, bind, Except.bind]
  rw [storeLanes_eq, Counted.vec placed.counted] at run
  generalize vecStored s1 (s.curTask.vec d) f.toNat (decide (sat = 1)) sd ps = r at *
  have acc : Accessed s (vecPosted r.1 ps len) := accessed_trans placed.1.1 (accessed_trans stored.acc (accessed_vecPosted ..))
  rw [vecEnter_room (by rw [accessed_vecq acc]; exact room)] at run
  refine queuedAccess (x := s1.curTask) run acc (hm _ fun b => ?_) placed.counted ?_
  · rw [byte_enqueued, (SameView.vecPosted r.1 ps len).byte]
  · rw [curTask_vecPosted, stored.curTask]

end

end Sys2Proof.Machine
end

section
/-! PROOFS. Vector loads and stores settled (R192 to R197). -/

namespace Sys2Proof.Machine

open Sys2Proof.Safety Sys2Proof.Laws

/-! What every list of lanes keeps -/

/-- Each lane once, each of some bytes, and all of nibbles or none. -/
structure LanesOk (ls : List VLane) : Prop where
  once : (ls.map VLane.k).Nodup
  pos : ∀ l ∈ ls, 1 ≤ l.n
  nibs : (∀ l ∈ ls, l.nib = none) ∨ ∀ l ∈ ls, l.nib ≠ none

theorem nodup_lanesOn (x : Task) (m : BitVec 2) (n : Nat) : (lanesOn x m n).Nodup := List.nodup_range.filter _

theorem lanesOk_map (x : Task) (m : BitVec 2) (n : Nat) {lane : Nat → VLane} (key : ∀ k, (lane k).k = k) (pos : ∀ k, 1 ≤ (lane k).n)
    (nibs : (∀ k, (lane k).nib = none) ∨ ∀ k, (lane k).nib ≠ none) : LanesOk ((lanesOn x m n).map lane) := by
  have all {P : VLane → Prop} (h : ∀ k, P (lane k)) : ∀ l ∈ (lanesOn x m n).map lane, P l := by
    intro l hl
    obtain ⟨k, -, rfl⟩ := List.mem_map.mp hl
    exact h k
  refine ⟨?_, all pos, nibs.imp (fun h => all h) fun h => all h⟩
  rw [List.map_map, show VLane.k ∘ lane = id from funext key, List.map_id]
  exact nodup_lanesOn ..

theorem laneSize_pos (f : Nat) (a : W64) : 1 ≤ laneSize f a := by
  unfold laneSize fmtWidth
  split
  · split <;> decide
  · exact Nat.le_max_left ..

theorem lanesOk_rowLanes (x : Task) (m : BitVec 2) (f : Nat) (base : W64) : LanesOk (rowLanes x m f base) := by
  by_cases hf : f = 0
  · rw [hf, rowLanes_raw]
    exact lanesOk_map x m 64 (fun _ => rfl) (fun _ => Nat.le_refl 1) (.inl fun _ => rfl)
  · cases hw : planeWin base with
    | none =>
      rw [rowLanes_plain x m hf hw]
      by_cases h4 : rawBits f = 4
      · have eq (k : Nat) : rowLane f base k = ⟨k, base + BitVec.ofNat 64 (k / 2), 1, 1, some (k % 2 = 1), false, false⟩ := if_pos h4
        exact lanesOk_map x m _ (fun k => by rw [eq]) (fun k => by rw [eq]) (.inr fun k => by rw [eq]; exact Option.some_ne_none _)
      · have eq (k : Nat) : rowLane f base k = laneAt f k (base + BitVec.ofNat 64 (k * max 1 (rawBits f / 8))) none := if_neg h4
        exact lanesOk_map x m _ (fun k => by rw [eq]; rfl) (fun k => by rw [eq]; exact laneSize_pos ..) (.inl fun k => by rw [eq]; rfl)
    | some w =>
      unfold rowLanes
      rw [if_neg hf, hw]
      refine lanesOk_map x m _ (fun _ => rfl) (fun _ => ?_) (.inl fun _ => rfl)
      show 1 ≤ fmtWidth f / 8
      unfold fmtWidth
      split <;> decide

theorem lanesOk_offsetLanes (x : Task) (m : BitVec 2) (f : Nat) (c : W64) (off : Nat → W64) : LanesOk (offsetLanes x m f c off) := by
  rw [offsetLanes_eq]
  by_cases h4 : rawBits f = 4
  · have eq (k : Nat) : offsetLane f c off k = laneAt f k (c + (off k).sshiftRight 1) (some ((off k).getLsbD 0)) := if_pos h4
    exact lanesOk_map x m _ (fun k => by rw [eq]; rfl) (fun k => by rw [eq]; exact laneSize_pos ..)
      (.inr fun k => by rw [eq]; exact Option.some_ne_none _)
  · have eq (k : Nat) : offsetLane f c off k = laneAt f k (c + off k) none := if_neg h4
    exact lanesOk_map x m _ (fun k => by rw [eq]; rfl) (fun k => by rw [eq]; exact laneSize_pos ..) (.inl fun k => by rw [eq]; rfl)

theorem LanesOk.nodup {ls : List VLane} {ps : List (VLane × Nat)} (h : LanesOk ls) (lanes : ps.map Prod.fst = ls) : ps.Nodup :=
  .of_map Prod.fst (.of_map VLane.k (lanes ▸ h.once))

/-! Loads -/

theorem toNat_eq_zero_iff (f : BitVec 4) : f.toNat = 0 ↔ f = 0 := ⟨fun h => BitVec.eq_of_toNat_eq h, fun h => h ▸ rfl⟩

theorem gotLane_toNat (s : State) (f : BitVec 4) (p : VLane × Nat) :
    gotLane s f.toNat p = if f = 0 then (s.seenNat p.1.a p.2 1, 0) else loadLane s f.toNat p.1 p.2 :=
  if_congr (toNat_eq_zero_iff f) rfl rfl

theorem loadedFlags_iff (s : State) (f : Nat) (ps : List (VLane × Nat)) (j : Nat) :
    (loadedFlags s f ps).getLsbD j = true ↔ ∃ p ∈ ps, (gotLane s f p).2.getLsbD j = true := by
  rw [loadedFlags, foldl_flags]
  simp

theorem fmtWidth_toNat {f : BitVec 4} (hf : f ≠ 0) : fmtWidth f.toNat = if f = 0 then 8 else if f = 11 ∨ f = 13 then 64 else 32 := by
  rw [← memWidth_toNat, memWidth, if_neg fun e => hf ((toNat_eq_zero_iff f).mp e)]

theorem raw_of_bits {f : BitVec 4} (h : rawBits f.toNat ≠ 0) : f ≠ 0 := by
  rintro rfl
  exact h rfl

theorem vectorLoads (s s1 : State) (g : Guard) (d : BitVec 4) (a : BitVec 5) (f : BitVec 4) (ps : List (VLane × Nat))
    (i : Instr) (lanes : Task → GVal → List VLane) (exec_eq : exec i s = vecLoad g i f d a lanes s)
    (hg : s.curTask.guardOk g = true) (room : s.me.vecq.length < 16) (served : ¬ ((f = 11 ∨ f = 13) ∧ s.domeOnly = true)) :
    let y := s.curTask
    let c := y.reg a
    let w := if f = 0 then 8 else if f = 11 ∨ f = 13 then 64 else 32
    let got (p : VLane × Nat) : Nat × Flags := if f = 0 then (s1.seenNat p.1.a p.2 1, 0) else loadLane s1 f.toNat p.1 p.2
    (resolveLanes s c permLd f.toNat .load (lanes y c) = .ok (s1, ps) →
      ((∀ p ∈ ps, laneBad s1 p.1 p.2 = false) → ∃ u fl, QueuedAccess i 4 s (fun x => x.setVec d u) fl none (MemorySame s)
        ∧ (∀ k < 512 / w, laneOf u w k = (ps.find? fun p => p.1.k = k).elim (laneOf (y.vec d) w k) fun p => (got p).1 % 2 ^ w)
        ∧ ∀ j, fl.getLsbD j = true ↔ ∃ p ∈ ps, (got p).2.getLsbD j = true)
      ∧ (∀ p, ps.find? (fun p => laneBad s1 p.1 p.2) = some p →
          Answers i s (enqueued (retire (closeFrames s1 p.2 p.1.n) 4) 0 (some p.1.a))
          ∧ (closeFrames s1 p.2 p.1.n = s1 → QueuedAccess i 4 s id 0 (some p.1.a) (MemorySame s))))
    ∧ ∀ st, resolveLanes s c permLd f.toNat .load (lanes y c) = .error st → StopsUnwritten i s st := by
  intro y c w got
  have width : memWidth f.toNat = w := memWidth_toNat f
  have each (p : VLane × Nat) : gotLane s1 f.toNat p = got p := gotLane_toNat s1 f p
  refine ⟨fun h => ⟨fun clean => ⟨_, _, vecLoad_clean exec_eq hg room served h clean, fun k hk => ?_, fun j => ?_⟩,
    fun p bad => vecLoad_faulty exec_eq hg room served h bad⟩, fun st h => vecLoad_stops exec_eq hg served h⟩
  · rw [← width] at hk ⊢
    rw [laneOf_loadedVec hk, loadedLane]
    cases ps.find? fun p => decide (p.1.k = k) with
    | none => exact Nat.mod_eq_of_lt (laneOf_lt ..)
    | some p => exact congrArg (fun r : Nat × Flags => r.1 % 2 ^ memWidth f.toNat) (each p)
  · rw [loadedFlags_iff]
    exact exists_congr fun p => and_congr_right fun _ => by rw [each]

/-! Stores -/

section
variable {s s1 : State} {f : Nat} {sat : Bool} {sd : Option W16} {val : VLane × Nat → Nat} {ls : List VLane} {ps : List (VLane × Nat)}
  (view : SameView s s1) (ok : LanesOk ls) (lanes : ps.map Prod.fst = ls) (outside : ∀ p ∈ ps, planeWin p.1.a = none)
include ok lanes

theorem pos_of_mem {p : VLane × Nat} (hp : p ∈ ps) : 1 ≤ p.1.n := ok.pos p.1 (lanes ▸ List.mem_map_of_mem hp)

theorem nibs_of_mem {p : VLane × Nat} (hp : p ∈ ps) (hn : p.1.nib ≠ none) : ∀ q ∈ ps, q.1.nib ≠ none := fun q hq =>
  ok.nibs.elim (fun h => absurd (h p.1 (lanes ▸ List.mem_map_of_mem hp)) hn) fun h => h q.1 (lanes ▸ List.mem_map_of_mem hq)

include view outside

/-- The element that a lane of a store holds once it is converted. -/
def narrowed (f : Nat) (sat : Bool) (sd : Option W16) (val : VLane × Nat → Nat) (p : VLane × Nat) : Nat × Flags :=
  narrow f sat (laneRounding sd p.1.k) (val p)

/-- A lane's bytes, where no other lane writes. -/
theorem byte_whole {p : VLane × Nat} (hp : p ∈ ps) (whole : p.1.nib = none)
    (alone : ∀ q ∈ ps, q ≠ p → q.2 + q.1.n ≤ p.2 ∨ p.2 + p.1.n ≤ q.2) (k : Nat) (h : k < (leBytes p.1.n (narrowed f sat sd val p).1).length) :
    (lanesNarrowed s1 f sat sd val ps).1.byte (p.2 + k)
      = if s.under p.1.a (p.2 + k) = true then s.byte (p.2 + k) else (leBytes p.1.n (narrowed f sat sd val p).1)[k] := by
  have hk : k < p.1.n := leBytes_length p.1.n _ ▸ h
  have span : laneSpan p.1 = p.1.n := if_pos whole
  rw [lanesNarrowed_outside s1 f sat sd val outside]
  dsimp only
  rw [byte_lanesStored _ (ok.nodup lanes) hp (by rw [span]; exact hk), view.under, view.byte, view.byte]
  · refine if_congr Iff.rfl rfl ?_
    have bytes (old : Byte) (c : Nat) : laneBytes old p.1 c = leBytes p.1.n c := by
      unfold laneBytes
      rw [whole]
    rw [bytes]
    exact List.getD_eq_getElem _ _ h
  · intro q hq differ
    have := laneSpan_le (pos_of_mem ok lanes hq)
    rcases alone q hq differ with h | h
    · exact .inr (by omega)
    · exact .inl (by omega)

/-- A lane's byte, of which a nibble is stored and which no other lane writes. -/
theorem byte_nibble {p : VLane × Nat} (hp : p ∈ ps) {hi : Bool} (half : p.1.nib = some hi) (alone : ∀ q ∈ ps, q ≠ p → q.2 ≠ p.2) :
    (lanesNarrowed s1 f sat sd val ps).1.byte p.2 = if s.under p.1.a p.2 = true then s.byte p.2
      else (leBytes 1 (if hi then (s.byte p.2).toNat % 16 + (narrowed f sat sd val p).1 % 16 * 16
        else (s.byte p.2).toNat / 16 * 16 + (narrowed f sat sd val p).1 % 16)).getD 0 0 := by
  have nibs := nibs_of_mem ok lanes hp (by rw [half]; exact Option.some_ne_none hi)
  have span (q : VLane × Nat) (hq : q ∈ ps) : laneSpan q.1 = 1 := if_neg (nibs q hq)
  have cell := byte_lanesStored (fun p => (narrowed f sat sd val p).1) (s := s1) (ok.nodup lanes) hp (k := 0) (by rw [span p hp]; decide)
    fun q hq differ => by
      have apart := alone q hq differ
      unfold Beside
      rw [span q hq]
      omega
  rw [Nat.add_zero, view.under, view.byte] at cell
  rw [lanesNarrowed_outside s1 f sat sd val outside]
  refine cell.trans (if_congr Iff.rfl rfl ?_)
  unfold laneBytes
  rw [half]

/-- Every cell beside the lanes. -/
theorem byte_beside {b : Nat} (out : ∀ p ∈ ps, b < p.2 ∨ p.2 + p.1.n ≤ b) : (lanesNarrowed s1 f sat sd val ps).1.byte b = s.byte b := by
  rw [lanesNarrowed_outside s1 f sat sd val outside]
  refine (byte_lanesStored_beside _ fun p hp => ?_).trans (view.byte b)
  have := laneSpan_le (pos_of_mem ok lanes hp)
  exact (out p hp).imp_right fun h => by omega

end

theorem flags_lanesNarrowed (s : State) {f : Nat} {sat : Bool} {sd : Option W16} {val : VLane × Nat → Nat} {ps : List (VLane × Nat)}
    (outside : ∀ p ∈ ps, planeWin p.1.a = none) (j : Nat) :
    (lanesNarrowed s f sat sd val ps).2.getLsbD j = true ↔ ∃ p ∈ ps, (narrowed f sat sd val p).2.getLsbD j = true := by
  rw [lanesNarrowed_outside s f sat sd val outside, foldl_flags]
  simp [narrowed]

theorem nibble_toNat {n : Nat} (h : n < 256) : ((leBytes 1 n).getD 0 0).toNat = n := by
  show (BitVec.ofNat 8 n).toNat = n
  rw [BitVec.toNat_ofNat]
  exact Nat.mod_eq_of_lt h

theorem vectorStores (s s1 : State) (g : Guard) (d : BitVec 4) (a : BitVec 5) (f : BitVec 4) (sat : BitVec 1) (ps : List (VLane × Nat))
    (i : Instr) (len : Nat) (sd : Option W16) (lanes : Task → GVal → List VLane) (exec_eq : exec i s = vecStore g i len f d a sat sd lanes s)
    (hg : s.curTask.guardOk g = true) (room : s.me.vecq.length < 16) (served : ¬ ((f = 11 ∨ f = 13) ∧ s.domeOnly = true))
    (ok : LanesOk (lanes s.curTask (s.curTask.reg a))) :
    let y := s.curTask
    let c := y.reg a
    let w := if f = 0 then 8 else if f = 11 ∨ f = 13 then 64 else 32
    let owes (x : Task) : Task := if ps = [] then x else owing x
    let val (p : VLane × Nat) : Nat := laneOf (y.vec d) w p.1.k
    let outside : Prop := ∀ p ∈ ps, planeWin p.1.a = none
    (resolveLanes s c permSt f.toNat .store (lanes y c) = .ok (s1, ps) →
      let elem (p : VLane × Nat) : Nat × Flags := narrow f.toNat (decide (sat = 1)) (laneRounding sd p.1.k) (val p)
      let all := ps.foldl (fun (r : State × Flags) p =>
        let u := storeLane r.1 f.toNat (decide (sat = 1)) sd (val p) p.1 p.2
        (u.1, r.2 ||| u.2)) (s1, 0)
      QueuedAccess i len s owes (if f = 0 then 0 else all.2) none fun t =>
        (f ≠ 0 → ∀ k, t.byte k = all.1.byte k)
        ∧ (s.loopMine = [] → ∀ p ∈ ps, ∀ k, s.under p.1.a k = false)
        ∧ (f = 0 → (ps.map (·.2)).Nodup → ∀ p ∈ ps, t.byte p.2 = if s.under p.1.a p.2 then s.byte p.2 else BitVec.ofNat 8 (val p))
        ∧ (f ≠ 0 → outside → ∀ p ∈ ps,
          (p.1.nib = none → (∀ q ∈ ps, q ≠ p → q.2 + q.1.n ≤ p.2 ∨ p.2 + p.1.n ≤ q.2) → ∀ k (h : k < (leBytes p.1.n (elem p).1).length),
            t.byte (p.2 + k) = if s.under p.1.a (p.2 + k) then s.byte (p.2 + k) else (leBytes p.1.n (elem p).1)[k])
          ∧ (p.1.nib ≠ none → s.under p.1.a p.2 = true → (∀ q ∈ ps, q ≠ p → q.2 ≠ p.2) → t.byte p.2 = s.byte p.2)
          ∧ ∀ hi, p.1.nib = some hi → s.under p.1.a p.2 = false → (∀ q ∈ ps, q ≠ p → q.2 ≠ p.2) →
            (t.byte p.2).toNat = if hi = true then (s.byte p.2).toNat % 16 + (elem p).1 % 16 * 16
              else (s.byte p.2).toNat / 16 * 16 + (elem p).1 % 16)
        ∧ (f ≠ 0 → outside → ∀ j, all.2.getLsbD j = true ↔ ∃ p ∈ ps, (elem p).2.getLsbD j = true)
        ∧ (outside → ∀ k, (∀ p ∈ ps, k < p.2 ∨ p.2 + p.1.n ≤ k) → t.byte k = s.byte k))
    ∧ ∀ st, resolveLanes s c permSt f.toNat .store (lanes y c) = .error st → StopsUnwritten i s st := by
  intro y c w owes val outside
  refine ⟨fun h => ?_, fun st h => vecStore_stops exec_eq hg served h⟩
  intro elem all
  obtain ⟨placed, fst⟩ := resolveLanes_view h
  have view := placed.view
  have width : memWidth f.toNat = w := memWidth_toNat f
  have raw (hf : f = 0) : vecStored s1 (y.vec d) f.toNat (decide (sat = 1)) sd ps = (rawStored s1 (y.vec d) ps, 0) :=
    if_pos ((toNat_eq_zero_iff f).mpr hf)
  have narrowedAll (hf : f ≠ 0) : vecStored s1 (y.vec d) f.toNat (decide (sat = 1)) sd ps = all := by
    rw [vecStored, if_neg fun e => hf ((toNat_eq_zero_iff f).mp e), width]
    rfl
  have flags : (vecStored s1 (y.vec d) f.toNat (decide (sat = 1)) sd ps).2 = if f = 0 then 0 else all.2 := by
    by_cases hf : f = 0
    · rw [raw hf, if_pos hf]
    · rw [narrowedAll hf, if_neg hf]
  rw [← flags]
  refine vecStore_queued exec_eq hg room served h fun t bytes => ⟨fun hf k => ?_, fun none p _ k => (loopless s p.1.a none k).2.2.2.1, fun hf once p hp => ?_,
    fun hf out p hp => ⟨fun whole alone k hk => ?_, fun nib under alone => ?_, fun hi half free alone => ?_⟩, fun hf out j => ?_, fun out k beside => ?_⟩
  · rw [bytes, narrowedAll hf]
  · rw [bytes, raw hf, byte_rawStored once hp, view.under, view.byte]
    exact if_congr Iff.rfl rfl (by rw [show val p = laneOf (y.vec d) 8 p.1.k by simp only [val, w, if_pos hf]])
  · rw [bytes, narrowedAll hf]
    exact byte_whole view ok fst out hp whole alone k hk
  · rw [bytes, narrowedAll hf]
    obtain ⟨hi, half⟩ := Option.ne_none_iff_exists'.mp nib
    exact (byte_nibble view ok fst out hp half alone).trans (if_pos under)
  · rw [bytes, narrowedAll hf]
    have byte := (byte_nibble (f := f.toNat) (sat := decide (sat = 1)) (sd := sd) (val := val) view ok fst out hp half alone).trans
      (if_neg (by rw [free]; decide))
    have small := (s.byte p.2).isLt
    refine (congrArg BitVec.toNat byte).trans (nibble_toNat ?_)
    split <;> omega
  · exact flags_lanesNarrowed s1 out j
  · rw [bytes]
    by_cases hf : f = 0
    · rw [raw hf, byte_rawStored_outside, view.byte]
      rintro p hp rfl
      have := ok.pos p.1 (fst ▸ List.mem_map_of_mem hp)
      have := beside p hp
      omega
    · rw [narrowedAll hf]
      exact byte_beside view ok fst out beside

end Sys2Proof.Machine
end

section
/-! PROOFS. O25 (R192 to R197). -/

namespace Sys2Proof.Machine

open Sys2Proof.Safety Sys2Proof.Laws

theorem vgath_index (t : Task) (f v : BitVec 4) (k : Nat) :
    BitVec.ofInt 64 (sxInt (laneOf (t.vec v) (fmtWidth f.toNat) k) (fmtWidth f.toNat)) =
      BitVec.ofInt 64 (if 2 * laneOf (t.vec v) (fmtWidth f.toNat) k < 2 ^ fmtWidth f.toNat then (laneOf (t.vec v) (fmtWidth f.toNat) k : Int)
        else (laneOf (t.vec v) (fmtWidth f.toNat) k : Int) - 2 ^ fmtWidth f.toNat) := by
  rw [sxInt_of_lt (laneOf_lt ..)]

/-- Settles O25: loads by the lanes they find, stores by the one lane that writes a cell, through the list of the loop-back paths. -/
theorem vectorLoadsAndStores : Obligations.VectorLoadsAndStores := by
  unfold Obligations.VectorLoadsAndStores
  refine ⟨?_, ?_⟩
  · intro s s1 g d v a x m f ps hg room served y c base w strided on index got loads
    have each (i : Instr) (lanes : Task → GVal → List VLane) (h : exec i s = vecLoad g i f d a lanes s) : loads i (lanes y c) := by
      obtain ⟨done, stops⟩ := vectorLoads s s1 g d a f ps i lanes h hg room served
      refine ⟨fun hr => ⟨fun clean => ?_, (done hr).2⟩, stops⟩
      obtain ⟨u, fl, queued, vec, flags⟩ := (done hr).1 clean
      refine ⟨u, fl, queued, fun k hk => (vec k hk).trans ?_, flags⟩
      cases ps.find? fun p => p.1.k = k <;> rfl
    have width (hf : f ≠ 0) : fmtWidth f.toNat = w := fmtWidth_toNat hf
    have active (hf : f ≠ 0) : lanesOn y m (fmtLanes f.toNat) = on := by rw [fmtLanes, width hf]; rfl
    have rows (hf : f ≠ 0) (hw : planeWin base = none) : vldLanes m f x y c = on.map (rowLane f.toNat base) := by
      rw [← active hf]
      exact rowLanes_plain y m (fun e => hf ((toNat_eq_zero_iff f).mp e)) hw
    have stride (hf : f ≠ 0) : strided = on.map (offsetLane f.toNat (cursor c.bits) fun k => BitVec.ofNat 64 k * y.r64 x) := by
      rw [← active hf]
      exact offsetLanes_eq ..
    have gather (hf : f ≠ 0) : vgathLanes m f v y c = on.map (offsetLane f.toNat (cursor c.bits) index) := by
      have eq : index = fun k => BitVec.ofInt 64 (sxInt (laneOf (y.vec v) (fmtWidth f.toNat) k) (fmtWidth f.toNat)) := by
        funext k
        rw [vgath_index, width hf]
      rw [← active hf, eq]
      exact offsetLanes_eq ..
    have fields {α : Type} {lane : Nat → VLane} {field : VLane → α} {h : Nat → α} (eq : ∀ k, field (lane k) = h k) :
        (on.map lane).map field = on.map h := by
      rw [List.map_map]
      exact List.map_congr_left fun k _ => eq k
    have spread : loads (.vlds g d a x m f) strided :=
      each _ (fun t c => offsetLanes t m f.toNat (cursor c.bits) fun k => BitVec.ofNat 64 k * t.r64 x) rfl
    refine ⟨each (.vld g d a x m f) (vldLanes m f x) rfl, spread, each (.vgath g d a v m f) (vgathLanes m f v) rfl, fun hf => ?_, fun wide hw => ?_, fun hf bits => ?_, fun hf bits => ?_, fun nib => ?_⟩
    · have eq : vldLanes m f x y c = on.map fun k => ⟨k, base + BitVec.ofNat 64 k, 1, 1, none, false, base.toNat % 16 ≠ 0⟩ := by
        have zero : f.toNat = 0 := (toNat_eq_zero_iff f).mpr hf
        have eight : w = 8 := if_pos hf
        rw [vldLanes, zero, rowLanes_raw]
        simp only [on, eight]
        rfl
      rw [eq]
      exact fields fun _ => rfl
    · rw [rows (raw_of_bits (by omega)) hw]
      exact fields fun k => rowLane_fields base k wide
    · rw [stride hf]
      exact fields fun k => offsetLane_fields _ _ k bits
    · rw [gather hf]
      exact fields fun k => offsetLane_fields _ _ k bits
    · have hf : f ≠ 0 := raw_of_bits (by omega)
      refine ⟨fun hw => ?_, ?_, ?_⟩
      · rw [rows hf hw]
        exact fields fun k => rowLane_nibble base k nib
      · rw [stride hf]
        exact fields fun k => offsetLane_nibble _ _ k nib
      · rw [gather hf]
        exact fields fun k => offsetLane_nibble _ _ k nib
  · intro s s1 g d v a x m f sat seed ps hg room served y c w owes val outside stores
    have row : LanesOk (vldLanes m f x y c) := lanesOk_rowLanes ..
    have gath : LanesOk (vgathLanes m f v y c) := lanesOk_offsetLanes ..
    exact ⟨vectorStores s s1 g d a f sat ps (.vst g d a x m f sat) 4 none (vldLanes m f x) rfl hg room served row,
      vectorStores s s1 g d a f sat ps (.vstSeed g d a x m f sat seed) 8 (some seed) (vldLanes m f x) rfl hg room served row,
      vectorStores s s1 g d a f sat ps (.vscat g d a v m f sat) 4 none (vgathLanes m f v) rfl hg room served gath,
      vectorStores s s1 g d a f sat ps (.vscatSeed g d a v m f sat seed) 8 (some seed) (vgathLanes m f v) rfl hg room served gath⟩

end Sys2Proof.Machine
end

section
/-! PROOFS. The matrix unit on a core in BALLAST whose state log is on (R428, R435 to R437). -/

namespace Sys2Proof.Machine

open Sys2Proof.Safety

/-- A started MX.MMA of one element, with the one granule triple that it has left. -/
def lastTriple : MxOp :=
  { id := 0, task := 1, kind := .mma, tile := 0, winA := 1, offA := 0, winB := 1, offB := 1024, desc := 0, slot := 0, seed := none, started := true,
    prog := 0, finished := false, hw := 0, sealed_ := false, gd := 0, part := [], flags := 0, before := [] }

/-- Core 0 is in BALLAST, its matrix operation holds the plane array for a task that waits, and its state log, which says so, is on: a ring of
64 bytes in the scratchpad of core 4. -/
def ballastLogged : State := { State.reset with
  cores := [(0, { Core.zero with
    mx0 := [lastTriple], gov := { Core.zero.gov with kind := .ballast }, slog := ⟨1, BitVec.ofNat 64 (spadPa 4), 64, 0, 0, 0⟩,
    logState := 1, logTask := 1 })],
  tasks := [(1, { Task.none with gtid := 1, status := .waitMsg })] }

/-- The unit of `ballastLogged` goes on with the operation, and the state log is up to date before it does. -/
theorem ballastLogged_unit : mxChoice (ballastLogged.core 0) = .unit 0 lastTriple ∧ unitBad ballastLogged 0 lastTriple = none
    ∧ logPair ballastLogged 0 = ((ballastLogged.core 0).logState, (ballastLogged.core 0).logTask) := by decide +kernel

/-- The last triple gives the array up: the cycles that follow are ballast cycles, and the log takes a record for them. -/
theorem tripleBoundary_ballastLogged : ∃ t, exec (.matrixTripleBoundary 0) ballastLogged = .next t
    ∧ t.byte (spadPa 4) ≠ ballastLogged.byte (spadPa 4) :=
  ⟨_, rfl, by decide +kernel⟩

/-- Refutes O28: a granule triple is to leave memory as it was, but in `ballastLogged` the triple is the last one of the operation that holds
the plane array, so the core's cycles become ballast cycles (R428), and its state log, which is on, writes a record of that change to its ring
in memory (R435 to R437). The statement is about every state, also one that logs. -/
theorem not_matrixUnitPerformsOneUnitAtATime : ¬ Obligations.MatrixUnitPerformsOneUnitAtATime := by
  unfold Obligations.MatrixUnitPerformsOneUnitAtATime
  rintro ⟨performs, -⟩
  obtain ⟨choice, clean, -⟩ := ballastLogged_unit
  obtain ⟨-, -, triple, -⟩ := performs ballastLogged 0 0 lastTriple (by decide +kernel)
  obtain ⟨t, ht, -, -, same, -⟩ := triple ⟨choice, clean⟩ (.inl rfl) (fun h => absurd h (by decide))
  obtain ⟨u, hu, logged⟩ := tripleBoundary_ballastLogged
  obtain rfl : t = u := Host.Outcome.next.inj (ht.symm.trans hu)
  exact logged (same _)

end Sys2Proof.Machine
end

section
/-! PROOFS. Loads of bytes (R153, R154, R157) and of elements in the plane windows (R68 to R73, R150). -/

namespace Sys2Proof.Machine

open Sys2Proof.Safety Sys2Proof.Laws

/-! Loads of bytes -/

theorem seenNat_lt (s : State) (a : W64) (pa n : Nat) : s.seenNat a pa n < 2 ^ (8 * n) := by
  have := leNat_lt (s.seen a pa n)
  rwa [State.seen, List.length_map, List.length_range] at this

/-- A number of at most 32 bits, sign-extended into 64 bits of a register. -/
theorem signExtended_eq {m w : Nat} (hw : w ≤ 32) (hm : m < 2 ^ w) : data64 (BitVec.ofInt 64 (sxInt m w)) =
    ⟨BitVec.ofNat 128 (if 2 * m < 2 ^ w then m else 2 ^ 64 - (2 ^ w - m)), .data⟩ := by
  have : 2 ^ w ≤ 2 ^ 32 := Nat.pow_le_pow_right (by decide) hw
  refine congrArg (GVal.mk · .data) (BitVec.eq_of_toNat_eq ?_)
  rw [sxInt_of_lt hm, BitVec.toNat_setWidth, BitVec.toNat_ofInt, BitVec.toNat_ofNat, show (2 : Int) ^ w = ((2 ^ w : Nat) : Int) by push_cast; rfl]
  generalize 2 ^ w = b at *
  split <;> omega

/-- What a load makes of a number of its size (R154). -/
theorem loadValue_eq (z : BitVec 3) {m : Nat} (h : m < 2 ^ (8 * szBytes z)) : loadValue z (szBytes z) m =
    ⟨if z = 1 ∨ z = 3 ∨ z = 5 then
        BitVec.ofNat 128 (if 2 * m < 2 ^ (8 * szBytes z) then m else 2 ^ 64 - (2 ^ (8 * szBytes z) - m))
      else BitVec.ofNat 128 m, .data⟩ := by
  by_cases hz : z = 1 ∨ z = 3 ∨ z = 5
  · rw [if_pos hz]
    obtain rfl | rfl | rfl := hz <;> exact signExtended_eq (by decide) h
  · rw [if_neg hz]
    unfold loadValue
    split
    · next h1 => exact absurd (.inl (BitVec.eq_of_toNat_eq h1)) hz
    · next h3 => exact absurd (.inr (.inl (BitVec.eq_of_toNat_eq h3))) hz
    · next h5 => exact absurd (.inr (.inr (BitVec.eq_of_toNat_eq h5))) hz
    · rfl

/-- A load of the executing task that completes: counted, its flags and its register written, its instruction retired. -/
theorem completes_load {s s1 : State} {i : Instr} {pa n : Nat} {f : Task → Task} (placed : PlacedView s s1)
    (h : exec i s = .next ((s1.chargeCur pa n).onCur fun x => (f x).advance 4)) : AccessCompletes i s f (MemorySame s) := by
  have charged : SameView s (s1.chargeCur pa n) := placed.view.chargeCur
  have st : Stores s1 (s1.chargeCur pa n) := .chargeCur (.refl s1)
  refine completesFrom_onCur h (accessed_trans placed.1.1 st.acc) (st.tid.trans placed.view.tid) charged.onCur.memorySame placed.counted ?_
  rw [st.curTask]

section
variable {s s1 : State} {g : Guard} {d a : BitVec 5} {o : BitVec 8} {z : BitVec 3} {pa : Nat} (hg : s.curTask.guardOk g = true)
include hg

/-- LD outside the plane windows. -/
theorem ld_completes (hw : planeWin (eaM (s.curTask.reg a) o (szBytes z)) = none)
    (hr : resolve s (s.curTask.reg a) permLd (eaM (s.curTask.reg a) o (szBytes z)) (szBytes z) (szBytes z) .load (elemSize z) = .ok (s1, .mem pa))
    (hc : Clean s pa (szBytes z)) :
    AccessCompletes (.ld g d a o z) s (fun x => x.setReg d (loadValue z (szBytes z) (s.seenNat (eaM (s.curTask.reg a) o (szBytes z)) pa (szBytes z))))
      (MemorySame s) := by
  have placed := resolve_view hr
  refine completes_load (pa := pa) (n := szBytes z) placed ?_
  rw [show exec (.ld g d a o z) s = execLd g d a o z s from rfl, execLd, guarded_on hg]
  simp only [hr, hw, bind, Except.bind, loadable_ok (placed.view.clean.mpr hc), pure, Except.pure, placed.view.seenNat]
  rfl

theorem ld_memUe (hw : planeWin (eaM (s.curTask.reg a) o (szBytes z)) = none)
    (hr : resolve s (s.curTask.reg a) permLd (eaM (s.curTask.reg a) o (szBytes z)) (szBytes z) (szBytes z) .load (elemSize z) = .ok (s1, .mem pa))
    (hc : ¬ Clean s pa (szBytes z)) :
    Answers (.ld g d a o z) s (raise (closeFrames s1 pa (szBytes z)) s.curTid .memUe (eaM (s.curTask.reg a) o (szBytes z)) false) := by
  have bad : ¬ Clean s1 pa (szBytes z) := fun k => hc ((resolve_view hr).view.clean.mp k)
  rw [Answers, show exec (.ld g d a o z) s = execLd g d a o z s from rfl, execLd, guarded_on hg]
  simp only [hr, hw, bind, Except.bind, loadable_bad bad]
  rfl

/-- LDA. -/
theorem lda_completes
    (hr : resolve s (s.curTask.reg a) permLd (eaM (s.curTask.reg a) o (szBytes z)) (szBytes z) (szBytes z) .load false = .ok (s1, .mem pa))
    (hc : Clean s pa (szBytes z)) :
    AccessCompletes (.lda g d a o z) s
      (fun x => x.setReg d ⟨BitVec.ofNat 128 (s.seenNat (eaM (s.curTask.reg a) o (szBytes z)) pa (szBytes z)), .data⟩) (MemorySame s) := by
  have placed := resolve_view hr
  have seen (e : W64) : (s1.chargeCur pa (szBytes z)).seenNat e pa (szBytes z) = s.seenNat e pa (szBytes z) := placed.view.chargeCur.seenNat ..
  refine completes_load (pa := pa) (n := szBytes z) placed ?_
  rw [show exec (.lda g d a o z) s = execLda g d a o z s from rfl, execLda, guarded_on hg]
  simp only [readChecked, hr, memTarget, bind, Except.bind, loadable_ok (placed.view.clean.mpr hc), pure, Except.pure, seen]
  rfl

theorem lda_memUe
    (hr : resolve s (s.curTask.reg a) permLd (eaM (s.curTask.reg a) o (szBytes z)) (szBytes z) (szBytes z) .load false = .ok (s1, .mem pa))
    (hc : ¬ Clean s pa (szBytes z)) :
    Answers (.lda g d a o z) s (raise (closeFrames s1 pa (szBytes z)) s.curTid .memUe (eaM (s.curTask.reg a) o (szBytes z)) false) := by
  have bad : ¬ Clean s1 pa (szBytes z) := fun k => hc ((resolve_view hr).view.clean.mp k)
  rw [Answers, show exec (.lda g d a o z) s = execLda g d a o z s from rfl, execLda, guarded_on hg]
  simp only [readChecked, hr, memTarget, bind, Except.bind, loadable_bad bad]
  rfl

/-- LD of an element. -/
theorem ld_element_completes {k : Nat} (hw : planeWin (eaM (s.curTask.reg a) o (szBytes z)) = some k)
    (hr : resolve s (s.curTask.reg a) permLd (eaM (s.curTask.reg a) o (szBytes z)) (szBytes z) (szBytes z) .load (elemSize z) = .ok (s1, .mem pa))
    {gr el : Nat} (at_ : elemAt k (eaM (s.curTask.reg a) o (szBytes z)) = (gr, el)) (hc : elemBad s (spadPa s.cur) k gr el = false) :
    let r := elemLoad s.rdSeen s.curTask.sat k gr el
    AccessCompletes (.ld g d a o z) s (fun x => (x.addFlags r.2).setReg d ⟨BitVec.ofNat 128 r.1, .data⟩) (MemorySame s) := by
  have placed := resolve_view hr
  have view := placed.view
  have seen : s1.rdSeen = s.rdSeen := by unfold State.rdSeen; funext o; rw [view.seenByte, view.cur]
  have sat : s1.curTask.sat = s.curTask.sat := by rw [show s1.curTask = _ from placed.counted]
  have good : elemBad s1 (spadPa s1.cur) k gr el = false := by unfold elemBad at hc ⊢; rwa [view.badByte, view.cur]
  refine completes_load (pa := pa) (n := szBytes z) placed ?_
  rw [show exec (.ld g d a o z) s = execLd g d a o z s from rfl, execLd, guarded_on hg]
  simp only [hr, hw, at_, bind, Except.bind, good, failIf_false, loadElem, seen, sat, pure, Except.pure]
  rfl

theorem ld_element_memUe {k : Nat} (hw : planeWin (eaM (s.curTask.reg a) o (szBytes z)) = some k)
    (hr : resolve s (s.curTask.reg a) permLd (eaM (s.curTask.reg a) o (szBytes z)) (szBytes z) (szBytes z) .load (elemSize z) = .ok (s1, .mem pa))
    {gr el : Nat} (at_ : elemAt k (eaM (s.curTask.reg a) o (szBytes z)) = (gr, el)) (hc : elemBad s (spadPa s.cur) k gr el = true) :
    Answers (.ld g d a o z) s (raise (closeFrames s1 (spadPa s.cur + (eaM (s.curTask.reg a) o (szBytes z)).toNat % 0x100000) 1) s.curTid .memUe
      (eaM (s.curTask.reg a) o (szBytes z)) false) := by
  have view := (resolve_view hr).view
  have bad : elemBad s1 (spadPa s1.cur) k gr el = true := by unfold elemBad at hc ⊢; rwa [view.badByte, view.cur]
  rw [Answers, show exec (.ld g d a o z) s = execLd g d a o z s from rfl, execLd, guarded_on hg, ← view.cur]
  simp only [hr, hw, at_, bind, Except.bind, bad, failIf_true]
  rfl

end

/-! The number that planes hold (R69, R73) -/

theorem planeNum_lt (rd : Nat → Byte) (g e p n : Nat) : planeNum rd g e p n < 2 ^ n := by
  induction n generalizing p with
  | zero => exact Nat.one_pos
  | succ n ih =>
    have := ih (p + 1)
    rw [planeNum, Nat.pow_succ]
    split <;> omega

theorem testBit_planeNum (rd : Nat → Byte) (g e p : Nat) {n i : Nat} (hi : i < n) :
    (planeNum rd g e p n).testBit (n - 1 - i) = planeBit rd g (p + i) e := by
  induction n generalizing p i with
  | zero => omega
  | succ n ih =>
    have low := planeNum_lt rd g e (p + 1) n
    rw [planeNum]
    cases i with
    | zero =>
      rw [show n + 1 - 1 - 0 = n by omega]
      split
      · next h => rw [Nat.testBit_two_pow_add_eq, Nat.testBit_lt_two_pow low, Nat.add_zero, h]; rfl
      · next h => rw [Nat.zero_add, Nat.testBit_lt_two_pow low]; simpa using h
    | succ i =>
      rw [show n + 1 - 1 - (i + 1) = n - 1 - i by omega, show p + (i + 1) = p + 1 + i by omega, ← ih (p + 1) (show i < n by omega)]
      split
      · exact Nat.testBit_two_pow_add_gt (by omega) _
      · rw [Nat.zero_add]

/-- Its bits, most significant plane first, say which number it is. -/
theorem eq_planeNum {rd : Nat → Byte} {g e p n c : Nat} (hc : c < 2 ^ n) (bits : ∀ i < n, c.testBit (n - 1 - i) = planeBit rd g (p + i) e) :
    c = planeNum rd g e p n := by
  refine Nat.eq_of_testBit_eq fun i => ?_
  by_cases hi : i < n
  · rw [show i = n - 1 - (n - 1 - i) by omega, bits _ (by omega), testBit_planeNum _ _ _ _ (by omega)]
  · have : 2 ^ n ≤ 2 ^ i := Nat.pow_le_pow_right (by decide) (by omega)
    rw [Nat.testBit_lt_two_pow (by omega), Nat.testBit_lt_two_pow (by have := planeNum_lt rd g e p n; omega)]

/-- Sign and exponent planes, then the fraction planes behind the leading one (R55, R69). -/
theorem eq_elemCode {rd : Nat → Byte} {g e c eb fb : Nat} (hc : c < 2 ^ (1 + eb + fb))
    (high : ∀ p ≤ eb, c.testBit (fb + eb - p) = planeBit rd g p e) (low : ∀ p < fb, c.testBit (fb - 1 - p) = planeBit rd g (2 + eb + p) e) :
    c = planeNum rd g e 0 (1 + eb) * 2 ^ fb + planeNum rd g e (2 + eb) fb := by
  have top : c / 2 ^ fb = planeNum rd g e 0 (1 + eb) := by
    refine eq_planeNum (Nat.div_lt_of_lt_mul (by rwa [← Nat.pow_add, Nat.add_comm])) fun i hi => ?_
    rw [Nat.testBit_div_two_pow, Nat.zero_add, ← high i (by omega)]
    congr 1
    omega
  have rest : c % 2 ^ fb = planeNum rd g e (2 + eb) fb := by
    refine eq_planeNum (Nat.mod_lt _ (Nat.two_pow_pos _)) fun i hi => ?_
    rw [Nat.testBit_mod_two_pow, ← low i hi]
    simp only [show fb - 1 - i < fb by omega, decide_true, Bool.true_and]
  rw [← top, ← rest, Nat.mul_comm, Nat.div_add_mod]

/-- A scale lies at its place in its granule (R71). -/
theorem elemScale_shift {rd rd' : Nat → Byte} {g : Nat} (h : ∀ i, rd (g + i) = rd' i) (w e : Nat) : elemScale rd w g e = elemScale rd' w 0 e := by
  unfold elemScale
  simp only [Nat.add_assoc, h, Nat.zero_add]

/-- What an element load makes of the code and the scale that it reads (R64, R73). -/
theorem elemLoad_eq (rd : Nat → Byte) (sat : Bool) (w g e : Nat) {c : Nat} (h : elemCode rd w g e = c) (hc : w = 8 ∨ w = 9 → c < 2 ^ (winOf w).sig) :
    let f := winFmt w (mx8Type rd g)
    let v := if w = 5 ∨ w = 6 ∨ w = 7 then (fmul (fdecode f c) (elemScale rd w g e)).1 else fdecode f c
    let inf : Bool := match v with | .inf _ => true | _ => false
    let r := fconv fp32 (sat && !inf) .rne v
    elemLoad rd sat w g e = if w = 8 ∨ w = 9 then (if 2 * c < 2 ^ (winOf w).sig then c else c + 2 ^ 32 - 2 ^ (winOf w).sig, 0)
      else if w = 10 ∨ w = 11 then (c, 0) else (r.1, r.2 ||| sigFlag (fdecode f c)) := by
  intro f v inf r
  unfold elemLoad
  by_cases ints : w = 8 ∨ w = 9
  · rw [if_pos (by simpa using ints), if_pos ints, h, sxInt_of_lt (hc ints)]
    have low := hc ints
    refine congrArg (·, 0) ?_
    obtain rfl | rfl := ints <;> simp only [winOf] at low ⊢ <;> unfold wrapInt <;> split <;> omega
  · have floats : ¬ (w = 8 || w = 9) = true := by simpa using ints
    rw [if_neg floats, if_neg ints]
    by_cases wide : w = 10 ∨ w = 11
    · rw [if_pos (by simpa using wide), if_pos wide, h]
    · have value : elemValue rd w g e = v := by
        unfold elemValue elemValueP
        rw [if_neg floats, h]
        simp only [Nat.pow_zero, Nat.div_one, Nat.mul_one, Bool.or_eq_true, decide_eq_true_eq, or_assoc]
        rfl
      rw [if_neg (by simpa using wide), if_neg wide, value, elemSig, if_neg floats, h] <;> rfl

/-- Settles O7: bytes as the path of the address sees them, elements by the planes that hold them. -/
theorem loadsExtendWhatMemoryHolds : Obligations.LoadsExtendWhatMemoryHolds := by
  constructor
  · intro s s1 g d a o z pa hg c n e m
    refine ⟨fun none => seenNat_loopless none e pa n, fun hw hr => ⟨fun hc => ?_, ld_memUe hg hw hr⟩, fun hr => ⟨lda_completes hg hr, lda_memUe hg hr⟩⟩
    have h := ld_completes (d := d) hg hw hr hc
    rwa [loadValue_eq z (seenNat_lt s _ pa _)] at h
  · intro s s1 g d a o z pa k code hg c n e off gr el rd bit f sig ints scale v inf r res bad hw hr whole parts
    have hk := planeWin_range hw
    have at_ : elemAt k e = (gr, el) := rfl
    have reads (i : Nat) : s.rdSeen (gr + i) = rd i := rfl
    have bits (p : Nat) : bit p = planeBit s.rdSeen gr p el := by rw [planeBit, Nat.add_assoc, reads]
    have hscale : elemScale s.rdSeen k gr el = scale := elemScale_shift reads k el
    have hcode : elemCode s.rdSeen k gr el = code := by
      unfold elemCode
      by_cases hi : ints
      · obtain ⟨small, planes⟩ := whole hi
        rw [if_pos (by simpa using hi)]
        exact (eq_planeNum small fun i hi => by rw [planes i hi, bits, Nat.zero_add]).symm
      · obtain ⟨small, high, low⟩ := parts hi
        rw [if_neg (by simpa [ints] using hi)]
        exact (eq_elemCode small (fun p hp => by rw [high p hp, bits]) fun p hp => by rw [low p hp, bits]).symm
    have load : elemLoad s.rdSeen s.curTask.sat k gr el = res := by
      rw [elemLoad_eq s.rdSeen s.curTask.sat k gr el hcode fun hi => (whole hi).1, hscale]
      rfl
    refine ⟨fun good => ?_, ld_element_memUe hg hw hr at_⟩
    have h := ld_element_completes (d := d) hg hw hr at_ good
    rwa [load] at h

end Sys2Proof.Machine
end

section
/-! PROOFS. Conversions (R61 to R66): a finite value takes the code of the multiple of its quantum that is nearest, ties to even. -/

namespace Sys2Proof.Machine

open Sys2Proof.Safety Sys2Proof.Laws

/-! What a format is to satisfy -/

/-- The finite codes of a format stand below its infinity or NaN, and its smallest quantum is no less than 2^-3000. -/
structure Fmt.Sound (f : Fmt) : Prop where
  exponent : 1 ≤ f.ebits
  top : maxCode f < 2 ^ (f.ebits + f.fbits)
  inf : f.hasInf = true → maxCode f < f.emax * 2 ^ f.fbits
  special : f.fbits = 3 → f.ebits = 4 → maxCode f < 15 * 2 ^ 3 + 7
  nan : f.nan < 2 ^ (1 + f.ebits + f.fbits)
  quantum : f.bias + f.fbits ≤ 3001

theorem fp64_sound : fp64.Sound := by constructor <;> decide
theorem fp32_sound : fp32.Sound := by constructor <;> decide
theorem bf16_sound : bf16.Sound := by constructor <;> decide
theorem fp16_sound : fp16.Sound := by constructor <;> decide
theorem e5m2_sound : e5m2.Sound := by constructor <;> decide
theorem e4m3_sound : e4m3.Sound := by constructor <;> decide
theorem e2m1_sound : e2m1.Sound := by constructor <;> decide

/-! Rounding to an integer -/

/-- The multiple of d next to n, an even one at a tie, is what rounding to nearest even gives (R61). -/
theorem roundInt_nearest {n d z : Nat} (hd : 0 < d) (low : 2 * (z * d) ≤ 2 * n + d) (high : 2 * n ≤ 2 * (z * d) + d)
    (tie : 2 * (z * d) = 2 * n + d ∨ 2 * n = 2 * (z * d) + d → z % 2 = 0) : roundInt .rne (n / d) (n % d) d = z := by
  have parts := Nat.div_add_mod n d
  have rest := Nat.mod_lt n hd
  generalize n / d = k at *
  generalize n % d = r at *
  rw [Nat.mul_comm] at parts
  have below : z < k + 2 := by
    by_contra h
    have := Nat.mul_le_mul_right d (show k + 2 ≤ z by omega)
    rw [Nat.add_mul] at this
    omega
  have above : k < z + 1 := by
    by_contra h
    have := Nat.mul_le_mul_right d (show z + 1 ≤ k by omega)
    rw [Nat.add_mul] at this
    omega
  obtain rfl | rfl : z = k ∨ z = k + 1 := by omega
  · unfold roundInt
    split
    · rfl
    · simp only [Bool.or_eq_true, decide_eq_true_eq, Bool.and_eq_true]
      rw [if_neg]
      omega
  · rw [Nat.add_mul] at low high tie
    unfold roundInt
    split
    · omega
    · simp only [Bool.or_eq_true, decide_eq_true_eq, Bool.and_eq_true]
      rw [if_pos]
      omega

/-! A value over its quantum -/

/-- The magnitude m * 2^e as a multiple of 2^-3000. -/
def mag (m : Nat) (e : Int) : Nat := m * 2 ^ (e + 3000).toNat

theorem mag_shift (m n : Nat) {e : Int} (he : -3000 ≤ e) : mag m (e + n) = mag (m * 2 ^ n) e := by
  rw [mag, mag, show (e + n + 3000).toNat = n + (e + 3000).toNat by omega, Nat.pow_add, Nat.mul_assoc]

/-- Numerator and denominator of a value over a quantum, with their common unit. -/
theorem scaleDiv_eq (m : Nat) {e q : Int} (he : -3000 ≤ e) (hq : -3000 ≤ q) : ∃ n d u, 0 < d ∧ 0 < u
    ∧ scaleDiv m 1 e q = (n / d, n % d, d) ∧ mag m e = n * u ∧ mag 1 q = d * u := by
  by_cases h : 0 ≤ e - q
  · refine ⟨m * 2 ^ (e - q).toNat, 1, 2 ^ (q + 3000).toNat, Nat.one_pos, Nat.two_pow_pos _, ?_, ?_, rfl⟩
    · simp only [scaleDiv, h, if_true]
    · rw [mag, show (e + 3000).toNat = (e - q).toNat + (q + 3000).toNat by omega, Nat.pow_add, Nat.mul_assoc]
  · refine ⟨m, 2 ^ (-(e - q)).toNat, 2 ^ (e + 3000).toNat, Nat.two_pow_pos _, Nat.two_pow_pos _, ?_, rfl, ?_⟩
    · simp only [scaleDiv, h, if_false, Nat.one_mul]
    · rw [mag, Nat.one_mul, ← Nat.pow_add]
      congr 1
      omega

/-- A value rounded to nearest even, and whether it is a multiple of the quantum. -/
theorem round_nearest (m : Nat) {e q : Int} (he : -3000 ≤ e) (hq : -3000 ≤ q) {z : Nat} (low : 2 * mag z q ≤ 2 * mag m e + mag 1 q)
    (high : 2 * mag m e ≤ 2 * mag z q + mag 1 q)
    (tie : 2 * mag z q = 2 * mag m e + mag 1 q ∨ 2 * mag m e = 2 * mag z q + mag 1 q → z % 2 = 0) :
    let r := scaleDiv m 1 e q
    roundInt .rne r.1 r.2.1 r.2.2 = z ∧ (r.2.1 = 0 ↔ mag z q = mag m e) := by
  obtain ⟨n, d, u, hd, hu, eq, hm, hq1⟩ := scaleDiv_eq m he hq
  have hz : mag z q = z * d * u := by rw [Nat.mul_assoc, ← hq1, mag, mag, Nat.one_mul]
  rw [hz, hm, hq1] at low high tie
  have cancel (a b c : Nat) : 2 * (a * u) ≤ 2 * (b * u) + c * u ↔ 2 * a ≤ 2 * b + c := by
    rw [← Nat.mul_assoc, ← Nat.mul_assoc, ← Nat.add_mul]; exact Nat.mul_le_mul_right_iff hu
  have cancelEq (a b c : Nat) : 2 * (a * u) = 2 * (b * u) + c * u ↔ 2 * a = 2 * b + c := by
    rw [← Nat.mul_assoc, ← Nat.mul_assoc, ← Nat.add_mul]; exact Nat.mul_left_inj (by omega)
  rw [cancel] at low high
  rw [cancelEq, cancelEq] at tie
  have rounded := roundInt_nearest hd low high tie
  simp only [eq]
  refine ⟨rounded, ?_⟩
  rw [hz, hm, Nat.mul_left_inj (by omega)]
  constructor
  · intro r0
    rw [r0] at rounded
    have : n / d = z := rounded
    rw [← this, Nat.div_mul_cancel (Nat.dvd_of_mod_eq_zero r0)]
  · rintro rfl
    exact Nat.mul_mod_left z d

/-! The value of a code -/

/-- The magnitude of a finite code in units of its format's smallest quantum. -/
def codeVal (f : Fmt) (c : Nat) : Nat := if c < 2 ^ f.fbits then c else (2 ^ f.fbits + c % 2 ^ f.fbits) * 2 ^ (c / 2 ^ f.fbits - 1)

/-- The code of z quanta is read back as that value: quantum number j of the format, above the smallest only for numbers with a leading one. -/
theorem codeVal_grid (f : Fmt) {j z : Nat} (lead : j = 0 ∨ 2 ^ f.fbits ≤ z) (hz : z ≤ 2 * 2 ^ f.fbits) : codeVal f (j * 2 ^ f.fbits + z) = z * 2 ^ j := by
  have pos := Nat.two_pow_pos f.fbits
  unfold codeVal
  generalize 2 ^ f.fbits = b at *
  by_cases small : z < b
  · obtain rfl : j = 0 := by omega
    rw [if_pos (by omega)]
    omega
  · have := Nat.le_mul_of_pos_left j pos
    rw [if_neg (by omega)]
    obtain ⟨y, rfl⟩ := Nat.exists_eq_add_of_le (show b ≤ z by omega)
    by_cases full : y = b
    · subst full
      rw [show j * y + (y + y) = (j + 2) * y by ring, Nat.mul_mod_left, Nat.mul_div_cancel _ pos, show j + 2 - 1 = j + 1 by omega, Nat.pow_succ]
      ring
    · rw [show j * b + (b + y) = y + (j + 1) * b by ring, Nat.add_mul_mod_self_right, Nat.add_mul_div_right _ _ pos, Nat.mod_eq_of_lt (by omega),
        Nat.div_eq_of_lt (by omega)]
      congr 2
      omega

/-- Every code is the code of some quanta. -/
theorem code_grid (f : Fmt) (c : Nat) : ∃ j z, c = j * 2 ^ f.fbits + z ∧ (j = 0 ∨ 2 ^ f.fbits ≤ z) ∧ z < 2 * 2 ^ f.fbits := by
  have pos := Nat.two_pow_pos f.fbits
  have parts := Nat.div_add_mod c (2 ^ f.fbits)
  have rest := Nat.mod_lt c pos
  generalize 2 ^ f.fbits = b at *
  rw [Nat.mul_comm] at parts
  cases hj : c / b with
  | zero => exact ⟨0, c, by omega, .inl rfl, by rw [hj] at parts; omega⟩
  | succ j => exact ⟨j, b + c % b, by rw [hj, Nat.succ_mul] at parts; omega, .inr (by omega), by omega⟩

theorem codeVal_lt_succ (f : Fmt) (c : Nat) : codeVal f c < codeVal f (c + 1) := by
  obtain ⟨j, z, rfl, lead, hz⟩ := code_grid f c
  rw [codeVal_grid f lead (by omega), Nat.add_assoc, codeVal_grid f (by omega) (by omega)]
  exact Nat.mul_lt_mul_of_pos_right (by omega) (Nat.two_pow_pos j)

theorem codeVal_strictMono (f : Fmt) : StrictMono (codeVal f) := strictMono_nat_of_lt_succ (codeVal_lt_succ f)

/-- The smallest quantum of a format. -/
def Fmt.qmin (f : Fmt) : Int := 1 - (f.bias : Int) - f.fbits

section
variable {f : Fmt} (hf : f.Sound)
include hf

theorem Fmt.Sound.qmin_le : -3000 ≤ f.qmin := by
  have := hf.quantum
  unfold Fmt.qmin
  omega

/-- A finite code is read as its sign and magnitude. -/
theorem fdecode_finite {c : Nat} (hc : c ≤ maxCode f) (neg : Bool) : ∃ k p, fdecode f (signBit f neg + c) = .fin neg k p ∧ -3000 ≤ p
    ∧ mag k p = mag (codeVal f c) f.qmin := by
  have pos := Nat.two_pow_pos f.fbits
  have below : c < 2 ^ (f.ebits + f.fbits) := Nat.lt_of_le_of_lt hc hf.top
  have field : c / 2 ^ f.fbits < 2 ^ f.ebits := Nat.div_lt_of_lt_mul (by rwa [← Nat.pow_add, Nat.add_comm])
  have sign : (signBit f neg + c).testBit (f.ebits + f.fbits) = neg := by
    unfold signBit
    cases neg
    · simp [Nat.testBit_lt_two_pow below]
    · simp [Nat.testBit_two_pow_add_eq, Nat.testBit_lt_two_pow below]
  have exp : (signBit f neg + c) / 2 ^ f.fbits % 2 ^ f.ebits = c / 2 ^ f.fbits := by
    unfold signBit
    cases neg
    · simp [Nat.mod_eq_of_lt field]
    · rw [if_pos rfl, Nat.pow_add, Nat.add_comm, Nat.add_mul_div_right _ _ pos, Nat.add_mod_right, Nat.mod_eq_of_lt field]
  have frac : (signBit f neg + c) % 2 ^ f.fbits = c % 2 ^ f.fbits := by
    unfold signBit
    cases neg
    · simp
    · rw [if_pos rfl, Nat.pow_add, Nat.add_comm, Nat.add_mul_mod_self_right]
  have parts := Nat.div_add_mod c (2 ^ f.fbits)
  have finite : ¬ (c / 2 ^ f.fbits = f.emax ∧ f.hasInf = true) := fun ⟨h, i⟩ => by
    have := hf.inf i
    rw [h, Nat.mul_comm] at parts
    omega
  have number : ¬ (((f.fbits = 3 ∧ f.ebits = 4) ∧ c / 2 ^ f.fbits = 15) ∧ c % 2 ^ f.fbits = 7) := fun ⟨⟨⟨h3, h4⟩, h15⟩, h7⟩ => by
    have := hf.special h3 h4
    rw [h15, h7, h3] at parts
    omega
  have low := hf.qmin_le
  unfold fdecode
  simp only [sign, exp, frac, Bool.and_eq_true, decide_eq_true_eq]
  rw [if_neg finite, if_neg number]
  by_cases zero : c / 2 ^ f.fbits = 0
  · have small : c < 2 ^ f.fbits := (Nat.div_eq_zero_iff.mp zero).resolve_left (by omega)
    rw [if_pos zero]
    exact ⟨_, _, rfl, low, by rw [codeVal, if_pos small, Nat.mod_eq_of_lt small]; rfl⟩
  · have large : ¬ c < 2 ^ f.fbits := fun h => zero (Nat.div_eq_of_lt h)
    have place : ((c / 2 ^ f.fbits : Nat) : Int) - f.bias - f.fbits = f.qmin + ((c / 2 ^ f.fbits - 1 : Nat) : Int) := by unfold Fmt.qmin; omega
    rw [if_neg zero, place]
    exact ⟨_, _, rfl, by omega, by rw [mag_shift _ _ low, codeVal, if_neg large]⟩

end

theorem mag_le (a b : Nat) (e : Int) : mag a e ≤ mag b e ↔ a ≤ b := Nat.mul_le_mul_right_iff (Nat.two_pow_pos _)

/-! Rounding once (R61 to R65) -/

/-- The quantum of a value with leading bit l: as many fraction bits below it as the format has, no less than its smallest. -/
def Fmt.quantumOf (f : Fmt) (l : Int) : Int := max (l - f.fbits) f.qmin

/-- The code of k quanta q without its sign. -/
def Fmt.codeOf (f : Fmt) (k : Nat) (q : Int) : Int :=
  if k < 2 ^ f.fbits then (k : Int) else (q + f.fbits + f.bias) * (2 ^ f.fbits : Nat) + (k - 2 ^ f.fbits : Nat)

/-- A carry into the next power of two gives the code that it would have there. -/
theorem codeOf_carry (f : Fmt) (q : Int) : f.codeOf (2 ^ (f.fbits + 1)) q = f.codeOf (2 ^ f.fbits) (q + 1) := by
  have := Nat.two_pow_pos f.fbits
  unfold Fmt.codeOf
  rw [if_neg (by rw [Nat.pow_succ]; omega), if_neg (by omega), Nat.pow_succ, show 2 ^ f.fbits * 2 - 2 ^ f.fbits = 2 ^ f.fbits by omega, Nat.sub_self]
  push_cast
  ring

theorem roundFin_eq (f : Fmt) (sat : Bool) (md : Rounding) (neg : Bool) {n : Nat} (hn : n ≠ 0) (d : Nat) (e : Int) :
    let l := log2Frac n d + e
    let q := f.quantumOf l
    let r := scaleDiv n d e q
    let c := f.codeOf (roundInt md r.1 r.2.1 r.2.2) q
    roundFin f sat md neg n d e = if (maxCode f : Int) < c then (overflowCode f sat neg, flOverflow ||| flInexact)
      else (signBit f neg + c.toNat, if r.2.1 = 0 then 0 else if l < 1 - (f.bias : Int) then flUnderflow ||| flInexact else flInexact) := by
  intro l q r c
  have hq : (if l - f.fbits < 1 - (f.bias : Int) - f.fbits then 1 - (f.bias : Int) - f.fbits else l - f.fbits) = q := by
    simp only [q, Fmt.quantumOf, Fmt.qmin]
    split <;> omega
  unfold roundFin
  rw [if_neg hn]
  simp only [show log2Frac n d + e = l from rfl, hq]
  by_cases carry : roundInt md r.1 r.2.1 r.2.2 = 2 ^ (f.fbits + 1)
  · rw [show c = f.codeOf (2 ^ f.fbits) (q + 1) by rw [← codeOf_carry, ← carry]]
    simp only [show scaleDiv n d e q = r from rfl, carry, if_true]
    rfl
  · simp only [show scaleDiv n d e q = r from rfl, carry, if_false]
    rfl

theorem log2Frac_one {n : Nat} (hn : n ≠ 0) : log2Frac n 1 = Nat.log2 n := by
  have one : Nat.log2 1 = 0 := by decide
  unfold log2Frac
  simp [one, Nat.log2_self_le hn]

/-- The leading bit of a value. -/
theorem log2Frac_mag {m l : Nat} {e : Int} (he : -3000 ≤ e) (low : 2 ^ l ≤ mag m e) (high : mag m e < 2 ^ (l + 1)) :
    m ≠ 0 ∧ log2Frac m 1 + e = (l : Int) - 3000 := by
  have hm : m ≠ 0 := by
    rintro rfl
    have := Nat.two_pow_pos l
    rw [mag, Nat.zero_mul] at low
    omega
  have lead : Nat.log2 m + (e + 3000).toNat = l := by
    have pos := Nat.two_pow_pos (e + 3000).toNat
    have own : 2 ^ (Nat.log2 m + (e + 3000).toNat) ≤ mag m e ∧ mag m e < 2 ^ (Nat.log2 m + (e + 3000).toNat + 1) := by
      rw [show Nat.log2 m + (e + 3000).toNat + 1 = (Nat.log2 m + 1) + (e + 3000).toNat by omega, Nat.pow_add, Nat.pow_add, mag]
      exact ⟨Nat.mul_le_mul_right _ (Nat.log2_self_le hm), Nat.mul_lt_mul_of_pos_right Nat.lt_log2_self pos⟩
    have := Nat.two_pow_pos l
    rw [← (Nat.log2_eq_iff (by omega)).mpr own, (Nat.log2_eq_iff (by omega)).mpr ⟨low, high⟩]
  rw [log2Frac_one hm]
  exact ⟨hm, by omega⟩

/-- What is known of a value, its leading bit, its quantum and the number of quanta next to it. -/
structure Nearest (f : Fmt) (m : Nat) (e : Int) (l z : Nat) (q : Int) : Prop where
  above : -3000 ≤ e
  lead : 2 ^ l ≤ mag m e
  next : mag m e < 2 ^ (l + 1)
  quantum : q = max ((l : Int) - 3000 - f.fbits) (1 - (f.bias : Int) - f.fbits)
  low : 2 * mag z q ≤ 2 * mag m e + mag 1 q
  high : 2 * mag m e ≤ 2 * mag z q + mag 1 q
  tie : 2 * mag z q = 2 * mag m e + mag 1 q ∨ 2 * mag m e = 2 * mag z q + mag 1 q → z % 2 = 0

/-- The code of z quanta q, without its sign. -/
def gridCode (f : Fmt) (z : Nat) (q : Int) : Nat := (q - f.qmin).toNat * 2 ^ f.fbits + z

section
variable {f : Fmt} (hf : f.Sound) {m : Nat} {e : Int} {l z : Nat} {q : Int} (h : Nearest f m e l z q)
include hf h

theorem Nearest.quantum_le : f.qmin ≤ q ∧ -3000 ≤ q := by
  have := hf.qmin_le
  have := h.quantum
  unfold Fmt.qmin at *
  omega

/-- Above the smallest quantum the number of quanta has a leading one, and nowhere more bits than the format's fraction and a carry. -/
theorem Nearest.digits : ((q - f.qmin).toNat = 0 ∨ 2 ^ f.fbits ≤ z) ∧ z ≤ 2 * 2 ^ f.fbits := by
  obtain ⟨smallest, above⟩ := h.quantum_le hf
  have hq := h.quantum
  have unit : mag 1 q = 2 ^ (q + 3000).toNat := by rw [mag, Nat.one_mul]
  have pos := Nat.two_pow_pos (q + 3000).toNat
  have low := h.low
  have high := h.high
  rw [show mag z q = z * 2 ^ (q + 3000).toNat from rfl, unit] at low high
  constructor
  · by_cases bottom : q = f.qmin
    · exact .inl (by omega)
    · refine .inr ?_
      have lead := h.lead
      rw [show l = f.fbits + (q + 3000).toNat by unfold Fmt.qmin at *; omega, Nat.pow_add] at lead
      by_contra small
      have := Nat.mul_le_mul_right (2 ^ (q + 3000).toNat) (show z + 1 ≤ 2 ^ f.fbits by omega)
      rw [Nat.add_mul] at this
      omega
  · have next := h.next
    have : 2 ^ (l + 1) ≤ 2 ^ (f.fbits + 1 + (q + 3000).toNat) := Nat.pow_le_pow_right (by decide) (by unfold Fmt.qmin at *; omega)
    rw [Nat.pow_add 2 (f.fbits + 1), Nat.pow_succ 2 f.fbits] at this
    by_contra large
    have := Nat.mul_le_mul_right (2 ^ (q + 3000).toNat) (show 2 ^ f.fbits * 2 + 1 ≤ z by omega)
    rw [Nat.add_mul] at this
    omega

theorem Nearest.codeVal : mag (Machine.codeVal f (gridCode f z q)) f.qmin = mag z q := by
  obtain ⟨lead, few⟩ := h.digits hf
  obtain ⟨smallest, -⟩ := h.quantum_le hf
  rw [gridCode, codeVal_grid f lead few, ← mag_shift _ _ hf.qmin_le]
  congr 1
  omega

theorem Nearest.codeOf : f.codeOf z q = (gridCode f z q : Nat) := by
  obtain ⟨lead, -⟩ := h.digits hf
  obtain ⟨smallest, -⟩ := h.quantum_le hf
  unfold Fmt.codeOf gridCode
  split
  · next small =>
    rw [lead.resolve_right (by omega)]
    simp
  · next large =>
    rw [show q + f.fbits + f.bias = ((q - f.qmin).toNat : Int) + 1 by unfold Fmt.qmin at *; omega]
    push_cast [Nat.cast_sub (Nat.le_of_not_lt large)]
    ring

/-- A finite value takes the code of the nearest number of quanta, unless that lies beyond the largest finite code (R61, R63, R65). -/
theorem Nearest.roundFin (sat neg : Bool) : Machine.roundFin f sat .rne neg m 1 e =
    if maxCode f < gridCode f z q then (overflowCode f sat neg, flOverflow ||| flInexact)
    else (signBit f neg + gridCode f z q, if mag z q = mag m e then 0
      else if mag m e < mag 1 (1 - f.bias) then flUnderflow ||| flInexact else flInexact) := by
  obtain ⟨hm, lead⟩ := log2Frac_mag h.above h.lead h.next
  have hq : f.quantumOf (log2Frac m 1 + e) = q := by rw [lead, h.quantum]; rfl
  obtain ⟨rounded, exact⟩ := round_nearest m h.above (h.quantum_le hf).2 h.low h.high h.tie
  have small : log2Frac m 1 + e < 1 - (f.bias : Int) ↔ mag m e < mag 1 (1 - f.bias) := by
    have := hf.quantum
    rw [lead, show mag 1 (1 - f.bias) = 2 ^ (1 - (f.bias : Int) + 3000).toNat by rw [mag, Nat.one_mul]]
    constructor
    · intro k
      exact Nat.lt_of_lt_of_le h.next (Nat.pow_le_pow_right (by decide) (by omega))
    · intro k
      have := (Nat.pow_lt_pow_iff_right (show 1 < 2 by decide)).mp (Nat.lt_of_le_of_lt h.lead k)
      omega
  have eq := roundFin_eq f sat .rne neg hm 1 e
  simp only [hq, rounded, h.codeOf hf, exact, small, Nat.cast_lt, Int.toNat_natCast] at eq
  exact eq

end
/-! The codes that a conversion gives fit its format -/

theorem signed_lt {f : Fmt} {c : Nat} (h : c < 2 ^ (f.ebits + f.fbits)) (neg : Bool) : signBit f neg + c < 2 ^ (1 + f.ebits + f.fbits) := by
  rw [Nat.add_assoc, Nat.pow_add]
  unfold signBit
  split <;> omega

theorem infCode_lt (f : Fmt) : f.emax * 2 ^ f.fbits < 2 ^ (f.ebits + f.fbits) := by
  rw [Nat.pow_add]
  exact Nat.mul_lt_mul_of_pos_right (Nat.sub_lt (Nat.two_pow_pos _) Nat.one_pos) (Nat.two_pow_pos _)

theorem overflowCode_lt {f : Fmt} (hf : f.Sound) (sat neg : Bool) : overflowCode f sat neg < 2 ^ (1 + f.ebits + f.fbits) := by
  unfold overflowCode
  split
  · exact signed_lt hf.top neg
  · split
    · exact signed_lt (infCode_lt f) neg
    · exact hf.nan

theorem roundFin_lt {f : Fmt} (hf : f.Sound) (sat : Bool) (md : Rounding) (neg : Bool) (n d : Nat) (e : Int) :
    (roundFin f sat md neg n d e).1 < 2 ^ (1 + f.ebits + f.fbits) := by
  by_cases hn : n = 0
  · rw [roundFin, if_pos hn]
    exact signed_lt (c := 0) (Nat.two_pow_pos _) neg
  · have eq := roundFin_eq f sat md neg hn d e
    extract_lets l q r c at eq
    rw [eq]
    split
    · exact overflowCode_lt hf sat neg
    · have := hf.top
      exact signed_lt (by omega) neg

theorem fconv_lt {f : Fmt} (hf : f.Sound) (sat : Bool) (md : Rounding) (v : FVal) : (fconv f sat md v).1 < 2 ^ (1 + f.ebits + f.fbits) := by
  cases v with
  | nan s => exact hf.nan
  | inf neg =>
    simp only [fconv]
    split
    · exact signed_lt hf.top neg
    · split
      · exact signed_lt (infCode_lt f) neg
      · exact hf.nan
  | fin neg m e => exact roundFin_lt hf sat md neg m 1 e

end Sys2Proof.Machine
end

section
/-! PROOFS. The long accumulators (R81 to R84, R220). -/

namespace Sys2Proof.Machine

open Sys2Proof.Safety Sys2Proof.Laws

/-! A register takes a number below 2^64 as it is -/

theorem setR64_ofNat (x : Task) (d : BitVec 5) {r : Nat} (h : r < 2 ^ 64) : x.setR64 d (BitVec.ofNat 64 r) = x.setReg d ⟨BitVec.ofNat 128 r, .data⟩ := by
  refine congrArg (x.setReg d ⟨·, .data⟩) (BitVec.eq_of_toNat_eq ?_)
  rw [BitVec.toNat_setWidth, BitVec.toNat_ofNat, BitVec.toNat_ofNat, Nat.mod_eq_of_lt h]

/-! The stores of one path, all performed for the other (R367) -/

theorem performFirst_mem {g : Bool} {es : List LoopStore} {x : LoopStore} (h : x ∈ performFirst g es) : ∃ y ∈ es, x.task = y.task ∧ x.glob = y.glob := by
  unfold performFirst at h
  split at h
  · next e post hd =>
    have split : es.takeWhile (fun e => decide (e.glob ≠ g)) ++ e :: post = es := by rw [← hd]; exact List.takeWhile_append_dropWhile
    obtain h | h := List.mem_append.mp h
    · obtain ⟨y, hy, rfl⟩ := List.mem_map.mp h
      exact ⟨y, split ▸ List.mem_append_left _ hy, rfl, rfl⟩
    · exact ⟨x, split ▸ List.mem_append_right _ (List.mem_cons_of_mem _ h), rfl, rfl⟩
  · exact ⟨x, h, rfl, rfl⟩

/-- Each turn takes one store of the path off the list. -/
theorem countP_performFirst (g : Bool) (es : List LoopStore) :
    (performFirst g es).countP (fun e => e.glob = g) = es.countP (fun e => e.glob = g) - 1 := by
  have before : ((es.takeWhile fun e => decide (e.glob ≠ g)).countP fun e => e.glob = g) = 0 :=
    List.countP_eq_zero.mpr fun x hx => by simpa using List.mem_takeWhile_imp hx
  have split : es.countP (fun e => e.glob = g) = (es.dropWhile fun e => decide (e.glob ≠ g)).countP fun e => e.glob = g := by
    conv_lhs => rw [← List.takeWhile_append_dropWhile (p := fun e => decide (e.glob ≠ g)) (l := es), List.countP_append, before, Nat.zero_add]
  unfold performFirst
  split
  · next e post hd =>
    have first : e.glob = g := by
      have := List.head_dropWhile_not (fun e => decide (e.glob ≠ g)) (l := es) (by rw [hd]; exact List.cons_ne_nil _ _)
      simpa only [hd, List.head_cons, decide_eq_false_iff_not, ne_eq, not_not] using this
    have kept : (((es.takeWhile fun e => decide (e.glob ≠ g)).map fun x => x.less e).countP fun e => e.glob = g) = 0 := by
      rw [List.countP_map]; exact before
    rw [split, hd, List.countP_append, kept, List.countP_cons_of_pos (by simpa using first)]
    omega
  · next hd => rw [split, hd]; rfl

theorem performStores_mem {g : Bool} {n : Nat} {es : List LoopStore} {x : LoopStore} (h : x ∈ performStores g n es) : ∃ y ∈ es, x.task = y.task := by
  induction n generalizing es with
  | zero => exact ⟨x, h, rfl⟩
  | succ n ih =>
    obtain ⟨y, hy, e⟩ := ih h
    obtain ⟨z, hz, e', -⟩ := performFirst_mem hy
    exact ⟨z, hz, e.trans e'⟩

theorem performStores_glob {g : Bool} {n : Nat} {es : List LoopStore} (h : es.countP (fun e => e.glob = g) ≤ n) :
    ∀ x ∈ performStores g n es, x.glob ≠ g := by
  induction n generalizing es with
  | zero => simpa [performStores] using h
  | succ n ih => exact ih (by rw [countP_performFirst]; omega)

theorem stores_performPath (s : State) (g : Bool) : Stores s (s.performPath g) := by
  unfold State.performPath
  split
  · exact .refl s
  · exact .setLoop (.refl s)

theorem loopMine_performPath (s : State) (g : Bool) : ∀ e ∈ (s.performPath g).loopMine, e.glob ≠ g := by
  unfold State.performPath
  split
  · next none =>
    unfold State.loopMine
    rw [none]
    exact fun e he => nomatch he
  · rw [loopMine_setLoop s fun e he => ?_]
    · exact performStores_glob List.countP_le_length
    · obtain ⟨y, hy, h⟩ := performStores_mem he
      exact h.trans (task_loopMine hy)

/-- Nothing of the task's other path stands before a store through the alias window any more. -/
theorem performPath_free (s : State) (b : Nat) : (s.performPath true).under 0 b = false ∧ (s.performPath true).tagUnder 0 b = false := by
  have none : (s.performPath true).ahead false = [] := by
    unfold State.ahead
    rw [List.reverse_eq_nil_iff, List.takeWhile_eq_nil_iff]
    intro h
    have := loopMine_performPath s true _ (List.mem_reverse.mp (List.getElem_mem h))
    simpa using this
  unfold State.under State.tagUnder
  rw [show viaGlobal 0 = false from rfl, none]
  constructor <;> cases ownOffset (s.performPath true) b <;> rfl

/-! The window of an accumulator (R81, R220) -/

/-- A capability names a window that the task may use: within its bounds, in W0, aligned, in good codewords. -/
def NamesWindow (s : State) (c : GVal) (perm : Byte) : Prop :=
  let e := (cursor c.bits).toNat
  c.tag = .mem ∧ capPerm c.bits &&& perm = perm ∧ (memBounds c.bits).1 ≤ foldAddr (memBounds c.bits).2 e
    ∧ foldAddr (memBounds c.bits).2 e + 80 ≤ (memBounds c.bits).2 ∧ e + 80 ≤ 0x80000 ∧ e % 16 = 0 ∧ Clean s (spadPa s.cur + e) 80

/-- No range lock, endpoint buffer or watch entry stands in the way of the executing core's accesses. -/
structure Unhindered (s : State) : Prop where
  locks : s.me.locks = []
  eps : s.me.eps = []
  bp : s.dbg.bp = []

theorem Unhindered.check4 {s : State} (h : Unhindered s) (a : W64) (n : Nat) (write : Bool) : check4 s a n write = .ok () := by
  have free (sp : Bool) (lo hi : Nat) : lockTest s.me s.curTid sp s.curTask.asid lo hi write = .free := by
    unfold lockTest lockTestBy bufferAnswer
    rw [h.locks, h.eps]
    cases sp <;> rfl
  unfold Machine.check4
  simp only [free]
  rfl

theorem Unhindered.checkWatch {s : State} (h : Unhindered s) (a : W64) (n : Nat) (u : Use) : checkWatch s a n u = .ok () := by
  have none (r w : Bool) : watchMatch s s.curTask a n r w = none := by
    unfold watchMatch
    rw [h.bp]
    exact List.find?_eq_none.mpr fun e _ => by simp [sget]
  unfold Machine.checkWatch
  rw [none]

theorem laCheck_ok {s : State} (free : Unhindered s) {c : GVal} {perm : Byte} (h : NamesWindow s c perm) (u : Use) :
    laCheck s c perm u = .ok (spadPa s.cur + (cursor c.bits).toNat) := by
  obtain ⟨tag, may, low, high, window, aligned, -⟩ := h
  have plain : planeWin (cursor c.bits) = none := by
    unfold planeWin aliasWin
    rw [if_pos (by omega), show (cursor c.bits).toNat / 0x100000 = 0 by omega]
    rfl
  have cap : capCheck c perm (cursor c.bits) 80 = none := by
    unfold capCheck
    rw [if_neg (by simp [tag])]
    dsimp only
    rw [if_neg (by simp; omega), if_neg (by simp [may])]
  unfold laCheck
  simp only [check1_plain cap false plain, failIf_false (decide_eq_false (show ¬ 0x80000 < (cursor c.bits).toNat + 80 by omega)),
    failIf_false (decide_eq_false (show ¬ (cursor c.bits).toNat % 16 ≠ 0 by omega)), free.check4, free.checkWatch, bind, Except.bind, pure, Except.pure]

theorem NamesWindow.good {s : State} {c : GVal} {perm : Byte} (h : NamesWindow s c perm) : Clean s (spadPa s.cur + (cursor c.bits).toNat) 80 :=
  h.2.2.2.2.2.2

theorem readable_ok {s : State} {a : W64} {pa n : Nat} (h : Clean s pa n) : readable s a pa n = .ok () :=
  failIf_false ((firstBad_isSome s pa n).mpr h)

theorem readNat_lt (s : State) (a n : Nat) : s.readNat a n < 2 ^ (8 * n) := by
  have := leNat_lt (s.readBytes a n)
  rwa [readBytes_eq_map, List.length_map, List.length_range, ← readBytes_eq_map] at this

/-- The integer of a window, read as two's complement. -/
theorem laValue_eq (s : State) (pa : Nat) : laValue s pa =
    let n := s.readNat pa 80
    if 2 * n < 2 ^ 640 then (n : Int) else (n : Int) - 2 ^ 640 := by
  have small := readNat_lt s pa 80
  rw [show 8 * 80 = 640 from rfl] at small
  exact sxInt_of_lt small

/-! What a write of a window leaves -/

theorem stores_laWrite (s : State) (pa : Nat) (n : Int) : Stores s (laWrite s pa n) := .chargeCur (.store (stores_performPath s true))

theorem byte_performPath (s : State) (g : Bool) (b : Nat) : (s.performPath g).byte b = s.byte b := by unfold State.performPath; split <;> rfl
theorem tagAt_performPath (s : State) (g : Bool) (b : Nat) : (s.performPath g).tagAt b = s.tagAt b := by unfold State.performPath; split <;> rfl
theorem memorySame_performPath (s : State) (g : Bool) : MemorySame s (s.performPath g) :=
  ⟨byte_performPath s g, tagAt_performPath s g, by unfold State.performPath; split <;> rfl⟩

/-- The 80 bytes of a window hold an integer modulo 2^640, and they alone changed. -/
def HoldsInt (s t : State) (pa : Nat) (n : Int) : Prop :=
  Wrote s t pa (leBytes 80 (n % 2 ^ 640).toNat) ∧ Tagged s t pa 80 .data

theorem HoldsInt.of_view {s t u : State} {pa : Nat} {n : Int} (h : HoldsInt s t pa n) (view : SameView t u) : HoldsInt s u pa n := by
  unfold HoldsInt Wrote Tagged at *
  simpa only [view.byte, view.tagAt] using h

theorem holdsInt_laWrite (s : State) (pa : Nat) (n : Int) : HoldsInt s (laWrite s pa n) pa n := by
  have number : (n % 2 ^ 640).toNat = wrapInt n 640 := by rw [wrapInt, Nat.cast_pow, Nat.cast_ofNat]
  have stored : HoldsInt s ((s.performPath true).store 0 pa (leBytes 80 (wrapInt n 640))) pa n := by
    rw [HoldsInt, number]
    generalize hb : leBytes 80 (wrapInt n 640) = bs
    have len : bs.length = 80 := by rw [← hb, leBytes_length]
    obtain ⟨-, ⟨inside, outside⟩, tags⟩ := stored_store (s.performPath true) 0 pa bs (by rintro rfl; cases len)
    unfold TaggedVia at tags
    simp only [(performPath_free s _).1, (performPath_free s _).2, byte_performPath, tagAt_performPath, and_true, Bool.false_eq_true, if_false]
      at inside outside tags
    rw [len] at tags
    exact ⟨⟨inside, outside⟩, tags⟩
  exact stored.of_view (SameView.refl _).chargeCur

/-- An instruction that writes a window and retires. -/
theorem completes_laWrite {s u : State} {i : Instr} {f : Task → Task} {pa : Nat} {n : Int} (h : exec i s = .next (retire u 4))
    (view : SameView (laWrite s pa n) u) (acc : Accessed s u) (task : u.curTask = f s.curTask) :
    AccessCompletes i s f fun t => HoldsInt s t pa n :=
  completes_retire h acc (accessed_curTid acc) ((holdsInt_laWrite s pa n).of_view view.retire) (x := s.curTask) rfl task

/-! The terms of a sum (R82, R83) -/

theorem laTerm_eq (v : FVal) : laTerm v =
    (match v with | .fin neg m e => (if neg then -1 else 1) * ((m * 2 ^ (e + 320).toNat : Nat) : Int) | _ => 0,
      match v with | .fin _ _ _ => 0 | _ => flInvalid) := by
  cases v with
  | fin neg m e => cases neg <;> simp [laTerm, alignTo]
  | _ => rfl

theorem laTerms_eq (vs : List FVal) : laTerms vs = ((vs.map fun v => (laTerm v).1).sum, vs.foldl (fun y v => y ||| (laTerm v).2) 0) := by
  have key (acc : Int × Flags) : vs.foldl (fun acc v => (acc.1 + (laTerm v).1, acc.2 ||| (laTerm v).2)) acc =
      (acc.1 + (vs.map fun v => (laTerm v).1).sum, vs.foldl (fun y v => y ||| (laTerm v).2) acc.2) := by
    induction vs generalizing acc with
    | nil => simp
    | cons v vs ih => rw [List.foldl_cons, ih, List.foldl_cons, List.map_cons, List.sum_cons, Int.add_assoc]
  have := key (0, 0)
  rwa [Int.zero_add] at this

/-! The instructions (R220) -/

theorem laFmt_sound (f : BitVec 5) : (laFmt f).Sound ∧ 1 + (laFmt f).ebits + (laFmt f).fbits ≤ 64 := by
  unfold laFmt
  split
  · exact ⟨fp32_sound, by decide⟩
  · split
    · exact ⟨fp16_sound, by decide⟩
    · exact ⟨bf16_sound, by decide⟩

/-- The window that a register names. -/
def windowOf (s : State) (r : BitVec 5) : Nat := spadPa s.cur + (cursor (s.curTask.reg r).bits).toNat

theorem laAddValues_completes {s : State} (free : Unhindered s) {a : BitVec 5} {i : Instr} {vs : List FVal} (h : NamesWindow s (s.curTask.reg a) (permLd ||| permSt))
    (e : exec i s = finish s (laAddValues s (s.curTask.reg a) vs)) :
    AccessCompletes i s (fun x => x.addFlags (laTerms vs).2) fun t => HoldsInt s t (windowOf s a) (laValue s (windowOf s a) + (laTerms vs).1) := by
  have st := stores_laWrite s (windowOf s a) (laValue s (windowOf s a) + (laTerms vs).1)
  have same : mergeFlags (laWrite s (windowOf s a) (laValue s (windowOf s a) + (laTerms vs).1)) s.curTid (laTerms vs).2 =
      (laWrite s (windowOf s a) (laValue s (windowOf s a) + (laTerms vs).1)).onCur fun x => x.addFlags (laTerms vs).2 := by
    rw [← st.tid]; rfl
  refine completes_laWrite (u := mergeFlags (laWrite s (windowOf s a) (laValue s (windowOf s a) + (laTerms vs).1)) s.curTid (laTerms vs).2) ?_
    ?_ ?_ ?_
  · rw [e, laAddValues]
    simp only [laDest, laCheck_ok free h, readable_ok h.good, bind, Except.bind, pure, Except.pure]
    rfl
  · rw [same]; exact (SameView.refl _).onCur
  · rw [same]; exact accessed_onCur st.acc
  · rw [same, curTask_onCur, st.curTask]

section
variable {s : State} {g : Guard} {a b d f : BitVec 5} (hg : s.curTask.guardOk g = true) (free : Unhindered s)
include hg free

theorem laClr_completes (h : NamesWindow s (s.curTask.reg a) (permLd ||| permSt)) :
    AccessCompletes (.laClr g a) s id fun t => HoldsInt s t (windowOf s a) 0 := by
  refine completes_laWrite (u := laWrite s (windowOf s a) 0) ?_ (.refl _) (stores_laWrite s _ _).acc (stores_laWrite s _ _).curTask
  rw [show exec (.laClr g a) s = execLaClr g a s from rfl, execLaClr, guarded_on hg]
  simp only [laDest, laCheck_ok free h, bind, Except.bind, pure, Except.pure]
  rfl

theorem laMrg_completes (h : NamesWindow s (s.curTask.reg a) (permLd ||| permSt)) (k : NamesWindow s (s.curTask.reg b) permLd) :
    AccessCompletes (.laMrg g a b) s id fun t => HoldsInt s t (windowOf s a) (laValue s (windowOf s a) + laValue s (windowOf s b)) := by
  have st := stores_laWrite s (windowOf s a) (laValue s (windowOf s a) + laValue s (windowOf s b))
  refine completes_laWrite (u := (laWrite s (windowOf s a) (laValue s (windowOf s a) + laValue s (windowOf s b))).chargeCur (windowOf s b) 80)
    ?_ (.chargeCur (.refl _)) st.chargeCur.acc st.chargeCur.curTask
  rw [show exec (.laMrg g a b) s = execLaMrg g a b s from rfl, execLaMrg, guarded_on hg]
  simp only [laDest, laCheck_ok free h, laCheck_ok free k, readable_ok h.good, loadable_ok k.good, bind, Except.bind, pure, Except.pure]
  rfl

theorem laRnd_completes (h : NamesWindow s (s.curTask.reg a) permLd) :
    let r := fconv (laFmt f) s.curTask.sat .rne (.fin (decide (laValue s (windowOf s a) < 0)) (laValue s (windowOf s a)).natAbs (-320))
    AccessCompletes (.laRnd g d a f) s (fun x => (x.addFlags r.2).setReg d ⟨BitVec.ofNat 128 r.1, .data⟩) (MemorySame s) := by
  intro r
  have small : r.1 < 2 ^ 64 :=
    Nat.lt_of_lt_of_le (fconv_lt (laFmt_sound f).1 ..) (Nat.pow_le_pow_right (by decide) (laFmt_sound f).2)
  have st : Stores s ((s.performPath true).chargeCur (windowOf s a) 80) := .chargeCur (stores_performPath s true)
  refine completesFrom_onCur (u := (s.performPath true).chargeCur (windowOf s a) 80)
    (k := fun x => ((x.addFlags r.2).setReg d ⟨BitVec.ofNat 128 r.1, .data⟩).advance 4) ?_ st.acc st.tid (memorySame_performPath s true)
    (x := s.curTask) rfl (by rw [st.curTask])
  rw [show exec (.laRnd g d a f) s = execLaRnd g d a f s from rfl, execLaRnd, guarded_on hg]
  simp only [laCheck_ok free h, loadable_ok h.good, bind, Except.bind, pure, Except.pure, ← setR64_ofNat _ d small]
  rfl

end

/-- Settles O29: windows by `holdsInt_laWrite`, the sum by its terms, the rounding by the conversion itself. -/
theorem longAccumulatorsAddExactly : Obligations.LongAccumulatorsAddExactly := by
  intro s g a b d f v hg locks eps bp ok place value holds fm unit bad z zs both
  have free : Unhindered s := ⟨locks, eps, bp⟩
  have val (r : BitVec 5) : laValue s (windowOf s r) = value r := laValue_eq s _
  have term (z : FVal) : laTerm z = (unit z, bad z) := laTerm_eq z
  have sum (vs : List FVal) : laTerms vs = ((vs.map unit).sum, vs.foldl (fun y z => y ||| bad z) 0) := by
    rw [laTerms_eq]; simp only [term]
  refine ⟨fun h => ⟨laClr_completes hg free h, ?_, ?_, fun k => ?_⟩, fun h => ?_⟩
  · have := laAddValues_completes (i := .laAdd g f a b) (vs := [z]) free h
      (by rw [show exec (.laAdd g f a b) s = execLaAdd g f a b s from rfl, execLaAdd, guarded_on hg]; rfl)
    rw [sum, val] at this
    simp only [List.map_cons, List.map_nil, List.sum_cons, List.sum_nil, Int.add_zero, List.foldl_cons, List.foldl_nil, show ∀ x : Flags, 0 ||| x = x from fun x => BitVec.zero_or] at this
    exact this
  · have := laAddValues_completes (i := .laAddv g f a v) (vs := zs) free h
      (by rw [show exec (.laAddv g f a v) s = execLaAddv g f a v s from rfl, execLaAddv, guarded_on hg]; rfl)
    rwa [sum, val] at this
  · have := laMrg_completes hg free h k
    rwa [val, val] at this
  · have := laRnd_completes (d := d) (f := f) hg free h
    rw [val] at this
    exact fun _ => this

end Sys2Proof.Machine
end

section
/-! PROOFS. Vector conversions and reductions (R64 to R66, R76, R187, R191). -/

namespace Sys2Proof.Machine

open Sys2Proof.Safety Sys2Proof.Laws

/-! Conversions to floating-point formats -/

section
variable {f : Fmt} (hf : f.Sound)
include hf

/-- The largest finite value, and every finite code, in multiples of 2^-3000. -/
theorem fdecode_max {n : Bool} {k : Nat} {p : Int} (h : fdecode f (maxCode f) = .fin n k p) : mag k p = mag (codeVal f (maxCode f)) f.qmin := by
  obtain ⟨k', p', eq, -, value⟩ := fdecode_finite hf (Nat.le_refl (maxCode f)) false
  rw [show signBit f false + maxCode f = maxCode f by simp [signBit], h] at eq
  obtain ⟨-, rfl, rfl⟩ := FVal.fin.inj eq
  exact value

/-- A finite value converted to nearest even: within the format its nearest number of quanta with the flags of R63, beyond it what R65
names. -/
theorem fconv_nearest {m : Nat} {e : Int} {l z : Nat} {q : Int} (h : Nearest f m e l z q) (sat neg : Bool) {n : Bool} {k : Nat} {p : Int}
    (most : fdecode f (maxCode f) = .fin n k p) :
    let r := fconv f sat .rne (.fin neg m e)
    (mag z q ≤ mag k p → (∃ k p, fdecode f r.1 = .fin neg k p ∧ -3000 ≤ p ∧ mag k p = mag z q) ∧ r.1 < 2 ^ (1 + f.ebits + f.fbits)
      ∧ r.2 = if mag z q = mag m e then 0 else if mag m e < mag 1 (1 - f.bias) then flUnderflow ||| flInexact else flInexact)
    ∧ (mag k p < mag z q → r = (overflowCode f sat neg, flOverflow ||| flInexact)) := by
  intro r
  have eq : r = _ := h.roundFin hf sat neg
  have within : mag z q ≤ mag k p ↔ ¬ maxCode f < gridCode f z q := by
    rw [fdecode_max hf most, ← h.codeVal hf, mag_le, (codeVal_strictMono f).le_iff_le, Nat.not_lt]
  refine ⟨fun small => ?_, fun large => by rw [eq, if_pos (by by_contra c; have := within.mpr c; omega)]⟩
  rw [if_neg (within.mp small)] at eq
  obtain ⟨k', p', value, low, same⟩ := fdecode_finite hf (Nat.not_lt.mp (within.mp small)) neg
  exact ⟨⟨k', p', (congrArg (fdecode f) (congrArg Prod.fst eq)).trans value, low, same.trans (h.codeVal hf)⟩, fconv_lt hf sat .rne (.fin neg m e),
    congrArg Prod.snd eq⟩
end

/-- The formats with their largest code, what follows it at overflow and whether the sign stays with that (R65). -/
def formatTable : List (Fmt × Nat × Nat × Bool) :=
  [(fp64, 0x7FEFFFFFFFFFFFFF, 0x7FF0000000000000, true), (fp32, 0x7F7FFFFF, 0x7F800000, true), (bf16, 0x7F7F, 0x7F80, true),
    (fp16, 0x7BFF, 0x7C00, true), (e5m2, 0x7B, 0x7C, true), (e4m3, 0x7E, 0x7F, false), (e2m1, 7, 7, true)]

theorem formatTable_forall {p : Fmt × Nat × Nat × Bool → Prop} (h : p (fp64, 0x7FEFFFFFFFFFFFFF, 0x7FF0000000000000, true)
    ∧ p (fp32, 0x7F7FFFFF, 0x7F800000, true) ∧ p (bf16, 0x7F7F, 0x7F80, true) ∧ p (fp16, 0x7BFF, 0x7C00, true) ∧ p (e5m2, 0x7B, 0x7C, true)
    ∧ p (e4m3, 0x7E, 0x7F, false) ∧ p (e2m1, 7, 7, true)) : ∀ x ∈ formatTable, p x := by
  simpa only [formatTable, List.forall_mem_cons, List.not_mem_nil, false_imp_iff, implies_true, and_true] using h

theorem formatTable_sound : ∀ x ∈ formatTable, x.1.Sound :=
  formatTable_forall ⟨fp64_sound, fp32_sound, bf16_sound, fp16_sound, e5m2_sound, e4m3_sound, e2m1_sound⟩

/-- What R65 names for a value beyond a format's largest one. -/
def topOf (f : Fmt) (most over_ : Nat) (keeps sat neg : Bool) : Nat :=
  let sign := if neg then 2 ^ (f.ebits + f.fbits) else 0
  if sat = true then sign + most else if keeps then sign + over_ else over_

theorem formatTable_codes : ∀ x ∈ formatTable, x.2.1 = maxCode x.1 ∧ (x.1.fbits = 1 ↔ x.1 = e2m1)
    ∧ ∀ sat neg, topOf x.1 x.2.1 x.2.2.1 x.2.2.2 sat neg = overflowCode x.1 sat neg := by
  apply formatTable_forall
  decide

/-- Infinities convert by R65. -/
theorem formatTable_inf : ∀ x ∈ formatTable, x.1.hasInf = true ∨ x.1 = e4m3 → ∀ sat neg, fconv x.1 sat .rne (.inf neg) =
    (topOf x.1 x.2.1 x.2.2.1 x.2.2.2 sat neg, if sat = true then flInexact else if x.1 = e4m3 then flInvalid else 0) := by
  apply formatTable_forall
  decide

/-- A finite value of a format of the table: zero keeps its sign, and any other takes its nearest number of quanta or what R65 names. -/
theorem formatTable_fin {f : Fmt} {most over_ : Nat} {keeps : Bool} (known : (f, most, over_, keeps) ∈ formatTable) (sat neg : Bool) (m : Nat) {e : Int}
    (he : -3000 ≤ e) :
    let x := mag m e
    let r := fconv f sat .rne (.fin neg m e)
    (m = 0 → r = (signBit f neg, 0))
    ∧ ∀ l z : Nat, 2 ^ l ≤ x → x < 2 ^ (l + 1) →
      let q : Int := max ((l : Int) - 3000 - f.fbits) (1 - (f.bias : Int) - f.fbits)
      let y := mag z q
      2 * y ≤ 2 * x + mag 1 q → 2 * x ≤ 2 * y + mag 1 q → (2 * y = 2 * x + mag 1 q ∨ 2 * x = 2 * y + mag 1 q → z % 2 = 0) →
      ∀ n k p, fdecode f most = .fin n k p →
        (y ≤ mag k p → (∃ k p, fdecode f r.1 = .fin neg k p ∧ -3000 ≤ p ∧ mag k p = y) ∧ r.1 < 2 ^ (1 + f.ebits + f.fbits)
          ∧ r.2 = if y = x then 0 else if x < mag 1 (1 - f.bias) then flUnderflow ||| flInexact else flInexact)
        ∧ (mag k p < y → r = (topOf f most over_ keeps sat neg, flOverflow ||| flInexact)) := by
  obtain ⟨largest, -, top⟩ := formatTable_codes _ known
  refine ⟨fun zero => if_pos zero, fun l z lead next low high tie n k p value => ?_⟩
  rw [top]
  exact fconv_nearest (formatTable_sound _ known) ⟨he, lead, next, rfl, low, high, tie⟩ sat neg ((congrArg (fdecode f) largest).symm.trans value)

/-- A NaN becomes the canonical NaN; a format without one sets invalid. -/
theorem formatTable_nan {f : Fmt} {most over_ : Nat} {keeps : Bool} (known : (f, most, over_, keeps) ∈ formatTable) (sat s : Bool) :
    fconv f sat .rne (.nan s) = (f.nan, if s = true ∨ f = e2m1 then flInvalid else 0) := by
  obtain ⟨-, noNan, -⟩ := formatTable_codes _ known
  simp only [fconv, noNan, Bool.or_eq_true, decide_eq_true_eq]

/-! Conversions to integer formats -/

theorem mag_whole (k : Nat) : mag k 0 = k * 2 ^ 3000 := congrArg (k * 2 ^ ·) (show (0 + 3000 : Int).toNat = 3000 from rfl)

/-- The value of a rounded and saturated integer (R66). -/
theorem roundIntFmt_nearest {w : Nat} {neg : Bool} {m : Nat} {e : Int} {k u : Nat} (hu : u = 2 ^ 3000) (he : -3000 ≤ e)
    (low : 2 * (k * u) ≤ 2 * mag m e + u) (high : 2 * mag m e ≤ 2 * (k * u) + u)
    (tie : 2 * (k * u) = 2 * mag m e + u ∨ 2 * mag m e = 2 * (k * u) + u → k % 2 = 0) :
    iconv w .rne (.fin neg m e) =
      let lim := if neg then 2 ^ (w - 1) else 2 ^ (w - 1) - 1
      if lim < k then (lim, flOverflow ||| flInexact)
      else (((if neg then -(k : Int) else k) % 2 ^ w).toNat, if k * u = mag m e then 0 else flInexact) := by
  have whole : k * u = mag k 0 := by rw [mag_whole, hu]
  have one : u = mag 1 0 := by rw [mag_whole, Nat.one_mul, hu]
  rw [whole, one] at low high tie
  obtain ⟨rounded, exact⟩ := round_nearest m he (by decide) low high tie
  simp only [iconv, roundIntFmt, rounded, exact, wrapInt, whole]
  push_cast
  cases neg <;> rfl

/-- An integer next to a value has the value's sign, and its magnitude is next to the value's. -/
theorem signed_nearest {x u : Nat} (hu : 0 < u) (neg : Bool) {z : Int} :
    let v : Int := if neg then -(x : Int) else x
    2 * (z * u) ≤ 2 * v + u → 2 * v ≤ 2 * (z * u) + u → (2 * (z * u) = 2 * v + u ∨ 2 * v = 2 * (z * u) + u → z % 2 = 0) →
    ∃ k : Nat, z = (if neg then -(k : Int) else k) ∧ 2 * (k * u) ≤ 2 * x + u ∧ 2 * x ≤ 2 * (k * u) + u
      ∧ (2 * (k * u) = 2 * x + u ∨ 2 * x = 2 * (k * u) + u → k % 2 = 0) ∧ (z * u = v ↔ k * u = x) := by
  intro v low high tie
  have unit (k : Nat) : ((k * u : Nat) : Int) = (k : Int) * u := Nat.cast_mul k u
  cases neg with
  | false =>
    simp only [v, Bool.false_eq_true, if_false] at *
    have sign : 0 ≤ z := by
      by_contra h
      nlinarith [Int.mul_le_mul_of_nonneg_right (show z ≤ -1 by omega) (Int.natCast_nonneg u)]
    obtain ⟨k, rfl⟩ := Int.eq_ofNat_of_zero_le sign
    rw [← unit] at *
    exact ⟨k, rfl, by omega⟩
  | true =>
    simp only [v, if_true] at *
    have sign : z ≤ 0 := by
      by_contra h
      nlinarith [Int.mul_le_mul_of_nonneg_right (show 1 ≤ z by omega) (Int.natCast_nonneg u)]
    obtain ⟨k, hk⟩ := Int.eq_ofNat_of_zero_le (show 0 ≤ -z by omega)
    obtain rfl : z = -(k : Int) := by omega
    rw [Int.neg_mul, ← unit] at *
    exact ⟨k, rfl, by omega⟩

/-- A finite value converted to w-bit two's complement: rounded to nearest even, and saturated. -/
theorem iconv_nearest {w : Nat} (neg : Bool) (m : Nat) {e : Int} (z : Int) (he : -3000 ≤ e) :
    let x : Int := if neg then -(mag m e : Int) else mag m e
    let y : Int := z * 2 ^ 3000
    2 * y ≤ 2 * x + 2 ^ 3000 → 2 * x ≤ 2 * y + 2 ^ 3000 → (2 * y = 2 * x + 2 ^ 3000 ∨ 2 * x = 2 * y + 2 ^ 3000 → z % 2 = 0) →
    let r := iconv w .rne (.fin neg m e)
    (-(2 ^ (w - 1)) ≤ z → z ≤ 2 ^ (w - 1) - 1 → r = ((z % 2 ^ w).toNat, if y = x then 0 else flInexact))
    ∧ (z < -(2 ^ (w - 1)) → r = (2 ^ (w - 1), flOverflow ||| flInexact))
    ∧ (2 ^ (w - 1) - 1 < z → r = (2 ^ (w - 1) - 1, flOverflow ||| flInexact)) := by
  intro x y low high tie r
  obtain ⟨u, hu, pos⟩ : ∃ u : Nat, u = 2 ^ 3000 ∧ 0 < u := ⟨_, rfl, Nat.two_pow_pos _⟩
  have unit : (u : Int) = 2 ^ 3000 := by rw [hu, Nat.cast_pow, Nat.cast_ofNat]
  simp only [y, x, ← unit] at low high tie ⊢
  obtain ⟨k, sign, below, above, even, same⟩ := signed_nearest pos neg low high tie
  have eq : r = _ := roundIntFmt_nearest hu he below above even
  have lim : ((2 ^ (w - 1) : Nat) : Int) = 2 ^ (w - 1) := Nat.cast_pow 2 (w - 1)
  have some := Nat.two_pow_pos (w - 1)
  rw [eq, ← lim]
  simp only [same]
  generalize 2 ^ (w - 1) = h at *
  subst sign
  cases neg with
  | false =>
    simp only [Bool.false_eq_true, if_false]
    exact ⟨fun _ _ => if_neg (by omega), fun _ => by omega, fun _ => if_pos (by omega)⟩
  | true =>
    simp only [if_true]
    exact ⟨fun _ _ => if_neg (by omega), fun _ => if_pos (by omega), fun _ => by omega⟩

/-! Conversions between lane types (R64, R187) -/

theorem mag_zero (e : Int) : mag 0 e = 0 := Nat.zero_mul _

/-- The digits and the unit of a finite code (R52, R53). -/
theorem fdecode_bounds {f : Fmt} {c : Nat} {n : Bool} {k : Nat} {p : Int} (h : fdecode f c = .fin n k p) :
    k < 2 * 2 ^ f.fbits ∧ f.qmin ≤ p ∧ (f.hasInf = true → 2 ≤ f.emax → p + f.fbits < f.emax - f.bias) := by
  have field := Nat.mod_lt (c / 2 ^ f.fbits) (Nat.two_pow_pos f.ebits)
  have frac := Nat.mod_lt c (Nat.two_pow_pos f.fbits)
  have top : f.emax = 2 ^ f.ebits - 1 := rfl
  unfold fdecode at h
  extract_lets s e fr at h
  split at h
  · split at h <;> simp at h
  · next finite =>
    split at h
    · simp at h
    · split at h
      · obtain ⟨rfl, rfl, rfl⟩ := FVal.fin.inj h
        exact ⟨by omega, Int.le_refl _, fun _ _ => by omega⟩
      · obtain ⟨rfl, rfl, rfl⟩ := FVal.fin.inj h
        refine ⟨by omega, by unfold Fmt.qmin; omega, fun inf _ => ?_⟩
        have : e ≠ f.emax := fun eq => finite (by simp [eq, inf])
        omega

/-- Every finite value of f is one of h. -/
def Widens (f h : Fmt) : Prop :=
  f.hasInf = true ∧ h.hasInf = true ∧ 2 ≤ f.emax ∧ 2 ≤ h.emax ∧ f.fbits ≤ h.fbits ∧ h.qmin ≤ f.qmin
    ∧ (f.emax : Int) - f.bias ≤ h.emax - h.bias

/-- A value with no more bits than the fraction of a format and a quantum that the format has is its own nearest one. -/
theorem nearest_self {h : Fmt} (hh : h.Sound) {k : Nat} {p : Int} (pos : k ≠ 0) (few : k < 2 * 2 ^ h.fbits) (low : h.qmin ≤ p) :
    ∃ l z q, Nearest h k p l z q ∧ mag z q = mag k p ∧ (l : Int) - 3000 = Nat.log2 k + p := by
  have bottom := hh.qmin_le
  have bits : Nat.log2 k ≤ h.fbits := Nat.le_of_lt_succ ((Nat.log2_lt pos).mpr (by rwa [Nat.pow_succ, Nat.mul_comm]))
  have unit := Nat.two_pow_pos (p + 3000).toNat
  obtain ⟨l, hl⟩ : ∃ l, l = Nat.log2 k + (p + 3000).toNat := ⟨_, rfl⟩
  have lead : 2 ^ l ≤ mag k p := by
    rw [hl, Nat.pow_add, mag]
    exact Nat.mul_le_mul_right _ (Nat.log2_self_le pos)
  have next : mag k p < 2 ^ (l + 1) := by
    rw [hl, Nat.add_right_comm, Nat.pow_add, mag]
    exact Nat.mul_lt_mul_of_pos_right Nat.lt_log2_self unit
  obtain ⟨q, hq⟩ : ∃ q : Int, q = max ((l : Int) - 3000 - h.fbits) (1 - (h.bias : Int) - h.fbits) := ⟨_, rfl⟩
  have range : h.qmin ≤ q ∧ q ≤ p := by unfold Fmt.qmin at *; omega
  have same : mag (k * 2 ^ (p - q).toNat) q = mag k p := by
    rw [← mag_shift _ _ (by omega)]
    congr 1
    omega
  have one : 0 < mag 1 q := by rw [mag, Nat.one_mul]; exact Nat.two_pow_pos _
  exact ⟨l, _, q, ⟨by omega, lead, next, hq, by omega, by omega, by omega⟩, same, by omega⟩

/-- A value that is a multiple of its quantum stays below the infinity of a format that has its exponent. -/
theorem Nearest.gridCode_le {h : Fmt} (hh : h.Sound) {m : Nat} {e : Int} {l z : Nat} {q : Int} (near : Nearest h m e l z q) (same : mag z q = mag m e)
    (inf : h.hasInf = true) (exps : 2 ≤ h.emax) (small : (l : Int) - 3000 < h.emax - h.bias) : gridCode h z q ≤ maxCode h := by
  obtain ⟨bottom, -⟩ := near.quantum_le hh
  have quantum := near.quantum
  have unit := Nat.two_pow_pos (q + 3000).toNat
  have few : z < 2 * 2 ^ h.fbits := by
    have next := near.next
    rw [← same, mag] at next
    have : 2 ^ (l + 1) ≤ 2 ^ (h.fbits + 1 + (q + 3000).toNat) := Nat.pow_le_pow_right (by decide) (by unfold Fmt.qmin at *; omega)
    rw [Nat.pow_add 2 (h.fbits + 1), Nat.pow_succ 2 h.fbits] at this
    have := Nat.lt_of_mul_lt_mul_right (Nat.lt_of_lt_of_le next this)
    omega
  have place : (q - h.qmin).toNat + 2 ≤ h.emax := by unfold Fmt.qmin at *; omega
  have := Nat.mul_le_mul_right (2 ^ h.fbits) place
  rw [Nat.add_mul] at this
  rw [gridCode, maxCode, if_pos inf]
  omega

/-- A finite value converts exactly to a wider format, and to its own. -/
theorem fconv_widen {f h : Fmt} (hh : h.Sound) (wide : Widens f h) {c : Nat} {n : Bool} {k : Nat} {p : Int} (value : fdecode f c = .fin n k p) :
    let r := fconv h false .rne (.fin n k p)
    r.2 = 0 ∧ ∃ k' p', fdecode h r.1 = .fin n k' p' ∧ -3000 ≤ p' ∧ mag k' p' = mag k p := by
  obtain ⟨inf, inf', exps, exps', fbits, quantum, top⟩ := wide
  obtain ⟨few, low, high⟩ := fdecode_bounds value
  have high := high inf exps
  by_cases zero : k = 0
  · subst zero
    have eq : fconv h false .rne (.fin n 0 p) = (signBit h n + 0, 0) := rfl
    obtain ⟨k', p', value', low', same⟩ := fdecode_finite hh (Nat.zero_le (maxCode h)) n
    rw [eq]
    refine ⟨rfl, k', p', value', low', same.trans ?_⟩
    rw [codeVal, if_pos (Nat.two_pow_pos _), mag_zero, mag_zero]
  · have few' : k < 2 * 2 ^ h.fbits := Nat.lt_of_lt_of_le few (Nat.mul_le_mul_left 2 (Nat.pow_le_pow_right (by decide) fbits))
    have bits : Nat.log2 k ≤ f.fbits := Nat.le_of_lt_succ ((Nat.log2_lt zero).mpr (by rwa [Nat.pow_succ, Nat.mul_comm]))
    obtain ⟨l, z, q, near, same, lead⟩ := nearest_self hh zero few' (quantum.trans low)
    have within := near.gridCode_le hh same inf' exps' (by omega)
    have eq : fconv h false .rne (.fin n k p) = _ := near.roundFin hh false n
    obtain ⟨k', p', value', low', same'⟩ := fdecode_finite hh within n
    rw [eq, if_neg (Nat.not_lt.mpr within), if_pos same]
    exact ⟨rfl, k', p', value', low', same'.trans ((near.codeVal hh).trans same)⟩

/-! The rows of VCVT (R187) -/

theorem lanes_widen : ∀ t < 8, ∀ r < 8, ∀ f ∈ laneFmt t, ∀ h ∈ laneFmt r, laneWidth t < laneWidth r ∨ t = r → Widens f h := by
  unfold Widens
  decide

/-- Infinities and NaNs of the lane formats. -/
theorem lanes_special : ∀ r < 8, ∀ h ∈ laneFmt r, ∀ b, fconv h false .rne (.nan b) = (h.nan, if b = true then flInvalid else 0)
    ∧ fdecode h (fconv h false .rne (.inf b)).1 = .inf b ∧ (fconv h false .rne (.inf b)).2 = 0 := by decide

theorem laneFmt_sound {t : Nat} {f : Fmt} (h : laneFmt t = some f) : f.Sound := by
  unfold laneFmt at h
  split at h <;> cases h
  exacts [fp32_sound, bf16_sound, fp16_sound, fp64_sound]

theorem laneFmt_int {t : Nat} (h : 4 ≤ t) : laneFmt t = none := by
  obtain ⟨k, rfl⟩ := Nat.exists_eq_add_of_le' h
  rfl

theorem wrapInt_eq (i : Int) (n : Nat) : wrapInt i n = (i % 2 ^ n).toNat := by rw [wrapInt, Nat.cast_pow, Nat.cast_ofNat]

/-- A lane converts by the row of its two types, exactly to a wider one and to its own. -/
theorem cvtLane_rows (sat : Bool) {t r v : Nat} (ht : t < 8) (hr : r < 8) (hv : v < 2 ^ laneWidth t) :
    let ws := laneWidth t
    let wr := laneWidth r
    let sx : Int := if 2 * v < 2 ^ ws then v else (v : Int) - 2 ^ ws
    let int : FVal := .fin (decide (sx < 0)) sx.natAbs 0
    let c := cvtLane sat t r v
    (∀ f h, laneFmt t = some f → laneFmt r = some h → ws < wr ∨ t = r →
      (∀ s, fdecode f v = .nan s → c = (h.nan, if s = true then flInvalid else 0))
      ∧ (∀ n, fdecode f v = .inf n → fdecode h c.1 = .inf n ∧ c.2 = 0)
      ∧ (∀ n k p, fdecode f v = .fin n k p → c.2 = 0 ∧ ∃ k' p', fdecode h c.1 = .fin n k' p' ∧ -3000 ≤ p' ∧ mag k' p' = mag k p))
    ∧ (∀ f h, laneFmt t = some f → laneFmt r = some h → wr ≤ ws → t ≠ r → c = fconv h sat .rne (fdecode f v))
    ∧ (∀ f, laneFmt t = some f → 4 ≤ r → c = iconv wr .rne (fdecode f v))
    ∧ (∀ h, 4 ≤ t → laneFmt r = some h → c = fconv h sat .rne int)
    ∧ (4 ≤ t → 4 ≤ r → ws ≤ wr → c = ((sx % 2 ^ wr).toNat, 0))
    ∧ (4 ≤ t → 4 ≤ r → wr < ws → c = iconv wr .rne int) := by
  intro ws wr sx int c
  have read : ofInt (sxInt v ws) = int := congrArg ofInt (sxInt_of_lt hv)
  refine ⟨fun f h hf hh wide => ?_, fun f h hf hh narrow other => ?_, fun f hf int => ?_, fun h int hh => ?_, fun it ir wide => ?_,
    fun it ir narrow => ?_⟩
  · have eq : c = fconv h false .rne (fdecode f v) := by
      simp only [c, cvtLane, hf, hh]
      rw [show (decide (t = r) || decide (laneWidth t < laneWidth r)) = true by simpa [or_comm] using wide, Bool.not_true, Bool.and_false]
    have special := lanes_special r hr h hh
    rw [eq]
    refine ⟨fun s value => ?_, fun n value => ?_, fun n k p value => ?_⟩
    · rw [value]
      exact (special s).1
    · rw [value]
      exact (special n).2
    · rw [value]
      exact fconv_widen (laneFmt_sound hh) (lanes_widen t ht r hr f hf h hh wide) value
  · simp only [c, cvtLane, hf, hh]
    rw [show (decide (t = r) || decide (laneWidth t < laneWidth r)) = false by simpa using ⟨other, narrow⟩, Bool.not_false, Bool.and_true]
  · simp only [c, cvtLane, hf, laneFmt_int int, wr]
  · simp only [c, cvtLane, hh, laneFmt_int int, ← read, ws]
  · simp only [c, cvtLane, laneFmt_int it, laneFmt_int ir, wrapInt_eq]
    rw [if_pos wide, sxInt_of_lt hv]
  · simp only [c, cvtLane, laneFmt_int it, laneFmt_int ir, ← read, ws]
    exact if_neg (Nat.not_le.mpr narrow)

/-! Exact sums (R76) -/

/-- A finite value in multiples of 2^-2000. -/
def scaled (v : FVal) : Int := match v with
  | .fin neg k p => (if neg then -(k : Int) else k) * 2 ^ (p + 2000).toNat
  | _ => 0

/-- A finite value whose unit is no less than 2^-2000. -/
def Fine (v : FVal) : Prop := ∃ n k p, v = .fin n k p ∧ -2000 ≤ p

def NegZero (v : FVal) : Prop := ∃ p, v = .fin true 0 p

theorem negZero_fin {n : Bool} {k : Nat} {p : Int} : NegZero (.fin n k p) ↔ n = true ∧ k = 0 := by simp [NegZero]

theorem scaled_zero {n : Bool} {p : Int} : scaled (.fin n 0 p) = 0 := by
  rw [scaled, Nat.cast_zero, neg_zero, ite_self, zero_mul]

/-- A value in multiples of a smaller unit. -/
theorem scaled_fin (n : Bool) (k : Nat) {p q : Int} (hq : -2000 ≤ q) (hp : q ≤ p) : scaled (.fin n k p) = alignTo q (.fin n k p) * 2 ^ (q + 2000).toNat := by
  rw [scaled, alignTo, show (p + 2000).toNat = (p - q).toNat + (q + 2000).toNat by omega, pow_add]
  cases n <;> simp only [Bool.false_eq_true, if_false, if_true] <;> push_cast <;> ring

theorem scaled_rounded (s : Int) (q : Int) : scaled (.fin (decide (s < 0)) s.natAbs q) = s * 2 ^ (q + 2000).toNat := by
  rw [scaled]
  congr 1
  by_cases h : s < 0
  · rw [decide_eq_true h, if_pos rfl]
    omega
  · rw [decide_eq_false h, if_neg Bool.false_ne_true]
    omega

/-- An exact sum of two values, and the sign of its zero. -/
theorem finAdd_scaled {x y : FVal} (hx : Fine x) (hy : Fine y) :
    Fine (finAdd x y) ∧ scaled (finAdd x y) = scaled x + scaled y ∧ (NegZero (finAdd x y) ↔ NegZero x ∧ NegZero y) := by
  obtain ⟨na, ma, ea, rfl, ha⟩ := hx
  obtain ⟨nb, mb, eb, rfl, hb⟩ := hy
  obtain ⟨q, hq⟩ : ∃ q, q = if ea ≤ eb then ea else eb := ⟨_, rfl⟩
  have low : -2000 ≤ q ∧ q ≤ ea ∧ q ≤ eb := by split at hq <;> omega
  obtain ⟨s, hs⟩ : ∃ s, s = alignTo q (.fin na ma ea) + alignTo q (.fin nb mb eb) := ⟨_, rfl⟩
  have sum : finAdd (.fin na ma ea) (.fin nb mb eb) =
      if s = 0 then .fin (na && nb && ma = 0 && mb = 0) 0 q else .fin (s < 0) s.natAbs q := by subst hs hq; rfl
  rw [sum, scaled_fin na ma low.1 low.2.1, scaled_fin nb mb low.1 low.2.2, ← add_mul, ← hs, negZero_fin, negZero_fin]
  by_cases zero : s = 0
  · rw [if_pos zero, negZero_fin, zero]
    exact ⟨⟨_, _, _, rfl, low.1⟩, by rw [scaled_zero, zero_mul], by simp; tauto⟩
  · rw [if_neg zero, negZero_fin]
    refine ⟨⟨_, _, _, rfl, low.1⟩, scaled_rounded s q, ⟨fun h => absurd (Int.natAbs_eq_zero.mp h.2) zero, fun h => ?_⟩⟩
    obtain ⟨⟨-, rfl⟩, -, rfl⟩ := h
    exact absurd (by simp [hs, alignTo]) zero

theorem foldl_finAdd {l : List FVal} (hl : ∀ v ∈ l, Fine v) : ∀ {x : FVal}, Fine x → Fine (l.foldl finAdd x)
    ∧ scaled (l.foldl finAdd x) = scaled x + (l.map scaled).sum ∧ (NegZero (l.foldl finAdd x) ↔ NegZero x ∧ ∀ v ∈ l, NegZero v) := by
  induction l with
  | nil => intro x hx; simpa using hx
  | cons y l ih =>
    intro x hx
    obtain ⟨hy, hl⟩ := List.forall_mem_cons.mp hl
    obtain ⟨fine, sum, sign⟩ := finAdd_scaled hx hy
    obtain ⟨fine', sum', sign'⟩ := ih hl fine
    rw [List.foldl_cons, List.map_cons, List.sum_cons, List.forall_mem_cons, sum', sum, sign', sign, add_assoc, and_assoc]
    exact ⟨fine', rfl, Iff.rfl⟩

theorem any_eq_inf (xs : List FVal) (n : Bool) : xs.any (fun v => decide (v = .inf n)) = decide (FVal.inf n ∈ xs) := by
  rw [Bool.eq_iff_iff]
  simp

/-- A NaN, or infinities of both signs. -/
theorem exactSum_invalid {xs : List FVal} (h : (∃ v ∈ xs, v.isNan = true) ∨ (FVal.inf true ∈ xs ∧ FVal.inf false ∈ xs)) :
    exactSum xs = (.nan false, flInvalid) := if_pos (by simpa using h)

/-- The exact sum of finite values. -/
def finiteSum : List FVal → FVal × Flags
  | [] => (.fin false 0 0, 0)
  | x :: rest => (rest.foldl finAdd x, 0)

/-- Without NaN and without infinities of both signs. -/
theorem exactSum_valid {xs : List FVal} (nums : ∀ v ∈ xs, v.isNan = false) (one : ¬ (FVal.inf true ∈ xs ∧ FVal.inf false ∈ xs)) :
    exactSum xs = if FVal.inf true ∈ xs then (.inf true, (0 : Flags)) else if FVal.inf false ∈ xs then (.inf false, 0)
      else finiteSum xs := by
  have nan : xs.any FVal.isNan = false := by simpa using nums
  unfold exactSum
  simp only [nan, any_eq_inf, Bool.false_or, Bool.and_eq_true, decide_eq_true_eq]
  exact if_neg one

/-- Infinities of one sign. -/
theorem exactSum_inf {xs : List FVal} {n : Bool} (nums : ∀ v ∈ xs, v.isNan = false) (one : FVal.inf n ∈ xs) (other : FVal.inf (!n) ∉ xs) :
    exactSum xs = (.inf n, 0) := by
  cases n with
  | true => rw [exactSum_valid nums fun h => other h.2, if_pos one]
  | false => rw [exactSum_valid nums fun h => other h.1, if_neg (show FVal.inf true ∉ xs from other), if_pos one]

/-- Finite values alone. -/
theorem exactSum_finite {xs : List FVal} (fin : ∀ v ∈ xs, ∃ n k p, v = .fin n k p) :
    exactSum xs = finiteSum xs := by
  have noInf (n : Bool) : FVal.inf n ∉ xs := fun h => by obtain ⟨_, _, _, eq⟩ := fin _ h; cases eq
  have nums : ∀ v ∈ xs, v.isNan = false := fun v h => by obtain ⟨_, _, _, rfl⟩ := fin v h; rfl
  rw [exactSum_valid nums fun h => noInf true h.1, if_neg (noInf true), if_neg (noInf false)]

/-- The exact sum of finite values: +0 unless each is −0. -/
theorem exactSum_fine {xs : List FVal} (fine : ∀ v ∈ xs, Fine v) : (exactSum xs).2 = 0 ∧ ∃ n k p, (exactSum xs).1 = .fin n k p ∧ -2000 ≤ p
    ∧ scaled (exactSum xs).1 = (xs.map scaled).sum ∧ (k = 0 → (n = true ↔ xs ≠ [] ∧ ∀ v ∈ xs, NegZero v)) := by
  rw [exactSum_finite fun v h => by obtain ⟨n, k, p, eq, -⟩ := fine v h; exact ⟨n, k, p, eq⟩]
  cases xs with
  | nil => exact ⟨rfl, false, 0, 0, rfl, by decide, scaled_zero, by simp⟩
  | cons x xs =>
    obtain ⟨hx, hxs⟩ := List.forall_mem_cons.mp fine
    obtain ⟨⟨n, k, p, eq, low⟩, sum, sign⟩ := foldl_finAdd hxs hx
    refine ⟨rfl, n, k, p, eq, low, sum, fun zero => ?_⟩
    rw [eq, negZero_fin] at sign
    simpa [zero] using sign

/-! Instructions of the vector queue that write a register (R177, R191) -/

theorem vecOp_queued {i : Instr} {g : Guard} {f64 : Bool} {s : State} {f : Task → Task × Flags} {F : Task → Task} {fl : Flags}
    (h : exec i s = vecOp g i f64 s f) (hg : s.curTask.guardOk g = true) (room : s.me.vecq.length < 16) (offered : (f64 && s.domeOnly) = false)
    (hf : f s.curTask = (F s.curTask, fl)) : Queued i s F fl := by
  have tid : (enqueued s fl none).curTid = s.curTid := (SameView.refl s).enqueued.tid
  refine ⟨enqueued (s.setTask s.curTid ((F s.curTask).advance 4)) fl none, ?_, ⟨rfl, fun u hu => ?_⟩, ?_⟩
  · have room' : (s.setTask s.curTid ((F s.curTask).advance 4)).me.vecq.length < 16 := room
    rw [h, vecOp, guarded_on hg]
    simp only [withheld, failIf_false offered, hf, vecEnter_room room', bind, Except.bind, finish]
  · exact (State.task_setTask ..).trans (if_neg (tid ▸ hu))
  · rw [show (enqueued (s.setTask s.curTid ((F s.curTask).advance 4)) fl none).task s.curTid = (F s.curTask).advance 4 from State.task_setTask_same ..]
    exact Task.advance_retired _ _

theorem setR64_mod (x : Task) (e : BitVec 5) {n : Nat} {v : Int} (h : (n : Int) = v % 2 ^ 64) :
    x.setR64 e (BitVec.ofNat 64 n) = x.setReg e ⟨BitVec.ofInt 128 (v % 2 ^ 64), .data⟩ := by
  rw [setR64_ofNat x e (by omega), ← h, BitVec.ofInt_natCast]

/-! VREDS and VREDM (R191) -/

theorem activeLanes_vec (x : Task) (a : BitVec 4) (m : BitVec 2) (t : Nat) : activeLanes x (a.setWidth 5) m t =
    ((List.range (512 / laneWidth t)).filter fun k => (x.mask m).getLsbD k).map fun k => laneOf (x.vec a) (laneWidth t) k := by
  rw [activeLanes, vreg, BitVec.setWidth_setWidth_of_le a (by decide), BitVec.setWidth_eq]
  rfl

theorem activeLanes_lt {x : Task} {a : BitVec 5} {m : BitVec 2} {t u : Nat} (h : u ∈ activeLanes x a m t) : u < 2 ^ laneWidth t := by
  obtain ⟨k, -, rfl⟩ := List.mem_map.mp h
  exact laneOf_lt ..

/-- The signed values of integer lanes. -/
theorem activeLanes_signed (x : Task) (a : BitVec 5) (m : BitVec 2) (t : Nat) : (activeLanes x a m t).map (fun v => sxInt v (laneWidth t)) =
    (activeLanes x a m t).map fun (u : Nat) => if 2 * u < 2 ^ laneWidth t then (u : Int) else (u : Int) - 2 ^ laneWidth t :=
  List.map_congr_left fun _ h => sxInt_of_lt (activeLanes_lt h)

section
variable {s : State} {g : Guard} (hg : s.curTask.guardOk g = true) (room : s.me.vecq.length < 16) {t : BitVec 3}
  (offered : ¬ (t = 3 ∧ s.domeOnly = true))
include hg room offered

theorem vreds_queued (e a : BitVec 5) (m : BitVec 2) {v : Int} {n : Nat} {fl : Flags} (sum : reduceSum t.toNat (activeLanes s.curTask a m t.toNat) = (n, fl))
    (hv : (n : Int) = v % 2 ^ 64) : Queued (.vreds g e a m t) s (fun x => x.setReg e ⟨BitVec.ofInt 128 (v % 2 ^ 64), .data⟩) fl := by
  have run : exec (.vreds g e a m t) s = execVreds g e a m t s := rfl
  refine vecOp_queued (run.trans (by rw [execVreds])) hg room (by simpa using offered) ?_
  dsimp only
  rw [sum, ← setR64_mod _ e hv]

theorem vredm_queued (e a : BitVec 5) (m : BitVec 2) {v : Int} {n : Nat} {fl : Flags} (most : reduceMax t.toNat (activeLanes s.curTask a m t.toNat) = (n, fl))
    (hv : (n : Int) = v % 2 ^ 64) : Queued (.vredm g e a m t) s (fun x => x.setReg e ⟨BitVec.ofInt 128 (v % 2 ^ 64), .data⟩) fl := by
  have run : exec (.vredm g e a m t) s = execVredm g e a m t s := rfl
  refine vecOp_queued (run.trans (by rw [execVredm])) hg room (by simpa using offered) ?_
  dsimp only
  rw [most, ← setR64_mod _ e hv]

end

theorem wrapInt_cast (i : Int) : (wrapInt i 64 : Int) = i % 2 ^ 64 := by
  rw [wrapInt_eq]
  omega

theorem code_cast_of_lt {f : Fmt} {c : Nat} (h : c < 2 ^ (1 + f.ebits + f.fbits)) (small : 1 + f.ebits + f.fbits ≤ 64) : (c : Int) = (c : Int) % 2 ^ 64 := by
  have : c < 2 ^ 64 := Nat.lt_of_lt_of_le h (Nat.pow_le_pow_right (by decide) small)
  omega

theorem code_cast {f : Fmt} (hf : f.Sound) (small : 1 + f.ebits + f.fbits ≤ 64) (sat : Bool) (md : Rounding) (v : FVal) :
    ((fconv f sat md v).1 : Int) = ((fconv f sat md v).1 : Int) % 2 ^ 64 := code_cast_of_lt (fconv_lt hf sat md v) small

/-- The formats of lanes fit a register, and so do their sums. -/
theorem laneFmt_fits {t : Nat} {f : Fmt} (h : laneFmt t = some f) : 1 + f.ebits + f.fbits ≤ 64 ∧ -2000 ≤ f.qmin := by
  unfold laneFmt at h
  split at h <;> cases h <;> decide

theorem fdecode_fine {t : Nat} {f : Fmt} (h : laneFmt t = some f) {u : Nat} (fin : ∃ n k p, fdecode f u = .fin n k p) : Fine (fdecode f u) := by
  obtain ⟨n, k, p, eq⟩ := fin
  obtain ⟨-, low, -⟩ := fdecode_bounds eq
  exact ⟨n, k, p, eq, (laneFmt_fits h).2.trans low⟩

theorem reduceSum_int {t : Nat} (h : 4 ≤ t) (l : List Nat) : reduceSum t l = (wrapInt (l.map fun v => sxInt v (laneWidth t)).sum 64, 0) := by
  rw [reduceSum, laneFmt_int h]

theorem reduceSum_fp {t : Nat} {f : Fmt} (h : laneFmt t = some f) (l : List Nat) :
    reduceSum t l = toLane (if t = 3 then fp64 else fp32) (exactSum (l.map (fdecode f))) := by
  rw [reduceSum, h]

theorem reduceMax_int {t : Nat} (h : 4 ≤ t) (l : List Nat) :
    reduceMax t l = (wrapInt ((l.map fun v => sxInt v (laneWidth t)).foldl max (-(2 ^ (laneWidth t - 1)))) 64, 0) := by
  rw [reduceMax, laneFmt_int h]
  simp only [← max_def, Nat.cast_pow, Nat.cast_ofNat]

theorem reduceMax_none {t : Nat} {f : Fmt} (h : laneFmt t = some f) : reduceMax t [] = (signBit f true + f.emax * 2 ^ f.fbits, 0) := by
  rw [reduceMax, h]
  rfl

theorem reduceMax_cons {t : Nat} {f : Fmt} (h : laneFmt t = some f) (u : Nat) (us : List Nat) :
    let z := us.foldl (fun (y : FVal × Flags) v => ((fmaxmin true y.1 (fdecode f v)).1, y.2 ||| (fmaxmin true y.1 (fdecode f v)).2))
      (fdecode f u, sigFlag (fdecode f u))
    reduceMax t (u :: us) = ((fconv f false .rne z.1).1, (fconv f false .rne z.1).2 ||| z.2) := by
  rw [reduceMax, h]
  exact congrArg (toLane f) List.foldl_map

/-- Settles O24: the exact sum of finite lanes adds their multiples of 2^-2000, and a conversion takes the code of the nearest number of quanta. -/
theorem vectorReductionsRoundOnce : Obligations.VectorReductionsRoundOnce := by
  refine ⟨fun s g e a m t hg room offered => ?_, fun f most over_ keeps sat neg known => ?_, fun w _ => ?_,
    fun sat t r v ht hr hv => cvtLane_rows sat ht hr hv⟩
  · intro x w ls sx red scaled'
    have lanes : activeLanes x (a.setWidth 5) m t.toNat = ls := activeLanes_vec x a m t.toNat
    have signed : ls.map (fun v => sxInt v w) = ls.map sx := by rw [← lanes]; exact activeLanes_signed ..
    refine ⟨fun ints => ⟨?_, ?_⟩, fun q hq => ?_⟩
    · refine vreds_queued hg room offered e _ m (reduceSum_int ints _) ?_
      rw [wrapInt_cast, lanes, signed]
    · refine vredm_queued hg room offered e _ m (reduceMax_int ints _) ?_
      rw [wrapInt_cast, lanes, signed]
    · intro vs out
      obtain ⟨fits, -⟩ := laneFmt_fits hq
      have wide : (if t.toNat = 3 then fp64 else fp32) = out := if_congr (BitVec.toNat_inj (y := 3#3)) rfl rfl
      obtain ⟨sound, room64⟩ : out.Sound ∧ 1 + out.ebits + out.fbits ≤ 64 := by
        simp only [out]
        split
        · exact ⟨fp64_sound, by decide⟩
        · exact ⟨fp32_sound, by decide⟩
      refine ⟨⟨exactSum vs, ?_, exactSum_invalid, fun n nums one other => exactSum_inf nums one other, fun fin => exactSum_fine fun v h => ?_, ?_⟩, ?_, ?_⟩
      · refine vreds_queued hg room offered e _ m ((reduceSum_fp hq _).trans (by rw [lanes, wide]; rfl)) ?_
        exact code_cast sound room64 false .rne _
      · obtain ⟨u, -, rfl⟩ := List.mem_map.mp h
        exact fdecode_fine hq (fin _ h)
      · intro none
        rw [none]
        rfl
      · intro none
        refine vredm_queued hg room offered e _ m ((congrArg _ (lanes.trans none)).trans (reduceMax_none hq)) ?_
        exact code_cast_of_lt (signed_lt (infCode_lt q) true) fits
      · intro u us some
        refine vredm_queued hg room offered e _ m ((congrArg _ (lanes.trans some)).trans (reduceMax_cons hq u us)) ?_
        exact code_cast (laneFmt_sound hq) fits false .rne _
  · refine ⟨fun m e he => formatTable_fin known sat neg m he, formatTable_nan known sat, fun inf => formatTable_inf _ known inf sat neg, ?_⟩
    cases neg <;> cases sat <;> rfl
  · exact ⟨fun neg m e z he => iconv_nearest neg m z he, fun _ => rfl, rfl, rfl⟩

end Sys2Proof.Machine
end

section
/-! PROOFS. Fields of instruction words (R87, R92): a word is the concatenation of its fields exactly if each of them stands in its place. -/

namespace Sys2Proof

/-- The bits of a word from bit s up are the field f. -/
def FieldAt {n : Nat} (w : W32) (s : Nat) (f : BitVec n) : Prop := w.extractLsb' s n = f

theorem FieldAt.eq {n : Nat} {w : W32} {s : Nat} {f : BitVec n} (h : FieldAt w s f) : w.extractLsb' s n = f := h

theorem eq_iff_fieldAt (x w : W32) : x = w ↔ FieldAt w 0 x := by
  rw [FieldAt, BitVec.extractLsb'_eq_self, eq_comm]

/-- A concatenation stands where its parts stand. -/
theorem fieldAt_append {m n : Nat} (w : W32) (s : Nat) (x : BitVec m) (y : BitVec n) :
    FieldAt (n := no_index (m + n)) w s (no_index (x ++ y)) ↔ FieldAt w (s + n) x ∧ FieldAt w s y := by
  unfold FieldAt
  rw [← BitVec.extractLsb'_append_extractLsb'_eq_extractLsb' rfl]
  constructor
  · intro h
    have hx := congrArg (BitVec.extractLsb' n m) h
    have hy := congrArg (BitVec.extractLsb' 0 n) h
    simp only [BitVec.extractLsb'_append_eq_left, BitVec.extractLsb'_append_eq_right] at hx hy
    exact ⟨hx, hy⟩
  · rintro ⟨rfl, rfl⟩
    rfl

theorem fieldAt_self (w : W32) (s n : Nat) : FieldAt w s (w.extractLsb' s n) ↔ True := iff_true_intro rfl

theorem fieldAt_ofNat {w : W32} {s n k : Nat} (h : (w.extractLsb' s n).toNat = k) : FieldAt w s (BitVec.ofNat n k) := by
  rw [FieldAt, ← h, BitVec.ofNat_toNat, BitVec.setWidth_eq]

theorem fieldAt_guardBits (w : W32) (g : Guard) : FieldAt w 28 (guardBits g) ↔ guardOf w = g := by
  obtain ⟨n, p⟩ := g
  rw [guardBits, fieldAt_append, guardOf, Guard.mk.injEq, FieldAt, FieldAt]
  refine and_congr_left' ⟨fun h => ?_, ?_⟩
  · simpa using congrArg (·.getLsbD 0) h
  · rintro rfl
    ext k hk
    obtain rfl : k = 0 := by omega
    simp

/-- A word is made of its bytes (R7). -/
theorem wordOfBytes_bytes (w : W32) : wordOfBytes (w.extractLsb' 0 8) (w.extractLsb' 8 8) (w.extractLsb' 16 8) (w.extractLsb' 24 8) = w := by
  simp only [wordOfBytes, eq_iff_fieldAt, fieldAt_append, fieldAt_self, Nat.reduceAdd, and_true]

end Sys2Proof
end

section
/-! PROOFS. Decoding is strict (R88): what decodes is the encoding of its instruction, and nothing else is. -/

namespace Sys2Proof

/-- Whatever instruction a decoder answers is encoded by these words. -/
def Yields (r : Except DecodeError Instr) (ws : List W32) : Prop := ∀ i, r = .ok i → encode i = ws

theorem yields_ok {i : Instr} {ws : List W32} : Yields (.ok i) ws ↔ encode i = ws :=
  ⟨fun h => h i rfl, fun h _ e => Except.ok.inj e ▸ h⟩

theorem yields_error (e : DecodeError) (ws : List W32) : Yields (.error e) ws :=
  fun _ h => absurd h (by simp only [reduceCtorEq, not_false_eq_true])

/-- A check of a field, which R88 answers with an error. -/
theorem yields_ite {w : W32} {s n : Nat} {f : BitVec n} {r : Except DecodeError Instr} {e : DecodeError} {ws : List W32} :
    Yields (if w.extractLsb' s n = f then r else .error e) ws ↔ (FieldAt w s f → Yields r ws) := by
  by_cases h : w.extractLsb' s n = f
  · rw [if_pos h]
    exact ⟨fun k _ => k, fun k => k h⟩
  · rw [if_neg h]
    exact ⟨fun _ k => absurd k h, fun _ => yields_error e ws⟩

theorem yields_zero {w : W32} {s n : Nat} {r : Except DecodeError Instr} {ws : List W32} :
    Yields (zero (w.extractLsb' s n) r) ws ↔ (FieldAt w s 0#n → Yields r ws) := yields_ite

theorem yields_literal {w : W32} {s n : Nat} {r : Except DecodeError Instr} {ws : List W32} :
    Yields (literal (w.extractLsb' s n) r) ws ↔ (FieldAt w s 0#n → Yields r ws) := yields_ite

/-- The upper half of the function field, which CMP and SEL divide (R96). -/
theorem fieldAt_upper {w : W32} {k : Nat} (h : (w.extractLsb' 7 6).toNat = k) (u : Nat) : FieldAt w 10 (BitVec.ofNat 3 u) ↔ k / 8 = u % 8 := by
  rw [FieldAt, BitVec.toNat_eq]
  simp only [BitVec.extractLsb'_toNat, Nat.shiftRight_eq_div_pow, BitVec.toNat_ofNat] at h ⊢
  omega

/-- R88, R92: each branch of the decoder reads the fields that the encoder of its instruction writes. -/
theorem yields_decodeFields (w l : W32) : Yields (decodeFields w l) (if hasLiteral w then [w, l] else [w]) := by
  unfold decodeFields
  split
  any_goals exact yields_error _ _
  all_goals
    rename_i hm
    simp +contextual only [hasLiteral, hm, Bool.false_eq_true, if_false, if_true, yields_zero, yields_literal, yields_ite, yields_ok,
      encode.eq_def, List.cons.injEq, eq_iff_fieldAt, fieldAt_append, fieldAt_guardBits, Nat.reduceAdd, fieldAt_self, fieldAt_ofNat hm, and_true, implies_true]
  all_goals
    simp only [decode01, decode10, decode18, decode27, decode34, decode3A, decode40, decode41, decode4D, decode50,
      decode52, decode58, decode59, decode6A, decode70]
    split
    any_goals exact yields_error _ _
    all_goals
      rename_i hf
      simp +contextual only [yields_zero, yields_ok, encode.eq_def, List.cons.injEq, eq_iff_fieldAt,
        fieldAt_append, fieldAt_guardBits, Nat.reduceAdd, fieldAt_self, fieldAt_ofNat hm, fieldAt_ofNat hf, and_true, true_and, implies_true]
  all_goals simp only [fieldAt_upper hf, Nat.reduceDiv, Nat.reduceMod, implies_true]

theorem zero_eq {n : Nat} {f : BitVec n} {r s : Except DecodeError Instr} (h : f = 0) (hr : r = s) : zero f r = s := (if_pos h).trans hr
theorem literal_eq {n : Nat} {f : BitVec n} {r s : Except DecodeError Instr} (h : f = 0) (hr : r = s) : literal f r = s := (if_pos h).trans hr

/-- A code is one of the numbers up to a bound on it. -/
theorem exists_code {n m : Nat} (c : BitVec n) (h : c.toNat ≤ m) : ∃ k ≤ m, c = BitVec.ofNat n k :=
  ⟨c.toNat, h, by rw [BitVec.ofNat_toNat, BitVec.setWidth_eq]⟩

/-- The fields of an instruction word, as the decoder reads them, are those that the encoder wrote (R92, R96 to R102): its major selects a branch,
within 15 of the majors its function code another, and the fields fixed to zero pass their checks. -/
theorem decodeFields_of_word {i : Instr} {w : W32} (l : W32) (h : encode i = [w]) (hi : legal i = true) : decodeFields w l = .ok i := by
  cases i <;> simp only [encode.eq_def, List.cons.injEq, eq_iff_fieldAt, fieldAt_append, fieldAt_guardBits, Nat.reduceAdd, reduceCtorEq,
    and_true, and_false] at h
  all_goals
    obtain ⟨h, hm⟩ := h
    rw [decodeFields, hm.eq]
  case' add | sub | mul | mulh | mulhu | div | divu | rem | remu | and | or | xor | andn | shl | shr | sar | min | max | minu | maxu | clz | ctz
      | popc | brev | sext | zext =>
    change decode01 w = _
    rw [decode01, h.2.eq]
  case' pand | por | pxor | pnot | pset | mov =>
    change decode10 w = _
    rw [decode10, h.2.eq]
  case' csetb | crestr | cadd | cget | cclr | cseal | ctest =>
    change decode18 w = _
    rw [decode18, h.2.eq]
  case' fence | fenceLb =>
    change decode27 w = _
    rw [decode27, h.2.eq]
  case' barArr | barWait | barSync | cntSet | cntAdd | cntWait =>
    change decode34 w = _
    rw [decode34, h.2.eq]
  case' jr | endTask | yield | nop =>
    change decode3A w = _
    rw [decode3A, h.2.eq]
  case' vadd | vsub | vmul | vfma | vmax | vmin | vabs | vneg | vexp2 | vlog2 | vrcp | vrsq =>
    change decode40 w = _
    rw [decode40, h.2.eq]
  case' vcvt | vsel | vshf | viota | mand | mor | mnot =>
    change decode41 w = _
    rw [decode41, h.2.eq]
  case' mxZero | mxMma | mxRag | mxLda | mxSta | mxWait | mxStat =>
    change decode50 w = _
    rw [decode50, h.2.eq]
  case' laClr | laAdd | laAddv | laMrg | laRnd =>
    change decode52 w = _
    rw [decode52, h.2.eq]
  case' chNew | chConn | chSend | chRecv | chOffer | chSelect | chDeleg | chAccept | chClose | chStat | chSync | chFree =>
    change decode58 w = _
    rw [decode58, h.2.eq]
  case' spawn | bind | unbind | launch | jobq | ipGive | ipTake =>
    change decode59 w = _
    rw [decode59, h.2.eq]
  case' engGo | engWait =>
    change decode6A w = _
    rw [decode6A, h.2.eq]
  case' tret | sret | brk | tlbi | compose | release | govPin | govUnpin =>
    change decode70 w = _
    rw [decode70, h.2.eq]
  case' cmp c =>
    change decode10 w = _
    rw [decode10, ((fieldAt_append w 7 0#3 c).mpr ⟨h.1.2, h.2⟩).eq, h.2.eq]
    obtain ⟨k, hk, rfl⟩ := exists_code c (of_decide_eq_true hi)
    interval_cases k
  case' sel c =>
    change decode10 w = _
    rw [decode10, ((fieldAt_append w 7 3#3 c).mpr ⟨h.1.2, h.2⟩).eq, h.2.eq]
    obtain ⟨k, hk, rfl⟩ := exists_code c (Nat.lt_succ_iff.mp c.isLt)
    interval_cases k
  case' vcmp c =>
    change decode4D w = _
    rw [decode4D, h.2.eq]
    obtain ⟨k, hk, rfl⟩ := exists_code c (of_decide_eq_true hi)
    interval_cases k
  all_goals
    unfold FieldAt at h
    casesm* _ ∧ _
    subst_vars
    repeat refine zero_eq ‹_› ?_
    rfl

/-- The fields of an instruction word with its literal word (R92, R96, R98 to R100). -/
theorem decodeFields_of_pair {i : Instr} {w l : W32} (h : encode i = [w, l]) : decodeFields w l = .ok i := by
  cases i <;> simp only [encode.eq_def, List.cons.injEq, eq_iff_fieldAt, fieldAt_append, fieldAt_guardBits, Nat.reduceAdd, reduceCtorEq,
    and_true, and_false] at h
  all_goals
    obtain ⟨⟨h, hm⟩, hl⟩ := h
    rw [decodeFields, hm.eq]
    unfold FieldAt at h hl
    casesm* _ ∧ _
    subst_vars
  case' mxStaSeed => refine (if_pos ‹_›).trans ?_
  all_goals
    repeat refine zero_eq ‹_› ?_
    repeat refine literal_eq ‹_› ?_
    rfl

end Sys2Proof
end

section
/-! PROOFS. Encoding and decoding (R86, R88, R92, R96 to R102): words, bytes and well-formed instructions. -/

namespace Sys2Proof

/-- Beside the events, the decoder's checks of field values are those of well-formed instructions (R88). -/
theorem wf_eq_legal {i : Instr} (h : encode i ≠ []) : i.wf = legal i := by
  cases i <;> simp only [encode.eq_def, ne_eq, reduceCtorEq, not_true_eq_false, not_false_eq_true] at h <;> rfl

/-- R92: eight instructions have a literal word, the others one word, and events none. -/
theorem shape_encode (i : Instr) : Laws.Words.Shape (encode i) := by
  cases i
  case lit | lith | loop | loopi | safept | vstSeed | vscatSeed | mxStaSeed => exact Laws.Words.shape_two _ _ _ rfl
  any_goals exact trivial
  all_goals exact Laws.Words.shape_one _ _ rfl

theorem decode_eq_ok {w l : W32} {i : Instr} : decode w l = .ok i ↔ decodeFields w l = .ok i ∧ legal i = true := by
  unfold decode
  cases decodeFields w l with
  | error e => simp only [reduceCtorEq, false_and]
  | ok j =>
    by_cases h : legal j = true
    · simp only [h, if_true, Except.ok.injEq]
      exact ⟨fun e => ⟨e, e ▸ h⟩, fun e => e.1⟩
    · simp only [if_neg h, reduceCtorEq, Except.ok.injEq, false_iff]
      rintro ⟨rfl, k⟩
      exact h k

theorem decode_of_word {i : Instr} {w : W32} (l : W32) (h : encode i = [w]) (hi : i.wf = true) : decode w l = .ok i := by
  rw [wf_eq_legal (by simp [h])] at hi
  exact decode_eq_ok.mpr ⟨decodeFields_of_word l h hi, hi⟩

theorem decode_of_pair {i : Instr} {w l : W32} (h : encode i = [w, l]) (hi : i.wf = true) : decode w l = .ok i := by
  rw [wf_eq_legal (by simp [h])] at hi
  exact decode_eq_ok.mpr ⟨decodeFields_of_pair h, hi⟩

theorem encode_of_decode {w l : W32} {i : Instr} (h : decode w l = .ok i) : encode i = if hasLiteral w then [w, l] else [w] :=
  yields_decodeFields w l i (decode_eq_ok.mp h).1

theorem encode_cons_of_decode {w l : W32} {i : Instr} (h : decode w l = .ok i) : ∃ ws, encode i = w :: ws := by
  rw [encode_of_decode h]
  split <;> exact ⟨_, rfl⟩

theorem decodeBytes_one {w : W32} {i : Instr} (hl : hasLiteral w = false) (h : decode w 0 = .ok i) (rest : List Byte) :
    decodeBytes (bytesOfWord w ++ rest) = .ok (i, rest) := by
  simp only [bytesOfWord, List.cons_append, List.nil_append, decodeBytes, wordOfBytes_bytes, hl, h, Bool.false_eq_true, if_false]

theorem decodeBytes_two {w l : W32} {i : Instr} (hl : hasLiteral w = true) (h : decode w l = .ok i) (rest : List Byte) :
    decodeBytes (bytesOfWord w ++ bytesOfWord l ++ rest) = .ok (i, rest) := by
  simp only [bytesOfWord, List.cons_append, List.nil_append, decodeBytes, wordOfBytes_bytes, hl, h, if_true]

/-- Settles O56: the decoder reads the fields that the encoder wrote, from the number of words that the first one says. -/
theorem everyInstructionDecodesFromItsWords : Obligations.EveryInstructionDecodesFromItsWords := by
  intro i rest hi h
  have shape := shape_encode i
  match e : encode i with
  | [] => exact absurd e h
  | [w] =>
    have single : hasLiteral w = false := by simpa [e, Laws.Words.Shape] using shape
    rw [List.flatMap_singleton]
    exact decodeBytes_one single (decode_of_word 0 e hi) rest
  | [w, l] =>
    have double : hasLiteral w = true := by simpa [e, Laws.Words.Shape] using shape
    rw [List.flatMap_cons, List.flatMap_singleton]
    exact decodeBytes_two double (decode_of_pair e hi) rest
  | w :: _ :: _ :: _ =>
    rw [e, Laws.Words.Shape] at shape
    split at shape <;> simp at shape

/-- Settles O57: each branch of the decoder answers an instruction whose words it has read, and checks its fields. -/
theorem everyDecodedWordIsAnEncoding : Obligations.EveryDecodedWordIsAnEncoding := by
  intro w l i h
  obtain ⟨ws, hw⟩ := encode_cons_of_decode h
  exact ⟨encode_of_decode h, (wf_eq_legal (by simp [hw])).trans (decode_eq_ok.mp h).2⟩

/-- Settles O55: the words are the encodings of their instructions, and the last three fail at their major, their major, and their function. -/
theorem wordsDecodeAsTheTablesSay : Obligations.WordsDecodeAsTheTablesSay :=
  ⟨decode_of_word 0 rfl rfl, decode_of_word 0 rfl rfl, decode_of_word 0 rfl rfl, decode_of_word 0 rfl rfl, decode_of_word 0 rfl rfl,
    decode_of_word 0 rfl rfl, decode_of_pair rfl rfl, decode_of_word 0 rfl rfl, ⟨.major, rfl⟩, ⟨.major, rfl⟩, ⟨_, rfl⟩⟩

end Sys2Proof
end

section
/-! PROOFS. Fetching, decoding and issuing an instruction (R86, R88 to R90, R113, R444). -/

namespace Sys2Proof.Machine

open Sys2Proof.Safety Sys2Proof.Laws

/-! Fetch (R86) -/

theorem curTask_chargeCur (s : State) (pa n : Nat) : (s.chargeCur pa n).curTask = s.curTask := by
  have h := (SameView.refl s).chargeCur (pa := pa) (n := n)
  rw [State.curTask, h.tid]
  rfl

theorem cur_stepLoop (s : State) : s.stepLoop.cur = s.cur := by
  unfold State.stepLoop
  split <;> rfl

theorem dbg_stepLoop (s : State) : s.stepLoop.dbg = s.dbg := by
  unfold State.stepLoop
  split <;> rfl

/-- The word at a physical address, as a fetch reads it. -/
def wordAt (s : State) (pa : Nat) : W32 := BitVec.ofNat 32 (s.readNat pa 4)

theorem wordAt_chargeCur (s : State) (pa n a : Nat) : wordAt (s.chargeCur pa n) a = wordAt s a := by
  rw [wordAt, State.readNat, ((SameView.refl s).chargeCur (pa := pa) (n := n)).readBytes, wordAt, State.readNat]

/-- A fetch at an address passes its checks: it is aligned and in the scratchpad, at pa, the code capability grants it, the word is readable. -/
structure Fetches (s : State) (a : W64) (pa : Nat) : Prop where
  placed : spadPa s.cur + a.toNat = pa
  aligned : a.toNat % 4 = 0
  room : a.toNat + 4 ≤ 0x80000
  granted : capCheck s.curTask.pcc permEx a 4 = none
  clean : Clean s pa 4

theorem Fetches.chargeCur {s : State} {a : W64} {pa : Nat} (h : Fetches s a pa) (q n : Nat) : Fetches (s.chargeCur q n) a pa :=
  ⟨h.placed, h.aligned, h.room, by rw [curTask_chargeCur]; exact h.granted, h.clean⟩

theorem fetchWord_ok {s : State} {a : W64} {pa : Nat} (h : Fetches s a pa) : fetchWord s a = .ok (s.chargeCur pa 4, wordAt s pa) := by
  obtain ⟨placed, aligned, room, granted, clean⟩ := h
  have window : aliasWin a = some 0 := by
    rw [aliasWin, if_pos (by omega), Nat.div_eq_of_lt (by omega)]
  have offset : a.toNat % 0x100000 = a.toNat := Nat.mod_eq_of_lt (by omega)
  rw [fetchWord, granted, window, place_alias s a 4 .fetch (by omega), offset, placed]
  simp only [failIf, aligned, ne_eq, not_true_eq_false, decide_false, Bool.false_or, decide_eq_false (show ¬ 0x80000 ≤ a.toNat by omega),
    Bool.false_eq_true, if_false, memTarget, readable_ok clean, bind, Except.bind, pure, Except.pure]
  rfl

/-- The state after the fetch of the words of an instruction at pa. -/
def fetchedState (s : State) (pa : Nat) : State :=
  if hasLiteral (wordAt s pa) then (s.chargeCur pa 4).chargeCur (pa + 4) 4 else s.chargeCur pa 4

/-- The literal word of the instruction at pa, 0 where it has none. -/
def literalAt (s : State) (pa : Nat) : W32 := if hasLiteral (wordAt s pa) then wordAt s (pa + 4) else 0

theorem curTask_fetchedState (s : State) (pa : Nat) : (fetchedState s pa).curTask = s.curTask := by
  unfold fetchedState
  split <;> simp only [curTask_chargeCur]

theorem dbg_fetchedState (s : State) (pa : Nat) : (fetchedState s pa).dbg = s.dbg := by
  unfold fetchedState
  split <;> rfl

theorem fetchLiteral_ok {s : State} {pa : Nat} (h : hasLiteral (wordAt s pa) = true → Fetches s (s.curTask.pc + 4) (pa + 4)) :
    fetchLiteral (s.chargeCur pa 4) (wordAt s pa) = .ok (fetchedState s pa, literalAt s pa) := by
  unfold fetchLiteral fetchedState literalAt
  split
  · next two => rw [curTask_chargeCur, fetchWord_ok ((h two).chargeCur pa 4), wordAt_chargeCur]
  · rfl

/-- The words at the pc are fetched where their bytes are in the scratchpad, granted and readable. -/
theorem fetch_words {s : State} {pa : Nat} (placed : spadPa s.cur + s.curTask.pc.toNat = pa) (aligned : s.curTask.pc.toNat % 4 = 0)
    (room : s.curTask.pc.toNat + (if hasLiteral (wordAt s pa) then 8 else 4) ≤ 0x80000)
    (first : capCheck s.curTask.pcc permEx s.curTask.pc 4 = none)
    (second : hasLiteral (wordAt s pa) = true → capCheck s.curTask.pcc permEx (s.curTask.pc + 4) 4 = none)
    (clean : Clean s pa (if hasLiteral (wordAt s pa) then 8 else 4)) :
    fetchWord s s.curTask.pc = .ok (s.chargeCur pa 4, wordAt s pa)
    ∧ fetchLiteral (s.chargeCur pa 4) (wordAt s pa) = .ok (fetchedState s pa, literalAt s pa) := by
  have long : 4 ≤ if hasLiteral (wordAt s pa) then 8 else 4 := by split <;> decide
  refine ⟨fetchWord_ok ⟨placed, aligned, by omega, first, fun j hj => clean j (by omega)⟩, fetchLiteral_ok fun two => ?_⟩
  rw [if_pos two] at room clean
  have next : (s.curTask.pc + 4).toNat = s.curTask.pc.toNat + 4 := by bv_omega
  refine ⟨by omega, by omega, by omega, second two, fun j hj => ?_⟩
  rw [Nat.add_assoc]
  exact clean (4 + j) (by omega)

/-! Decode (R88 to R90) -/

section
variable {s u v : State} {w l : W32} {i : Instr}

theorem fetchInstr_illegal {e : DecodeError} (first : fetchWord s s.curTask.pc = .ok (u, w)) (second : fetchLiteral u w = .ok (v, l))
    (h : decode w l = .error e) : fetchInstr s = .error (.after v (.trap .illegalInstr (l ++ w))) := by
  unfold fetchInstr
  simp only [first, second, h, bind, Except.bind]
  rfl

theorem fetchInstr_illegalReg {r : Nat × Nat} (first : fetchWord s s.curTask.pc = .ok (u, w)) (second : fetchLiteral u w = .ok (v, l))
    (h : decode w l = .ok i) (reg : illegalReg v.curTask i = some r) : fetchInstr s = .error (.after v (.trap .illegalReg (illegalRegInfo i r))) := by
  unfold fetchInstr
  simp only [first, second, h, reg, bind, Except.bind]
  rfl

theorem fetchInstr_ok (first : fetchWord s s.curTask.pc = .ok (u, w)) (second : fetchLiteral u w = .ok (v, l))
    (h : decode w l = .ok i) (reg : illegalReg v.curTask i = none) (free : v.dbg.bp = []) : fetchInstr s = .ok (v, i) := by
  have none : fetchInstr.instrMatch v = none := by
    unfold fetchInstr.instrMatch
    rw [free]
    rfl
  unfold fetchInstr
  simp only [first, second, h, reg, none, bind, Except.bind]
  rfl

end

theorem toNat_append_byte {n : Nat} (x : BitVec n) (b : Byte) : (x ++ b).toNat = b.toNat + 256 * x.toNat := by
  rw [BitVec.toNat_append, ← Nat.shiftLeft_add_eq_or_of_lt b.isLt, Nat.shiftLeft_eq]
  omega

theorem wordOfBytes_eq (b0 b1 b2 b3 : Byte) : wordOfBytes b0 b1 b2 b3 = BitVec.ofNat 32 (leNat [b0, b1, b2, b3]) := by
  refine BitVec.eq_of_toNat_eq ?_
  rw [BitVec.toNat_ofNat, Nat.mod_eq_of_lt (show leNat [b0, b1, b2, b3] < 2 ^ 32 from leNat_lt _), wordOfBytes,
    toNat_append_byte, toNat_append_byte, toNat_append_byte]
  rfl

theorem wordAt_eq (s : State) (pa : Nat) : wordAt s pa = wordOfBytes (s.byte pa) (s.byte (pa + 1)) (s.byte (pa + 2)) (s.byte (pa + 3)) :=
  (wordOfBytes_eq _ _ _ _).symm

/-- What the eight bytes at an address decode to is what the word there decodes to, with its literal word (R86, R92). -/
theorem decodeBytes_readBytes (s : State) (pa : Nat) : decodeBytes (s.readBytes pa 8) =
    (decode (wordAt s pa) (literalAt s pa)).map fun i => (i, if hasLiteral (wordAt s pa) then [] else s.readBytes (pa + 4) 4) := by
  simp only [State.readBytes, decodeBytes, literalAt, wordAt_eq]
  split
  · cases decode _ _ <;> rfl
  · cases decode _ _ <;> rfl

theorem decode_of_readBytes {s : State} {pa : Nat} {i : Instr} {rest : List Byte} (h : decodeBytes (s.readBytes pa 8) = .ok (i, rest)) :
    decode (wordAt s pa) (literalAt s pa) = .ok i := by
  rw [decodeBytes_readBytes] at h
  cases hd : decode (wordAt s pa) (literalAt s pa) with
  | error e => simp [hd, Except.map] at h
  | ok j =>
    simp only [hd, Except.map, Except.ok.injEq, Prod.mk.injEq] at h
    rw [h.1]

theorem decode_of_no_readBytes {s : State} {pa : Nat} (h : ∀ j r, decodeBytes (s.readBytes pa 8) ≠ .ok (j, r)) :
    ∃ e, decode (wordAt s pa) (literalAt s pa) = .error e := by
  cases hd : decode (wordAt s pa) (literalAt s pa) with
  | error e => exact ⟨e, rfl⟩
  | ok j => exact absurd (by rw [decodeBytes_readBytes, hd]; rfl) (h j _)

/-- The information word of ILLEGAL_REG (R89): the instruction word, then the file and the index of the register. -/
theorem illegalRegInfo_eq {i : Instr} {w l : W32} (h : decode w l = .ok i) (r : Nat × Nat) :
    illegalRegInfo i r = BitVec.ofNat 64 (w.toNat + r.1 * 2 ^ 32 + r.2 * 2 ^ 34) := by
  obtain ⟨ws, hw⟩ := encode_cons_of_decode h
  have head : headInfo i = w.setWidth 64 := by rw [headInfo, hw]
  have file : r.1 * 2 ^ 32 + r.2 * 2 ^ 34 = (r.1 + 4 * r.2) * 2 ^ 32 := by omega
  rw [illegalRegInfo, head, Nat.add_assoc, file]
  apply BitVec.eq_of_toNat_eq
  have small := w.isLt
  have high : (r.1 + 4 * r.2) * 2 ^ 32 % 2 ^ 64 = 2 ^ 32 * ((r.1 + 4 * r.2) % 2 ^ 32) := by omega
  rw [BitVec.toNat_or, BitVec.toNat_setWidth_of_le (by decide), BitVec.toNat_ofNat, BitVec.toNat_ofNat, high, Nat.or_comm,
    ← Nat.two_pow_add_eq_or_of_lt small]
  omega

/-! Steps (R113; log entries 4, 5, 31) -/

theorem runInstr_ok {s t : State} {i : Instr} (h : fetchInstr s = .ok (t, i)) :
    runInstr s = mapNext (afterIssue t s.curTask (some i)) (exec i t) := by
  rw [runInstr, h]

theorem runInstr_stop {s : State} {st : Stop} (h : fetchInstr s = .error st) :
    runInstr s = .next (afterIssue s s.curTask none (applyStop s st)) := by
  rw [runInstr, h]

theorem mapNext_mapNext (f g : State → State) (o : Out) : mapNext f (mapNext g o) = mapNext (fun s => f (g s)) o := by
  cases o <;> rfl

/-- A move of the agenda is a step of its own while the part is on, no slot boundary is due and no parked access waits for its turn. -/
theorem step_agenda {s : State} {m : Move} {ms : List Move} (on : s.power = .on) (slot : slotPassed s = false) (again : s.again = none)
    (h : s.agenda = m :: ms) : step s = mapNext endStep (doMove m { s with agenda := ms }) := by
  rw [step, move, on, h, slot, again]
  rfl

theorem step_issue {s : State} {k : Nat} {ms : List Move} (on : s.power = .on) (slot : slotPassed s = false) (again : s.again = none)
    (h : s.agenda = .issue k :: ms) (can : canIssue s k = true) (held : (State.stepLoop { s with agenda := ms, cur := k }).curTask.held = []) :
    step s = mapNext endStep (runInstr (State.stepLoop { s with agenda := ms, cur := k })) := by
  rw [step_agenda on slot again h, doMove, if_pos (show canIssue { s with agenda := ms } k = true from can), issueOn]
  simp only [held, List.any_nil, Bool.and_false, Bool.false_eq_true, if_false]

theorem step_slotBoundary {s : State} (on : s.power = .on) (slot : slotPassed s = true) :
    step s = .next { slotBoundary s with tick := s.tick + 1 } := by
  rw [step, move, on]
  exact if_pos slot

theorem step_off {s : State} (off : s.power = .off) (other : ∀ ms, s.agenda ≠ .event .powerOnReset :: ms) : step s = .fault .powerOff := by
  rw [step, move, off]
  split
  · next ms _ h => exact absurd h (other ms)
  · rfl
  all_goals contradiction

/-- Settles O54: the fetch reads the words at the pc, the decoder answers for them as for their bytes, and the issue heads the agenda. -/
theorem stepRunsTheDecodedInstruction : Obligations.StepRunsTheDecodedInstruction := by
  intro s k ms i rest b x pc pa w l len now f issues fetches info
  have cur : spadPa b.cur + b.curTask.pc.toNat = pa := congrArg (spadPa · + pc.toNat) (cur_stepLoop _)
  have words : fetches → fetchWord b b.curTask.pc = .ok (b.chargeCur pa 4, w)
      ∧ fetchLiteral (b.chargeCur pa 4) w = .ok (fetchedState b pa, literalAt b pa) :=
    fun ⟨aligned, room, first, second, clean⟩ => fetch_words cur aligned room first second clean
  have same : (fetchedState b pa).curTask = x := curTask_fetchedState b pa
  have issue : issues → step s = mapNext endStep (runInstr b) := fun ⟨⟨on, slot, again⟩, agenda, can, held⟩ =>
    step_issue on slot again agenda can held
  have stop (c : Cause) (v : W64) : issues → fetchInstr b = .error (.after (fetchedState b pa) (.trap c v)) →
      step s = .next (endStep (afterIssue b x none (raise f b.curTid c v false))) := fun hi hf => by
    rw [issue hi, runInstr_stop hf]
    rfl
  refine ⟨fun hi hf free bytes reg => ?_, fun hi hf bytes => ?_, fun r hi hf bytes reg => ?_,
    fun ⟨on, slot, again⟩ agenda => ?_, fun on slot => ?_, fun off other => ?_⟩
  · obtain ⟨first, second⟩ := words hf
    have fetched := fetchInstr_ok first second (decode_of_readBytes bytes) (same.symm ▸ reg) (by
      rw [dbg_fetchedState]
      exact (congrArg Debug.bp (dbg_stepLoop _)).trans free)
    rw [issue hi, runInstr_ok fetched, mapNext_mapNext]
    rfl
  · obtain ⟨first, second⟩ := words hf
    obtain ⟨e, wrong⟩ := decode_of_no_readBytes bytes
    exact stop _ _ hi (fetchInstr_illegal first second wrong)
  · obtain ⟨first, second⟩ := words hf
    have decoded : decode w (literalAt b pa) = .ok i := decode_of_readBytes bytes
    rw [← illegalRegInfo_eq decoded r]
    exact stop _ _ hi (fetchInstr_illegalReg first second decoded (same.symm ▸ reg))
  · exact step_agenda on slot again agenda
  · exact step_slotBoundary on slot
  · exact step_off off other

end Sys2Proof.Machine
end
